-- ==== Sys2Proof/Word.lean ====
section
/-!
DEFINITION. The words of the MW-960 and their plainest arithmetic.

Bytes, 32-bit register words, 64-bit scalar words and 96-bit instruction words (spec 02 R47, 00 R11).
-/

namespace Sys2Proof

abbrev Byte := BitVec 8
abbrev Word := BitVec 32
abbrev DWord := BitVec 64
/-- One instruction word, 96 bits (02 R47). -/
abbrev IWord := BitVec 96

/-- The bit of a Bool. -/
def bit1 (b : Bool) : BitVec 1 := if b then 1#1 else 0#1

end Sys2Proof
end

