-- ==== Sys2Proof/Config.lean ====
section
/-!
DEFINITION. What an implementation fixes and the manual does not: the free values of the model.

Each is an opaque constant with no body: nothing in Lean can evaluate it or prove a value of it, so a statement that
holds here holds whatever the value is. notes/assumptions says of each which open point of the spec it stands for.
-/

namespace Sys2Proof.Config

/-- The approximated functions of 05 R135. -/
inductive Approx where
  | rcp | rsq | exp2 | log2 | sin | cos | tanh
  deriving DecidableEq, Repr

/-- DESIGN CHOICE (log 7). The stepping's choice for an approximated function at an operand, before the limits of R135
are applied: a fixed function of the operand bits (05 R136). -/
opaque approx : Approx → Word → Word

/-- DESIGN CHOICE (log 8). SHA3-384 over a byte string, as an uninterpreted function (17 R373, 20 R413). -/
opaque sha3_384 : List Byte → List Byte

/-- DESIGN CHOICE (log 8). A signature of a byte string under the key with the given number (20 R413, R422). -/
opaque signature : Nat → List Byte → List Byte

/-- DESIGN CHOICE (log 8). Sealing of a byte string under a key: an image body or an exported frame (17 R369, R372). -/
opaque sealed : Nat → List Byte → List Byte

/-- DESIGN CHOICE (log 8). The stepping identifier that enters CKEY (17 R373). -/
opaque stepping : DWord

/-- DESIGN CHOICE (log 8). The two physical columns that column-shift repair leaves out of a row (00 R2, 20 R416). -/
opaque rowRemap : Nat → BitVec 5 × BitVec 5

/-- DESIGN CHOICE (log 9). The initialisation vector of the n-th save image (17 R369). -/
opaque imageIv : Nat → BitVec 96

/-- DESIGN CHOICE (log 9). What the size of the n-th save image's body follows from, within the bound of 17 R369. -/
opaque imageSize : Nat → Nat

/-- DESIGN CHOICE (log 8). A frame that another module has sealed under the migration key of the given number, opened: its bytes and its
poisoned lines, or none where it does not authenticate (17 R372). -/
opaque openFrame : Nat → List Byte → Option (List Byte × List Nat)

/-- DESIGN CHOICE (log 10). Whether an intermediate wafer reaches another one directly, at the n-th rewriting of the route
table: the state of ports of other wafers (19 R397). -/
opaque peerReaches : Nat → Nat → Nat → Bool

/-- DESIGN CHOICE (log 59). Whether another wafer refuses an access to a fabric address in a cycle: the state of its export table and
its stage 2 (19 R400, R401). -/
opaque remoteRefuses : Nat → Nat → Bool

/-- DESIGN CHOICE (log 13). The one header format of a firmware image that the module reports (00 R14, 20 R420). -/
opaque firmwareFormat : BitVec 32

/-- DESIGN CHOICE (log 8). Whether a firmware image's signature or a life-cycle authorisation that a register write presents
verifies: the n-th such value (20 R420, R425). -/
opaque verifies : Nat → Bool

end Sys2Proof.Config
end

