-- ==== Sys2Proof/Syntax.lean ====
section
/-!
DEFINITION. The instructions and events of the MW-960: one constructor of Instr per row of the opcode table.

An instruction carries its guard and hints (Ctl) and the operand record of its layout (02 R49, R54): the decoder has
turned register numbers, kinds and codes into constructors, and a field that an instruction does not use holds the
value whose encoding is zero (02 R53). The 123 rows that are events of the machine carry what the event names; no word
encodes them, and they reach the machine through its agenda.
-/

namespace Sys2Proof

/-- Guard and hints of a full-format word (02 R49, R57). In the guard bit 4 inverts and bits 3:0 name the predicate. -/
structure Ctl where
  guard : BitVec 5
  stall : BitVec 4
  chn : Bool
  wsb : BitVec 3
  ssb : BitVec 3
  yh : Bool
  deriving DecidableEq, Repr

/-- Type codes 0x0 to 0xE (02 R54). -/
inductive Ty where
  | i8 | i16 | i32 | i64 | n8 | n16 | n32 | n64 | f32 | f16x2 | bf16x2 | e4m3 | e5m2 | bx8 | bx4
  deriving DecidableEq, Repr

/-- Rounding codes 0 to 4 (02 R54, 03 R83). -/
inductive Rm where
  | rne | rtz | rup | rdn | rsr
  deriving DecidableEq, Repr

/-- A destination field (02 R50). `nw` is set when the result exists only in l0. Vector register 0 with `nw` clear is
the zero encoding, which a word without a destination holds. -/
inductive Dst where
  | vec (nw : Bool) (n : BitVec 8)
  | sca (nw : Bool) (n : BitVec 6)
  | pred (nw : Bool) (n : BitVec 4)
  | acc (n : BitVec 3)
  deriving DecidableEq, Repr

/-- A source field (02 R51, R52). `const c` is entry 32 + c. Vector register 0 is the zero encoding, which an unused
source field holds; PLOP, BALLOT and VOTE hold a predicate number in the low bits of it (04 R114, 06 R146). -/
inductive Src where
  | vreg (n : BitVec 8)
  | sreg (n : BitVec 6)
  | latch (n : BitVec 2)
  | const (c : BitVec 4)
  | imm (v : BitVec 8)
  deriving DecidableEq, Repr

/-- Operands of IMM32 layout A (02 R54). -/
structure OpA where
  dst : Dst
  a : Src
  b : Src
  c : Src
  ty : Ty
  rm : Rm
  sat : Bool
  aba : Bool
  nga : Bool
  abb : Bool
  ngb : Bool
  abc : Bool
  ngc : Bool
  aux : BitVec 8
  deriving DecidableEq, Repr

/-- Operands of IMM32 layouts I and E: the instruction gives the meaning of the 32 bits (02 R54). -/
structure OpE where
  dst : Dst
  a : Src
  b : Src
  imm : BitVec 32
  deriving DecidableEq, Repr

/-- Operands of IMM32 layout M (02 R54, R55). -/
structure OpM where
  dst : Dst
  base : Src
  idx : Src
  scl : BitVec 2
  ord : BitVec 3
  sc : BitVec 3
  off : BitVec 24
  deriving DecidableEq, Repr

/-- Operands of IMM32 layout T (02 R54). -/
structure OpT where
  dst : Dst
  base : Src
  b : Src
  c : Src
  ty : Ty
  ord : BitVec 3
  sc : BitVec 3
  off : BitVec 12
  deriving DecidableEq, Repr

/-- A pair word (02 R58). -/
structure PairWord where
  guard : BitVec 5
  i : Bool
  sop : BitVec 5
  sd : BitVec 6
  sa : BitVec 6
  sb : BitVec 16
  vop : BitVec 6
  vd : BitVec 8
  va : BitVec 8
  vb : BitVec 8
  vc : BitVec 8
  stall : BitVec 4
  chn : Bool
  deriving DecidableEq, Repr

/-- How an access reaches memory, for permission checks and fault records (15 R330, R338). -/
inductive AccKind where
  | read | write | rmw | fetch | engine | table | fatal
  deriving DecidableEq, Repr

/-- What an SRAM error strikes (14 R324). -/
inductive SramHit where
  | corrected (array : Nat)
  | dataLine (loc : Nat)
  /-- a class entry, which describes a granule -/
  | entry (granule : Nat)
  /-- a tag or a directory entry, which describes a line -/
  | tag (line : Nat)
  | register (g lane reg : Nat)
  | scalar (g reg : Nat)
  /-- a word of the operand buffer, which holds a vector register -/
  | operand (g lane reg : Nat)
  /-- a word of the accumulator store -/
  | acc (g t : Nat)
  deriving DecidableEq, Repr

/-- A power-gating unit of a tile (14 R325). -/
inductive GateUnit where
  | storeBank (core bank : Nat)
  | tmBank (i : Nat)
  | l2Way (i : Nat)
  deriving DecidableEq, Repr

/-- What a packet carries as far as delivery is concerned (18 R378, R382). `dst` is a tile, or an edge resource when
`transit`; `payload` is what is written at a destination that accepts a posted write. -/
structure Packet where
  tag : Nat
  cls : Nat
  transit : Bool
  src : Nat
  dst : Nat
  addr : Nat
  seq : Nat
  tagOk : Bool
  /-- of the lossy class (18 R385) -/
  lossy : Bool
  /-- on the transit plane, from an edge resource `src` to a tile `dst` (18 R379) -/
  inbound : Bool
  /-- at a host port, the VF that it names (18 R382) -/
  vf : Nat
  payload : List Byte
  deriving DecidableEq, Repr

/-- A symbol of a fabric barrier: the job, the number of the fabric launch in it, the barrier, how many fabric barriers the member declares,
and whether some lane has arrived, where the others have exited (19 R406, R407). -/
structure BarSym where
  job : Nat
  launch : Nat
  id : Nat
  count : Nat
  live : Bool
  deriving DecidableEq, Repr

/-- The port at which a flit arrives, and the wafer that its packet is forwarded to where this wafer is its intermediate (19 R398). -/
structure Ingress where
  port : Nat
  onward : Option Nat
  deriving DecidableEq, Repr

/-- What training finds (19 R395): the good wavelengths and what the peer reports. -/
structure TrainResult where
  good : BitVec 16
  peerLo : Nat
  peerHi : Nat
  peerWafer : Nat
  peerPort : Nat
  deriving DecidableEq, Repr

/-- What a fabric request asks of an exported handle (19 R400, R402). -/
inductive FabricOp where
  | read (n : Nat)
  | write (bs : List Byte)
  | atomic (op : Nat) (ty : Ty) (b c : BitVec 64)
  /-- a reduction, a near-memory packet of a kind with its opcode and sign, the captured words and t, and a WAITA's test (19 R402) -/
  | reduction (op : Nat) (ty : Ty) (v : BitVec 64)
  | nmo (kind d : Nat) (words : List (BitVec 64))
  | waita (ty : Ty) (c : BitVec 64)
  deriving DecidableEq, Repr

/-- The register spaces of the host (20 R408). -/
inductive RegSpace where
  | dm | pf | vf
  deriving DecidableEq, Repr

/-- The rings of 20 R423 and the fault and notification queues that the device posts to (15 R338, R342). -/
inductive RingId where
  | usagePf | usageVf | eventPf | eventVf | device
  deriving DecidableEq, Repr

/-- A chunk or block of a copy that arrives: its number, and whether it came corrupt or was lost (10 R235). -/
structure Arrival where
  chunk : Nat
  bad : Bool
  deriving DecidableEq, Repr

/-- A TDISP or SPDM message as it reaches a function: the function, and the version that the message carries (20 R411, R413). -/
structure Msg where
  part : Nat
  ver : Nat
  deriving DecidableEq, Repr

/-- One constructor per row of the opcode table. -/
inductive Instr where
  /-- R101. Scalar add, executed once per group with an active lane. -/
  | sadd (c : Ctl) (o : OpA)
  /-- R101. Scalar subtract. -/
  | ssub (c : Ctl) (o : OpA)
  /-- R101. Scalar multiply, low w bits. -/
  | smul (c : Ctl) (o : OpA)
  /-- R101. Scalar multiply, high w bits. -/
  | smulh (c : Ctl) (o : OpA)
  /-- R102. Scalar divide with fixed results for division by zero and overflow. -/
  | sdiv (c : Ctl) (o : OpA)
  /-- R102. Scalar remainder with fixed corner-case results. -/
  | srem (c : Ctl) (o : OpA)
  /-- R101. Scalar bitwise AND. -/
  | sand (c : Ctl) (o : OpA)
  /-- R101. Scalar bitwise OR. -/
  | sor (c : Ctl) (o : OpA)
  /-- R101. Scalar bitwise XOR. -/
  | sxor (c : Ctl) (o : OpA)
  /-- R101. Scalar a AND NOT b. -/
  | sandn (c : Ctl) (o : OpA)
  /-- R101. Scalar shift left by b mod w. -/
  | sshl (c : Ctl) (o : OpA)
  /-- R101. Scalar logical shift right. -/
  | sshr (c : Ctl) (o : OpA)
  /-- R101. Scalar arithmetic shift right. -/
  | ssar (c : Ctl) (o : OpA)
  /-- R101. Scalar rotate left. -/
  | srot (c : Ctl) (o : OpA)
  /-- R101. Scalar minimum. -/
  | smin (c : Ctl) (o : OpA)
  /-- R101. Scalar maximum. -/
  | smax (c : Ctl) (o : OpA)
  /-- R101. Scalar count of leading zeros. -/
  | sclz (c : Ctl) (o : OpA)
  /-- R101. Scalar population count. -/
  | spopc (c : Ctl) (o : OpA)
  /-- R101. Scalar bit reversal. -/
  | sbrev (c : Ctl) (o : OpA)
  /-- R104. Scalar bit-field extract, sign- or zero-extended. -/
  | sext (c : Ctl) (o : OpA)
  /-- R104. Scalar bit-field insert. -/
  | sins (c : Ctl) (o : OpA)
  /-- R105. Scalar select by the predicate of the lowest-numbered active lane. -/
  | ssel (c : Ctl) (o : OpA)
  /-- R106. Scalar compare, writing a predicate in every active lane. -/
  | scmp (c : Ctl) (o : OpA)
  /-- R107. Load a sign-extended 32-bit immediate into a scalar register. -/
  | smovi (c : Ctl) (o : OpE)
  /-- R107. Set the upper 32 bits of a scalar register. -/
  | smovh (c : Ctl) (o : OpE)
  /-- R108. Form an address without accessing memory. -/
  | slea (c : Ctl) (o : OpM)
  /-- R110. Read a special register into a scalar or vector destination. -/
  | srd (c : Ctl) (o : OpE)
  /-- R111. Write a special register. -/
  | swr (c : Ctl) (o : OpE)
  /-- R114. Combine two predicates through a truth table in each active lane. -/
  | plop (c : Ctl) (o : OpA)
  /-- R58. Issue one scalar and one vector operation together in a pair word. -/
  | pairWord (p : PairWord)
  /-- R124. Vector integer add, optionally saturating. -/
  | vadd (c : Ctl) (o : OpA)
  /-- R124. Vector integer subtract. -/
  | vsub (c : Ctl) (o : OpA)
  /-- R124. Vector multiply, low 32 bits. -/
  | vmul (c : Ctl) (o : OpA)
  /-- R124. Vector multiply, high 32 bits. -/
  | vmulh (c : Ctl) (o : OpA)
  /-- R124. Vector multiply-add, low 32 bits. -/
  | vmad (c : Ctl) (o : OpA)
  /-- R124. Vector bitwise AND. -/
  | vand (c : Ctl) (o : OpA)
  /-- R124. Vector bitwise OR. -/
  | vor (c : Ctl) (o : OpA)
  /-- R124. Vector bitwise XOR. -/
  | vxor (c : Ctl) (o : OpA)
  /-- R124. Vector three-input logic through an 8-bit truth table. -/
  | vlop3 (c : Ctl) (o : OpA)
  /-- R124. Vector shift left. -/
  | vshl (c : Ctl) (o : OpA)
  /-- R124. Vector logical shift right. -/
  | vshr (c : Ctl) (o : OpA)
  /-- R124. Vector arithmetic shift right. -/
  | vsar (c : Ctl) (o : OpA)
  /-- R124. Vector minimum. -/
  | vmin (c : Ctl) (o : OpA)
  /-- R124. Vector maximum. -/
  | vmax (c : Ctl) (o : OpA)
  /-- R124. Vector absolute value. -/
  | vabs (c : Ctl) (o : OpA)
  /-- R124. Vector count of leading zeros. -/
  | vclz (c : Ctl) (o : OpA)
  /-- R124. Vector population count. -/
  | vpopc (c : Ctl) (o : OpA)
  /-- R125. Vector bit-field extract. -/
  | vext (c : Ctl) (o : OpA)
  /-- R125. Vector bit-field insert. -/
  | vins (c : Ctl) (o : OpA)
  /-- R124. Vector per-lane select by predicate. -/
  | vsel (c : Ctl) (o : OpA)
  /-- R126. Vector integer compare into a predicate. -/
  | vcmp (c : Ctl) (o : OpA)
  /-- R124. Vector move. -/
  | vmov (c : Ctl) (o : OpA)
  /-- R124. Vector move of a 32-bit immediate. -/
  | vmovi (c : Ctl) (o : OpE)
  /-- R127. Four-way byte dot product with accumulate. -/
  | vdot4 (c : Ctl) (o : OpA)
  /-- R130. Floating add, rounded once. -/
  | fadd (c : Ctl) (o : OpA)
  /-- R130. Floating subtract. -/
  | fsub (c : Ctl) (o : OpA)
  /-- R130. Floating multiply. -/
  | fmul (c : Ctl) (o : OpA)
  /-- R130. Fused multiply-add with one rounding. -/
  | ffma (c : Ctl) (o : OpA)
  /-- R132. IEEE minimumNumber per element. -/
  | fmin (c : Ctl) (o : OpA)
  /-- R132. IEEE maximumNumber per element. -/
  | fmax (c : Ctl) (o : OpA)
  /-- R133. FP32 compare into a predicate. -/
  | fcmp (c : Ctl) (o : OpA)
  /-- R134. Write a 10-bit class mask per element. -/
  | fclass (c : Ctl) (o : OpA)
  /-- R130. Correctly rounded FP32 divide. -/
  | fdiv (c : Ctl) (o : OpA)
  /-- R130. Correctly rounded FP32 square root. -/
  | fsqrt (c : Ctl) (o : OpA)
  /-- R135. Approximate reciprocal. -/
  | frcp (c : Ctl) (o : OpA)
  /-- R135. Approximate reciprocal square root. -/
  | frsq (c : Ctl) (o : OpA)
  /-- R135. Approximate base-2 exponential. -/
  | fexp2 (c : Ctl) (o : OpA)
  /-- R135. Approximate base-2 logarithm. -/
  | flog2 (c : Ctl) (o : OpA)
  /-- R135. Approximate sine. -/
  | fsin (c : Ctl) (o : OpA)
  /-- R135. Approximate cosine. -/
  | fcos (c : Ctl) (o : OpA)
  /-- R135. Approximate hyperbolic tangent. -/
  | ftanh (c : Ctl) (o : OpA)
  /-- R131. Round each element to an integral value. -/
  | fround (c : Ctl) (o : OpA)
  /-- R130. Multiply by 2 to an integer power with one rounding. -/
  | fscale (c : Ctl) (o : OpA)
  /-- R130. Two-element 16-bit dot product into FP32. -/
  | fdot2 (c : Ctl) (o : OpA)
  /-- R138. Convert between integer and floating types. -/
  | cvt (c : Ctl) (o : OpA)
  /-- R141. Encode 32 lanes into a BX block. -/
  | cvtbx (c : Ctl) (o : OpA)
  /-- R141. Decode a BX element exactly to FP32. -/
  | cvtxf (c : Ctl) (o : OpA)
  /-- R140. Convert between FP32 and an FP8 format. -/
  | cvtf8 (c : Ctl) (o : OpA)
  /-- R139. Convert two FP32 values into one packed word. -/
  | cvtpk (c : Ctl) (o : OpA)
  /-- R142. Compute the counter-based generator per lane. -/
  | rnd (c : Ctl) (o : OpA)
  /-- R149. Exchange values among lanes within segments. -/
  | shfl (c : Ctl) (o : OpA)
  /-- R150. Broadcast one lane's value. -/
  | bcast (c : Ctl) (o : OpA)
  /-- R151. Collect a predicate across active lanes into a scalar mask. -/
  | ballot (c : Ctl) (o : OpA)
  /-- R151. Group vote on a predicate. -/
  | vote (c : Ctl) (o : OpA)
  /-- R151. Write per lane the mask of active lanes holding an equal value. -/
  | match (c : Ctl) (o : OpA)
  /-- R152. Group reduction over active lanes. -/
  | gred (c : Ctl) (o : OpA)
  /-- R153. Serial group scan in lane order. -/
  | gscan (c : Ctl) (o : OpA)
  /-- R154. Counted group reduction that skips lanes with zero count. -/
  | gredm (c : Ctl) (o : OpA)
  /-- R157. Rescale a sum of n contributions to N. -/
  | mscl (c : Ctl) (o : OpA)
  /-- R155. Load the lossy count byte of the block holding an element. -/
  | mcnt (c : Ctl) (o : OpA)
  /-- R161. Per-lane load from an absolute address. -/
  | ld (c : Ctl) (w : BitVec 3) (o : OpM)
  /-- R161. Per-lane store to an absolute address. -/
  | st (c : Ctl) (w : BitVec 3) (o : OpM)
  /-- R168. Per-group scalar load. -/
  | sld (c : Ctl) (w : BitVec 3) (o : OpM)
  /-- R168. Per-group scalar store. -/
  | sst (c : Ctl) (w : BitVec 3) (o : OpM)
  /-- R161. Load from core scratch by offset. -/
  | lds (c : Ctl) (w : BitVec 3) (o : OpM)
  /-- R161. Store to core scratch by offset. -/
  | sts (c : Ctl) (w : BitVec 3) (o : OpM)
  /-- R161. Load from tile memory by offset. -/
  | ldt (c : Ctl) (w : BitVec 3) (o : OpM)
  /-- R161. Store to tile memory by offset. -/
  | stt (c : Ctl) (w : BitVec 3) (o : OpM)
  /-- R169. Store to the TM of the neighbour tile in one direction. -/
  | stn (c : Ctl) (d : BitVec 2) (e : BitVec 1) (o : OpM)
  /-- R170. Load from the launch's argument copy. -/
  | ldc (c : Ctl) (w : BitVec 3) (o : OpM)
  /-- R171. Prefetch a line into L1 or L2/RDC with no architectural effect. -/
  | prf (c : Ctl) (o : OpE)
  /-- R172. Stage register ranges into the operand buffer. -/
  | rgn (c : Ctl) (o : OpE)
  /-- R173. Map a VA range onto core scratch. -/
  | maps (c : Ctl) (o : OpE)
  /-- R173. Unmap a scratch mapping entry, writing the contents back. -/
  | mapsUn (c : Ctl) (o : OpE)
  /-- R175. Returning atomic integer add at the home. -/
  | atmAdd (c : Ctl) (o : OpT)
  /-- R175. Returning atomic FP32 add rounded at the home. -/
  | atmFadd (c : Ctl) (o : OpT)
  /-- R175. Returning atomic minimum. -/
  | atmMin (c : Ctl) (o : OpT)
  /-- R175. Returning atomic maximum. -/
  | atmMax (c : Ctl) (o : OpT)
  /-- R175. Returning atomic AND. -/
  | atmAnd (c : Ctl) (o : OpT)
  /-- R175. Returning atomic OR. -/
  | atmOr (c : Ctl) (o : OpT)
  /-- R175. Returning atomic XOR. -/
  | atmXor (c : Ctl) (o : OpT)
  /-- R175. Returning atomic exchange. -/
  | atmXch (c : Ctl) (o : OpT)
  /-- R175. Atomic compare-and-swap. -/
  | acas (c : Ctl) (o : OpT)
  /-- R175. Atomic add that wakes waiters when a threshold is crossed. -/
  | aaddt (c : Ctl) (o : OpT)
  /-- R175. Non-returning integer add reduction. -/
  | redAdd (c : Ctl) (o : OpT)
  /-- R95. Non-returning FP32 add reduction merged in the write queue. -/
  | redFadd (c : Ctl) (o : OpT)
  /-- R175. Non-returning minimum reduction. -/
  | redMin (c : Ctl) (o : OpT)
  /-- R175. Non-returning maximum reduction. -/
  | redMax (c : Ctl) (o : OpT)
  /-- R175. Non-returning AND reduction. -/
  | redAnd (c : Ctl) (o : OpT)
  /-- R175. Non-returning OR reduction. -/
  | redOr (c : Ctl) (o : OpT)
  /-- R175. Non-returning XOR reduction. -/
  | redXor (c : Ctl) (o : OpT)
  /-- R167. Acquire fence ordering earlier loads before later accesses. -/
  | fenceAcq (c : Ctl) (o : OpM)
  /-- R167. Release fence that waits for the side log. -/
  | fenceRel (c : Ctl) (o : OpM)
  /-- R167. Full fence in the total order S. -/
  | fenceFull (c : Ctl) (o : OpM)
  /-- R178. Wait at the home until a word reaches a value, registering a waiter. -/
  | waita (c : Ctl) (o : OpT)
  /-- R229. Block until an asynchronous counter falls to n, reporting engine errors. -/
  | waitc (c : Ctl) (o : OpE)
  /-- R243. Near-memory two-word compare-and-swap. -/
  | nmoCas2 (c : Ctl) (o : OpE)
  /-- R243. Near-memory four-word compare-and-swap. -/
  | nmoCas4 (c : Ctl) (o : OpE)
  /-- R243. Near-memory 64-bit fetch-and-op. -/
  | nmoFop (c : Ctl) (o : OpE)
  /-- R243. Near-memory linked-list enqueue. -/
  | nmoEnq (c : Ctl) (o : OpE)
  /-- R243. Near-memory linked-list dequeue. -/
  | nmoDeq (c : Ctl) (o : OpE)
  /-- R243. Near-memory pointer chase of up to 8 hops. -/
  | nmoChase (c : Ctl) (o : OpE)
  /-- R233. Exact copy engine operation. -/
  | cpy (c : Ctl) (o : OpE)
  /-- R235. Lossy-class copy of 256-byte blocks with a deadline. -/
  | cpyLossy (c : Ctl) (o : OpE)
  /-- R233. Exact two-dimensional copy. -/
  | cpy2d (c : Ctl) (o : OpE)
  /-- R235. Lossy two-dimensional copy. -/
  | cpy2dLossy (c : Ctl) (o : OpE)
  /-- R239. Copy into the next slot of a circular buffer and publish it. -/
  | cpycb (c : Ctl) (o : OpE)
  /-- R236. Gather rows by an index list. -/
  | gath (c : Ctl) (o : OpE)
  /-- R241. Exact collective among the units of a level. -/
  | coll (c : Ctl) (o : OpE)
  /-- R242. Lossy collective with per-block counts. -/
  | collLossy (c : Ctl) (o : OpE)
  /-- R237. Configure a circular buffer. -/
  | cbcfg (c : Ctl) (o : OpE)
  /-- R238. Take the next filled slot of a buffer, blocking until one exists. -/
  | cbwaitFull (c : Ctl) (o : OpE)
  /-- R238. Allocate a free slot for writing, blocking until one exists. -/
  | cbwaitFree (c : Ctl) (o : OpE)
  /-- R238. Release a taken slot back to the free pool. -/
  | cbrel (c : Ctl) (o : OpE)
  /-- R238. Publish a slot written by the program. -/
  | cbpost (c : Ctl) (o : OpE)
  /-- R258. Start a dense matrix job into an accumulator tile. -/
  | mma (c : Ctl) (ru : Bool) (o : OpE)
  /-- R258. Start a sparse matrix job using bitmaps. -/
  | mmas (c : Ctl) (ru : Bool) (o : OpE)
  /-- R260. Zero an accumulator tile and clear its flags. -/
  | accz (c : Ctl) (o : OpE)
  /-- R260. Load an accumulator tile from memory. -/
  | accld (c : Ctl) (o : OpE)
  /-- R261. Store an accumulator tile converted to a type. -/
  | accst (c : Ctl) (o : OpE)
  /-- R264. Query matrix engine state. -/
  | mqry (c : Ctl) (o : OpE)
  /-- R185. Branch by displacement. -/
  | bra (c : Ctl) (o : OpE)
  /-- R185. Branch to a register target. -/
  | bri (c : Ctl) (o : OpE)
  /-- R185. Call by displacement, writing a link. -/
  | call (c : Ctl) (o : OpE)
  /-- R185. Call a register target, writing a link. -/
  | calli (c : Ctl) (o : OpE)
  /-- R185. Return to a register target. -/
  | ret (c : Ctl) (o : OpE)
  /-- R187. End the active lanes, counting them as arrived at every barrier. -/
  | exit (c : Ctl) (o : OpE)
  /-- R189. Mark active lanes as yielded for the progress rule. -/
  | yield (c : Ctl) (o : OpE)
  /-- R191. Record a reconvergence address for tie-breaking. -/
  | reconv (c : Ctl) (o : OpE)
  /-- R190. Block active lanes until a wafer cycle count. -/
  | sleep (c : Ctl) (o : OpE)
  /-- R193. Arrive at a barrier and wait for the phase. -/
  | bar (c : Ctl) (o : OpE)
  /-- R193. Arrive at a barrier without waiting. -/
  | bara (c : Ctl) (o : OpE)
  /-- R193. Wait for the barrier phase the lane arrived in. -/
  | barw (c : Ctl) (o : OpE)
  /-- R192. Set pd in the lowest-numbered active lane of each group. -/
  | elect (c : Ctl) (o : OpE)
  /-- R198. Append a child launch record to a partition queue. -/
  | enq (c : Ctl) (o : OpE)
  /-- R200. Request a larger register window. -/
  | grow (c : Ctl) (o : OpE)
  /-- R202. Reduce the register window. -/
  | shrnk (c : Ctl) (o : OpE)
  /-- R208. Open an atomic region for each group. -/
  | arb (c : Ctl) (o : OpE)
  /-- R218. Commit or abort the open atomic region. -/
  | are (c : Ctl) (o : OpE)
  /-- R220. Abort the open region with an explicit code. -/
  | arx (c : Ctl) (o : OpE)
  /-- R210. Read sr.arstat, optionally clearing CNT. -/
  | arst (c : Ctl) (o : OpE)
  /-- R280. Raise trap 0x0F with a code. -/
  | trap (c : Ctl) (o : OpE)
  /-- R280. Raise breakpoint trap 0x0E. -/
  | bkpt (c : Ctl) (o : OpE)
  /-- R277. Return from a trap handler to K. -/
  | eret (c : Ctl) (o : OpE)
  /-- R281. Invalidate stage-1 TLB entries for one page. -/
  | stlbiVa (c : Ctl) (o : OpE)
  /-- R281. Invalidate all stage-1 TLB entries of the partition. -/
  | stlbiAll (c : Ctl) (o : OpE)
  /-- R282. Write back and invalidate the core's L1. -/
  | sflushC (c : Ctl) (o : OpE)
  /-- R282. Write back and invalidate the tile's L1s and RDC. -/
  | sflushT (c : Ctl) (o : OpE)
  /-- R282. Write back and invalidate the partition's caches and stable copies. -/
  | sflushP (c : Ctl) (o : OpE)
  /-- R283. End the issuing group's launch with a halt code. -/
  | halt (c : Ctl) (o : OpE)
  /-- R284. Read the partition's key epoch. -/
  | keyq (c : Ctl) (o : OpE)
  /-- R57. A group's STALL delay count runs out and its lanes become ready. -/
  | stallExpiry (g : Nat)
  /-- R36. A variable-latency result is written and its scoreboard falls. -/
  | resultWriteback (g k : Nat)
  /-- R227. An engine operation completes and is reported in issue order to its counter. -/
  | engineCompletion (g cls : Nat)
  /-- R45. A lane's watchdog count reaches the limit and its PC-set takes 0x0D. -/
  | watchdogExpiry (g lane : Nat)
  /-- R190. sr.clock reaches a sleeping lane's wake time. -/
  | sleepWake (g lane : Nat)
  /-- R193. The last member arrives and the barrier phase advances, releasing waiters. -/
  | barrierPhaseComplete (launch dom unit id : Nat)
  /-- R200. A pending GROW is granted once free store can meet it. -/
  | growGrant (tile core : Nat)
  /-- R201. All resident groups blocked in GROW: all but the oldest fail. -/
  | growDeadlockResolve (tile core : Nat)
  /-- R202. After outstanding writes finish, the shrunk registers are released. -/
  | shrnkRelease (g : Nat)
  /-- R188. A group whose lanes exited ends once counters, side log and ENQs settle. -/
  | groupEnd (g : Nat)
  /-- R198. An ENQ reaches the dispatcher, is checked, charged and appended. -/
  | enqAtDispatcher (g : Nat)
  /-- R223. The partition's serialisation token is granted to an ARB.ser. -/
  | serTokenGrant (part : Nat)
  /-- R223. An ARB.ser waits 65,536 cycles without the token and aborts serial-denied. -/
  | serTokenTimeout (g : Nat)
  /-- R338. A waiting fault record is posted once its queue has room. -/
  | faultRecordPost (part stage : Nat)
  /-- R338. The consumer advances CI and the device acts on each RESP passed. -/
  | faultCiAdvance (part stage ci : Nat)
  /-- R336. A mapped or invalidated fault ends and the held accesses retry. -/
  | heldAccessRetry (part fault : Nat)
  /-- R337. A side-log entry replays after its fault ends. -/
  | sideLogReplay (tile core : Nat)
  /-- R314. A reclassification flush completes and held accesses are served. -/
  | classFlushComplete (granule : Nat)
  /-- R317. All acknowledgements arrive and the waiting request proceeds. -/
  | invalidationAcksDone (line : Nat)
  /-- R321. A write-queue entry 512 cycles old drains to memory. -/
  | writeQueueDrain (tile line : Nat)
  /-- R243. The Sloe unit executes a near-memory packet as one atomic event. -/
  | nmoExecute (op : Nat)
  /-- R403. A 4,096-cycle window ends and the home resets a page's packet mode. -/
  | sloeWindowEnd (page : Nat)
  /-- R326. A gated unit finishes waking zeroed and serves held accesses. -/
  | powerWakeDone (tile : Nat) (u : GateUnit)
  /-- R368. All source reads of a 4 KiB copy chunk return and it is written. -/
  | copyChunkDone (op : Nat) (chunk : Arrival)
  /-- R235. t0 + D passes and unwritten lossy blocks become zeros with count 0. -/
  | lossyDeadline (op : Nat)
  /-- R240. The last participant's COLL reaches its engine and the call starts. -/
  | collCallStart (call : Nat)
  /-- R436. The combining engine closes a block and sends the result. -/
  | collBlockClose (call block : Nat) (arrived lostTo : List Nat)
  /-- R239. A CPYCB at the channel head acquires a slot once F > 0. -/
  | cpycbSlotAcquire (op : Nat)
  /-- R265. The engine performs one K-step or tile transfer chosen by class and age. -/
  | matrixKstep (tile core : Nat)
  /-- R266. An engine without progress for 2^22 cycles is reset. -/
  | matrixEngineReset (tile core : Nat)
  /-- R349. The dispatcher takes a record, checks it and charges its budget. -/
  | recordTake (part : Nat)
  /-- R352. The dispatcher re-reads a task's input event word. -/
  | eventPoll (part task : Nat)
  /-- R353. A task eligible for 2^20 cycles blocks lower-ranked starts. -/
  | taskStarvation (part task : Nat)
  /-- R356. Reserve resources, copy arguments, zero memory and start all groups. -/
  | launchStart (part task : Nat)
  /-- R356. The scheduler moves a parked group's window to make a contiguous run. -/
  | windowRelocation (g base : Nat)
  /-- R359. A launch completes and releases its resources. -/
  | launchCompletion (launch : Nat)
  /-- R363. Freeze lower-class slots to run a higher-class task in the reserve. -/
  | fastPreemption (part task : Nat)
  /-- R364. A slot freezes once its groups reach a boundary outside a chain. -/
  | slotFreeze (tile core slot : Nat)
  /-- R376. Corrections exceed the limit and Damson compacts the partition. -/
  | tilePredictedFailure (tile array : Nat)
  /-- R334. Earlier walks have finished or restarted; BUSY clears and SEQ rises. -/
  | s2InvalidationDone (part : Nat)
  /-- R281. Earlier walks have finished and the STLBI lanes resume. -/
  | stlbiDone (g : Nat)
  /-- R340. A managed frame copy finishes and its leaf is rewritten. -/
  | frameMoveDone (part : Nat)
  /-- R342. A region's host access count reaches ACTHR and a notification is posted. -/
  | accessCountThreshold (part region : Nat)
  /-- R343. Advancing NQCI posts a pending lost-count record. -/
  | nqciWrite (part : Nat) (v : BitVec 32)
  /-- R306. A new PCARVE value takes effect on a tile with no resident launch. -/
  | pcarveTakeEffect (part tile : Nat)
  /-- R358. A new WDLOG takes effect on a core at the first cycle in which no lane of the partition issues there. -/
  | pschedTakeEffect (tile core : Nat)
  /-- R383. A 1,024-cycle drop window closes and its record is posted. -/
  | dropWindowClose (tile : Nat)
  /-- R395. Training exceeds 2^24 cycles and fails. -/
  | trainingTimeout (port : Nat)
  /-- R404. A link acknowledgement control symbol from the receiver frees replay-buffer entries and lets a stalled sender resume. -/
  | linkAcknowledgement (port seq : Nat)
  /-- R405. The port detects loss of light and posts a record. -/
  | lossOfLightDetect (port laser : Nat) (own : Bool)
  /-- R405. Both ends remove the wavelengths and restripe at a common boundary. -/
  | restripe (port laser : Nat) (own : Bool)
  /-- R387. After the drain, install a new traffic key and bump EPOCH. -/
  | rekeyExecute (part : Nat)
  /-- R400. A fabric request arrives at the target and is accepted or refused. -/
  | fabricRequest (part wafer srcPart handle : Nat) (off : BitVec 33) (op : FabricOp)
  /-- R407. A fabric barrier phase or release symbol arrives. -/
  | fabricBarrierSymbol (part : Nat) (id : BarSym) (rank : Nat) (release : Bool)
  /-- R422. Every 2^20 cycles the mapped frames are added to frame-ticks. -/
  | frameTick
  /-- R422. Every 2^31 cycles Medlar writes a signed usage record. -/
  | usageRecordPeriodic
  /-- R427. Power above PWRLIM for 10 ms at the lowest clock trips the module. -/
  | powerTripTimeout
  /-- R332. A nested table walk finishes and fills the TLBs or reports a fault. -/
  | pageWalkComplete (tile part : Nat) (va : BitVec 64) (kind : AccKind) (s : Bool)
  /-- R316. A read miss arrives at the home directory. -/
  | readMiss (tile line : Nat)
  /-- R316. An ownership request or home RMW sends invalidations. -/
  | ownershipRequest (tile line : Nat) (rmw : Bool)
  /-- R316. A tile receives an invalidation and acknowledges it. -/
  | invalidation (tile line : Nat)
  /-- R318. The home L2 evicts a line, invalidating copies of SH lines. -/
  | l2Eviction (line : Nat)
  /-- R316. An RDC evicts a line, writing back an O line. -/
  | rdcEviction (tile line : Nat)
  /-- R320. A reduction arrives in the home write queue and merges. -/
  | reductionArrival (tile pa op : Nat) (ty : Ty) (v : BitVec 64)
  /-- R175. A returning atomic executes at the line's home L2. -/
  | atomicAtHome (tile pa op : Nat) (ty : Ty) (b c : BitVec 64)
  /-- R324. An SRAM error is corrected and counted, or poisons the line. -/
  | sramError (tile : Nat) (hit : SramHit)
  /-- R325. An unused store bank, TM bank or L2 way is power gated. -/
  | powerGate (tile : Nat) (u : GateUnit)
  /-- R347. A host TAIL write appends records or is ignored. -/
  | tailWrite (part q lv : Nat) (v : BitVec 32)
  /-- R348. Add a signed amount to a queue budget. -/
  | qbaddWrite (part q : Nat) (v : BitVec 64)
  /-- R346. Write queue configuration, ignored while enabled. -/
  | queueControlWrite (part q off : Nat) (v : BitVec 64)
  /-- R362. EN := 0 cancels every appended record not yet started. -/
  | queueDisable (part q : Nat)
  /-- R370. OP 1: quiesce and write a save image. -/
  | ctxSave (part ctx : Nat) (area : BitVec 64)
  /-- R370. OP 2: check and load a save image and resume. -/
  | ctxRestore (part ctx : Nat) (area : BitVec 64)
  /-- R371. OP 3: clear the dirty bitmap and turn logging on. -/
  | dirtyLogOn (part : Nat)
  /-- R453. OP 4: write back dirty lines and cut the dirty bitmap to AREA. -/
  | harvest (part : Nat) (area : BitVec 64)
  /-- R372. OP 5: quiesce and write a KIND 2 image. -/
  | migrationStop (part ctx : Nat) (area : BitVec 64)
  /-- R454. OP 6: export one frame encrypted under the migration key. -/
  | exportFrame (part : Nat) (area : BitVec 64)
  /-- R372. OP 7: decrypt and import a frame. -/
  | importFrame (part : Nat) (area : BitVec 64)
  /-- R371. OP 8: turn the dirty log off. -/
  | dirtyLogOff (part : Nat)
  /-- R374. Function level reset of a VF, aborting commands and zeroing the partition. -/
  | flr (part : Nat)
  /-- R377. A tile fails, ending launches and poisoning its lines. -/
  | tileFailure (tile : Nat)
  /-- R334. OP 1: drop stage-2 derived entries for one IPA page. -/
  | s2cmdInvalidateIpa (part : Nat) (ipa : BitVec 64)
  /-- R334. OP 2: drop all stage-2 derived entries of the partition. -/
  | s2cmdInvalidateAll (part : Nat)
  /-- R341. OP 3: bring a region's host-form managed frames into HBM. -/
  | s2cmdMigrateIn (part : Nat) (ipa : BitVec 64)
  /-- R391. DMCMD OP 1: create a partition. -/
  | partitionCreate (part : Nat) (area : BitVec 64)
  /-- R391. DMCMD OP 2: destroy a partition. -/
  | partitionDestroy (part : Nat)
  /-- R392. DMCMD OP 3: add tiles under drain. -/
  | partitionGrow (part : Nat) (area : BitVec 64)
  /-- R392. DMCMD OP 4: remove tiles under drain. -/
  | partitionShrink (part : Nat) (area : BitVec 64)
  /-- R392. DMCMD OP 5: move tiles under drain. -/
  | partitionCompact (part : Nat) (area : BitVec 64)
  /-- R382. A packet is checked against its tag and sealing at delivery. -/
  | packetDelivery (p : Packet)
  /-- R387. A GO write requests a rekey. -/
  | rekeyRequest (part : Nat) (pf : Bool)
  /-- R395. EN := 1 starts port training. -/
  | portEnable (port : Nat)
  /-- R395. EN := 0 disables the port. -/
  | portDisable (port : Nat)
  /-- R396. RETRAIN write drains and retrains the port. -/
  | portRetrain (port : Nat)
  /-- R395. Training succeeds or fails and the port state and route table change. -/
  | trainingDone (port : Nat) (r : TrainResult)
  /-- R397. Set WAFERID, ignored unless every port is disabled. -/
  | waferidWrite (v : BitVec 64)
  /-- R400. Write an export handle entry under the uniqueness rules. -/
  | exportHandleWrite (part h : Nat) (second : Bool) (v : BitVec 64)
  /-- R404. A flit arrives; CRC or order failures request replay or drop lossy flits. -/
  | flitReceive (at_ : Ingress) (seq : Nat) (exact crcOk : Bool)
  /-- R404. The sender resends unacknowledged exact flits in order. -/
  | replayRequest (port seq : Nat)
  /-- R405. A laser module stops emitting. -/
  | laserLoss (port laser : Nat)
  /-- R411. TDISP lock of the interface configuration. -/
  | lockInterfaceRequest (m : Msg)
  /-- R411. TDISP move to RUN. -/
  | startInterfaceRequest (m : Msg)
  /-- R411. TDISP stop, acting as an FLR first. -/
  | stopInterfaceRequest (m : Msg)
  /-- R413. SPDM key exchange opening a new secure session. -/
  | keyExchange (m : Msg)
  /-- R413. SPDM challenge signed by the attestation key. -/
  | challenge (m : Msg) (nonce : List Byte)
  /-- R414. Report the measurement indices. -/
  | getMeasurements (m : Msg) (index : Nat) (raw : Bool)
  /-- R415. Program and switch an IDE stream key after the drain. -/
  | ideKmKeyProg (m : Msg) (key : Nat)
  /-- R420. A tenant acknowledges the staged firmware digest. -/
  | fwAck (m : Msg) (digest : List Byte)
  /-- R415. Host write to TVEC sets sr.tvec. -/
  | tvecWrite (part : Nat) (v : BitVec 64)
  /-- R418. KCMD OP 1: establish a fabric key for an import. -/
  | bindFabricImport (part : Nat) (area : BitVec 64)
  /-- R420. KCMD OP 2: verify and stage a firmware image. -/
  | stageFirmware (area : BitVec 64) (sigOk : Bool)
  /-- R420. KCMD OP 3: drain and activate the staged firmware. -/
  | activateFirmware
  /-- R418. KCMD OP 4: discard the staged image. -/
  | discardStaged
  /-- R425. KCMD OP 5: advance the life-cycle state with a wipe. -/
  | lifeCycleTransition (area : BitVec 64) (authOk : Bool)
  /-- R419. KCMD OP 6: establish a migration key with the peer module. -/
  | establishMigrationKey (part : Nat) (area : BitVec 64)
  /-- R419. KCMD OP 7: retire the partition's migration key. -/
  | retireMigrationKey (part : Nat)
  /-- R423. Advancing a ring's CI lets held records be posted. -/
  | ringCiWrite (part : Nat) (ring : RingId) (ci : BitVec 32)
  /-- R410. A host PCIe request to device memory or registers. -/
  | hostMemoryAccess (pa : Nat) (write : Option (List Byte)) (n : Nat)
  /-- R426. Reset boots, wipes the module and trains ports. -/
  | moduleReset
  /-- R427. Inlet above 45 °C or junction above 110 °C trips the module. -/
  | thermalTrip (cause : Nat)
  /-- R427. The power controller lowers or raises the arithmetic clock. -/
  | clockThrottle (mhz : Nat)
  /-- R12. A write to a register with no row of its own. -/
  | registerWrite (space : RegSpace) (part off : Nat) (v : BitVec 64)
  /-- R419. A peer Medlar's signed vendor-defined SPDM message, carried by the host, arrives in the PF0 DOE mailbox during migration-key establishment. -/
  | migrationKeyMessage (m : Msg) (peer : Option (List Byte))
  deriving DecidableEq, Repr

end Sys2Proof
end

