-- ==== Sys2Proof/Machine/Forms.lean ====
section
/-!
DEFINITION. Bit fields, byte order, and the operand forms that each instruction accepts (spec 02 R50 to R62).

Instr.formOk is check 1 of the decode order (02 R62) on decoded operands.

Every constructor has one arm. A reserved kind, code, count or non-zero unused field makes the check false, and the word
that would hold it raises 0x01. What depends on the machine (S-only numbers at K, declared counts) is not here.
-/

namespace Sys2Proof

/-- The little-endian bytes of a number, `n` of them, lowest address first (00 R11). -/
def leBytes : Nat → Nat → List Byte
  | 0, _ => []
  | n + 1, v => BitVec.ofNat 8 v :: leBytes n (v / 256)

/-- The number whose little-endian bytes are given, lowest address first (00 R11). -/
def ofLeBytes : List Byte → Nat
  | [] => 0
  | b :: bs => b.toNat + 256 * ofLeBytes bs

/-- Bits `hi` down to `lo` of a word, numbered as the manual numbers word bits, of IMM32, which starts at word bit 17. -/
def OpE.bits (o : OpE) (hi lo : Nat) : Nat := (o.imm.toNat >>> (lo - 17)) % 2 ^ (hi + 1 - lo)

/-- The kinds of a source field (02 R51). -/
inductive SrcKind where
  | v | s | l | c | i
  deriving DecidableEq, Repr

def Src.kind : Src → SrcKind
  | .vreg _ => .v
  | .sreg _ => .s
  | .latch _ => .l
  | .const _ => .c
  | .imm _ => .i

def Src.isOf (x : Src) (ks : List SrcKind) : Bool := ks.contains x.kind

/-- The zero encoding, which an unused field holds (02 R53). -/
def Src.isZero (x : Src) : Bool := x == .vreg 0
def Dst.isZero (d : Dst) : Bool := d == .vec false 0

def Dst.isVec : Dst → Bool | .vec _ _ => true | _ => false
def Dst.isSca : Dst → Bool | .sca _ _ => true | _ => false
def Dst.isPred : Dst → Bool | .pred _ _ => true | _ => false
/-- A vector destination that may hold a pair: an even register (01 R29). -/
def Dst.isEvenVec : Dst → Bool | .vec _ n => n.toNat % 2 == 0 | _ => false
/-- Store data (02 R55): no NW bit, vector or scalar. -/
def Dst.isData : Dst → Bool | .vec nw _ => !nw | .sca nw _ => !nw | _ => false

def Ty.isInt : Ty → Bool | .i8 | .i16 | .i32 | .i64 | .n8 | .n16 | .n32 | .n64 => true | _ => false
def Ty.is64 : Ty → Bool | .i64 | .n64 => true | _ => false
/-- Integer types whose values are signed. -/
def Ty.signed : Ty → Bool | .i8 | .i16 | .i32 | .i64 => true | _ => false
/-- The 8-bit and block formats, which take no constant and no imm8 (02 R52). -/
def Ty.isNarrow : Ty → Bool | .e4m3 | .e5m2 | .bx8 | .bx4 => true | _ => false

/-- The kind accepted by a field, and the constant rule of 02 R52 for an operand of type `t`. -/
def Src.okFor (x : Src) (ks : List SrcKind) (t : Ty) : Bool :=
  x.isOf ks && (match x with
    | .const e => !t.isNarrow && !(t.isInt && e == 4)
    | .imm _ => !t.isNarrow
    | .vreg n => !t.is64 || n.toNat % 2 == 0
    | _ => true)

def kAll : List SrcKind := [.v, .s, .l, .c, .i]
def kSlc : List SrcKind := [.s, .l, .c]
def kSlci : List SrcKind := [.s, .l, .c, .i]
def kSl : List SrcKind := [.s, .l]
def kSli : List SrcKind := [.s, .l, .i]
def kVsl : List SrcKind := [.v, .s, .l]

def t4i : List Ty := [.i64, .i32, .n32, .n64]
def tN : List Ty := [.n32, .n64]
def tFp : List Ty := [.f32, .f16x2, .bf16x2]

/-- Every hint and guard is legal but the reserved guard (01 R35). -/
def Ctl.wf (c : Ctl) : Bool := c.guard != 31

/-- No modifier is set on a source whose flag is false. -/
def OpA.mods (o : OpA) (a b c : Bool) : Bool :=
  (a || !(o.aba || o.nga)) && (b || !(o.abb || o.ngb)) && (c || !(o.abc || o.ngc))

def OpA.plain (o : OpA) : Bool := o.rm == .rne && !o.sat && o.mods false false false

/-- OP 0x00 (04 R96, R97, R100): types, a scalar destination, sources, unused fields zero. -/
def OpA.scalar (o : OpA) (ts : List Ty) (b c : Bool) : Bool :=
  ts.contains o.ty && o.plain && o.a.okFor kSlc o.ty &&
  (if b then o.b.okFor kSlci o.ty else o.b.isZero) && (if c then o.c.okFor kSlci o.ty else o.c.isZero)

def OpA.scal (o : OpA) (ts : List Ty) (b : Bool) : Bool := o.scalar ts b false && o.dst.isSca && o.aux == 0

/-- OP 0x08 (05 R119, R120, R123): the destination fits the width and the sources are of any kind. -/
def OpA.vdst (o : OpA) : Bool := if o.ty.is64 then o.dst.isEvenVec else o.dst.isVec

def OpA.vint (o : OpA) (ts : List Ty) (b c sat : Bool) : Bool :=
  ts.contains o.ty && o.vdst && o.rm == .rne && (sat || !o.sat) && o.mods false false false &&
  o.a.okFor kAll o.ty && (if b then o.b.okFor kAll o.ty else o.b.isZero) &&
  (if c then o.c.okFor kAll o.ty else o.c.isZero)

/-- A shift: the amount is a 32-bit operand (05 R123). -/
def OpA.vshift (o : OpA) (ts : List Ty) : Bool :=
  ts.contains o.ty && o.vdst && o.plain && o.a.okFor kAll o.ty && o.b.okFor kAll .n32 && o.c.isZero && o.aux == 0

/-- OP 0x10 (05 R119, R129). -/
def OpA.vfp (o : OpA) (ts : List Ty) (b c anyRm : Bool) : Bool :=
  ts.contains o.ty && o.dst.isVec && (anyRm || o.rm == .rne) && !o.sat && o.mods true b c &&
  o.a.okFor kAll o.ty && (if b then o.b.okFor kAll o.ty else o.b.isZero) &&
  (if c then o.c.okFor kAll o.ty else o.c.isZero)

/-- The type code in the bits that the conversions use (05 R137). -/
def tyOfCode : Nat → Option Ty
  | 0 => some .i8 | 1 => some .i16 | 2 => some .i32 | 3 => some .i64 | 4 => some .n8 | 5 => some .n16 | 6 => some .n32
  | 7 => some .n64 | 8 => some .f32 | 9 => some .f16x2 | 10 => some .bf16x2 | 11 => some .e4m3 | 12 => some .e5m2
  | 13 => some .bx8 | 14 => some .bx4 | _ => none

/-- The source type of a conversion, in AUX bits 34:31. -/
def OpA.srcTy (o : OpA) : Option Ty := tyOfCode (o.aux.toNat / 16)

def intsOf : List Ty := [.i8, .i16, .i32, .n8, .n16, .n32, .i64, .n64]

/-- CVT's pairs of types (05 R138). AUX bit 27 selects an element only where one element is converted; a packed pair of types
converts both, so the bit must be zero there (DEDUCED, log 16). -/
def OpA.cvt (o : OpA) : Bool :=
  match o.srcTy with
  | none => false
  | some st =>
    o.vdst && o.b.isZero && o.c.isZero && o.a.okFor kAll st && o.mods (st == .f32 || st == .f16x2 || st == .bf16x2) false false &&
    (o.aux.toNat % 16 == 0 || (o.aux.toNat % 16 == 1 && o.ty == .f32 && (st == .f16x2 || st == .bf16x2))) &&
    ((o.ty == .f32 && t4i.contains st && !o.sat) ||
     (t4i.contains o.ty && st == .f32 && !o.sat) ||
     (o.ty == .f32 && (st == .f16x2 || st == .bf16x2) && o.rm == .rne && !o.sat) ||
     (o.ty == .f16x2 && st == .bf16x2 && !o.sat) || (o.ty == .bf16x2 && st == .f16x2 && !o.sat) ||
     (intsOf.contains o.ty && t4i.contains st && o.rm == .rne))

def OpA.cvtbx (o : OpA) : Bool :=
  o.dst.isVec && (o.ty == .bx8 || o.ty == .bx4) && o.srcTy == some .f32 && o.a.okFor kAll .f32 && o.b.isZero && o.c.isZero &&
  !o.sat && o.mods true false false

/-- CVTXF (05 R137, R141): a block element is a floating-point source, so modifiers act on it (02 R54; log 16). -/
def OpA.cvtxf (o : OpA) : Bool :=
  o.dst.isVec && o.ty == .f32 && (o.srcTy == some .bx8 || o.srcTy == some .bx4) && o.a.okFor kAll .bx8 && o.b.isZero &&
  o.c.isZero && o.rm == .rne && !o.sat && o.mods true false false && o.aux.toNat % 16 == 0

/-- CVTF8 (05 R140): an FP8 source is floating-point (03 R74), so modifiers act on it. With an FP8 destination c is read as packed FP8 bytes,
which take neither a constant nor a modifier (DEDUCED, log 15). -/
def OpA.cvtf8 (o : OpA) : Bool :=
  o.dst.isVec &&
  (((o.ty == .e4m3 || o.ty == .e5m2) && o.srcTy == some .f32 && o.a.okFor kAll .f32 && o.b.okFor kAll .f32 &&
      o.c.okFor kAll .e4m3 && o.mods true true false && o.aux.toNat % 16 < 2) ||
   (o.ty == .f32 && (o.srcTy == some .e4m3 || o.srcTy == some .e5m2) && o.a.okFor kAll .e4m3 && o.b.isZero && o.c.isZero &&
      o.rm == .rne && !o.sat && o.mods true false false && o.aux.toNat % 16 < 4))

def OpA.cvtpk (o : OpA) : Bool :=
  o.dst.isVec && (o.ty == .f16x2 || o.ty == .bf16x2) && o.srcTy == some .f32 && o.a.okFor kAll .f32 && o.b.okFor kAll .f32 &&
  o.c.isZero && !o.sat && o.mods true true false && o.aux.toNat % 16 == 0

/-- Reduction and scan operations and their types (06 R146). -/
def redTys : Nat → List Ty
  | 0 | 2 | 3 | 4 | 5 | 6 => [.i32, .n32, .i64, .n64]
  | 1 | 7 | 8 => [.f32]
  | _ => []

def OpA.red (o : OpA) (op : Nat) : Bool :=
  (redTys op).contains o.ty && !o.sat && o.mods false false false && (if op == 1 then o.rm != .rsr else o.rm == .rne) &&
  o.a.isOf [.v] && o.a.okFor kAll o.ty

/-- The relation codes of the full format (02 R56). -/
def relInt (n : Nat) : Bool := n < 6
def relFp (n : Nat) : Bool := n < 6 || n == 10 || n == 11

/-- An index field: a register, or none (02 R55, 07 R160). -/
def OpM.idxOk (o : OpM) (ks : List SrcKind) : Bool := (o.idx == .vreg 0) && (o.scl == 0) || o.idx.isOf ks
def OpM.noIdx (o : OpM) : Bool := o.idx == .vreg 0 && o.scl == 0

def Src.isBase64 (x : Src) : Bool := match x with | .vreg n => n.toNat % 2 == 0 | .sreg _ | .latch _ => true | _ => false

/-- The orderings a form accepts (07 R165): a plain access has scope 0. -/
def ordOk (ord sc : Nat) (ords scs : List Nat) : Bool := (ord == 0 && sc == 0) || (ords.contains ord && scs.contains sc)

def ldOrd (ord sc : Nat) : Bool := ordOk ord sc [1] [0, 1, 2, 4, 5] || (ord == 4 && sc == 3)

def wLoad (w : Nat) : Bool := w < 6
def wStore (w : Nat) : Bool := w < 4
def loadDst (w : Nat) (d : Dst) : Bool := if w == 3 then d.isEvenVec else d.isVec
def storeDst (w : Nat) (d : Dst) : Bool := d.isData && (!(w == 3) || d.isEvenVec || d.isSca)

/-- Layout T forms (07 R174). `cUsed` says whether SRC is an operand. -/
def OpT.atm (o : OpT) (ts : List Ty) (cUsed : Bool) : Bool :=
  let ok := fun x : Src => x.okFor kAll o.ty && (match x with | .const e => e != 4 && !(o.ty == .f32 && e.toNat < 6) | _ => true)
  ts.contains o.ty && o.base.isBase64 && ok o.b && (if cUsed then ok o.c else o.c.isZero) && o.sc.toNat < 6

/-- A returning atomic. 02 R55 lets an atomic take every ORD with any SC; 07 R165 adds that .rp requires SC = .p, and the form
follows R165 (DEDUCED, log 16). -/
def OpT.ret (o : OpT) (ts : List Ty) (cUsed : Bool) : Bool :=
  o.atm ts cUsed && o.ord.toNat < 6 && (!(o.ord == 4 || o.ord == 5) || o.sc == 3) &&
  (if o.ty.is64 then o.dst.isEvenVec else o.dst.isVec)

def OpT.redu (o : OpT) (ts : List Ty) : Bool := o.atm ts false && (o.ord == 0 || o.ord == 2) && o.dst.isZero

def OpE.none3 (o : OpE) : Bool := o.dst.isZero && o.a.isZero && o.b.isZero

/-- An imm8 of a matrix operand must not be negative (11 R249). -/
def Src.nonNeg : Src → Bool | .imm v => !v.msb | _ => true

/-- A source held in the low ten bits of IMM32 (10 R232, 11 R249). -/
def srcOfBits (n : Nat) : Option Src :=
  let lo := n % 256
  match n / 256 with
  | 0 => some (.vreg (BitVec.ofNat 8 lo))
  | 1 => if lo < 64 then some (.sreg (BitVec.ofNat 6 lo)) else none
  | 2 => if lo < 4 then some (.latch (BitVec.ofNat 2 lo)) else if 32 ≤ lo && lo < 48 then some (.const (BitVec.ofNat 4 lo)) else none
  | 3 => some (.imm (BitVec.ofNat 8 lo))
  | _ => none

def OpE.src3 (o : OpE) : Option Src := srcOfBits (o.bits 26 17)
def OpE.src3Is (o : OpE) (ks : List SrcKind) : Bool :=
  match o.src3 with | some x => x.isOf ks && x.nonNeg | none => false

def OpE.nmo (o : OpE) (fop : Bool) : Bool :=
  o.dst.isZero && o.a.isOf kSl && o.b.isOf kSli && o.bits 37 17 == 0 &&
  ((o.bits 44 42 == 0 && o.bits 41 39 == 0) || (o.bits 44 42 == 3 && o.bits 41 39 < 6)) &&
  (if fop then o.bits 48 45 < 7 else o.bits 48 45 == 0 && o.bits 38 38 == 0)

def OpE.block (o : OpE) : Bool := o.dst.isZero && o.a.isOf kSl && o.b.isZero && o.bits 45 17 == 0

def OpE.barrier (o : OpE) : Bool :=
  o.none3 && o.bits 41 17 == 0 &&
  (match o.bits 44 42 with | 2 | 3 => true | 4 => o.bits 48 45 < 8 | 5 => o.bits 48 45 < 4 | _ => false)

def OpE.target (o : OpE) : Bool := o.a.isBase64 && o.b.isZero && o.imm.toNat % 4 == 0
def OpE.link (o : OpE) : Bool := o.dst.isEvenVec || o.dst.isSca
def OpE.count (o : OpE) : Bool := 1 ≤ o.bits 48 40 && o.bits 48 40 ≤ 256 && o.bits 39 17 == 0
def OpE.sys (o : OpE) : Bool := o.none3 && o.imm.toNat < 256

/-- The special registers outside the S-only range, with their width in bits (01 R38). -/
def srWidth : Nat → Option Nat
  | 0x000 | 0x001 | 0x002 | 0x003 | 0x004 | 0x005 | 0x006 | 0x007 | 0x008 | 0x009 => some 32
  | 0x010 | 0x011 | 0x012 | 0x013 | 0x014 | 0x015 | 0x016 | 0x017 => some 32
  | 0x018 | 0x019 | 0x01A | 0x01B | 0x01C | 0x01D | 0x01E | 0x01F => some 32
  | 0x020 | 0x021 | 0x022 => some 64
  | 0x023 | 0x030 | 0x032 | 0x034 => some 32
  | 0x031 | 0x033 => some 64
  | _ => none

/-- The S-only registers of 12 R274, with their width. -/
def srWidthS : Nat → Option Nat
  | 0x100 | 0x101 | 0x102 | 0x103 | 0x104 | 0x105 | 0x107 | 0x108 | 0x110 | 0x111 => some 64
  | 0x106 | 0x109 => some 32
  | _ => none

def srSonly (n : Nat) : Bool := 0x100 ≤ n && n < 0x200

def OpE.srd (o : OpE) : Bool :=
  o.a.isZero && o.b.isZero && o.imm.toNat < 4096 && (o.dst.isSca || o.dst.isVec) &&
  (srSonly o.imm.toNat || (match srWidth o.imm.toNat with | some w => w == 32 || o.dst.isSca || o.dst.isEvenVec | none => false))

def OpE.swr (o : OpE) : Bool :=
  o.dst.isZero && o.b.isZero && o.a.okFor kAll .n32 && o.imm.toNat < 4096 &&
  (srSonly o.imm.toNat || o.imm.toNat == 0x030 || o.imm.toNat == 0x032 || (o.imm.toNat == 0x031 && !o.a.isOf [.v]))

/-- The pair format's constraints (02 R58). -/
def PairWord.wf (p : PairWord) : Bool :=
  let sb := p.sb.toNat
  p.guard != 31 &&
  (match p.sop.toNat with
    | 0 | 1 | 2 | 3 | 4 | 5 | 6 | 7 | 8 | 9 => p.i || sb / 64 == 0
    | 10 => !p.i && sb / 64 % 64 == 0
    | 11 => !p.i && p.sd.toNat < 16 && sb / 64 % 64 == 0 && sb / 4096 < 10
    | 12 => !p.i && sb / 64 % 128 == 0
    | 13 => p.i && p.sa == 0
    | 14 => p.i && p.sa == 0 && sb < 1024 && (srSonly sb || (srWidth sb).isSome)
    | 15 => !p.i && p.sd.toNat < 16 && p.sa.toNat < 16 && sb / 16 % 256 == 0
    | _ => false) &&
  (match p.vop.toNat with
    | 0 | 1 | 2 | 4 | 5 | 6 | 7 | 8 | 9 | 10 | 14 | 15 | 16 | 18 | 19 => p.vc == 0
    | 3 | 17 => true
    | 11 => p.vc.toNat < 16
    | 12 => p.vd.toNat < 16 && p.vc.toNat < 10
    | 13 => p.vb == 0 && p.vc == 0
    | 20 => p.vd.toNat < 16 && (p.vc.toNat < 6 || p.vc.toNat == 10 || p.vc.toNat == 11)
    | 21 => p.vb == 0 && p.vc.toNat < 2
    | 22 | 23 => true
    | _ => false)

/-- A predicate-number field (06 R146, 04 R114). -/
def Src.isPredNo : Src → Bool | .vreg n => n.toNat < 16 | _ => false

/-- The forms that some word encodes; every event is one. MCNT of a 64-bit type admits an odd vector register, since its destination
is a zero-extended byte (06 R146; DEDUCED, log 16). -/
def Instr.formOk : Instr → Bool
  | .sadd c o => c.wf && (o.scal t4i true)
  | .ssub c o => c.wf && (o.scal t4i true)
  | .smul c o => c.wf && (o.scal t4i true)
  | .smulh c o => c.wf && (o.scal t4i true)
  | .sdiv c o => c.wf && (o.scal t4i true)
  | .srem c o => c.wf && (o.scal t4i true)
  | .sand c o => c.wf && (o.scal t4i true)
  | .sor c o => c.wf && (o.scal t4i true)
  | .sxor c o => c.wf && (o.scal t4i true)
  | .sandn c o => c.wf && (o.scal t4i true)
  | .sshl c o => c.wf && (o.scal t4i true)
  | .sshr c o => c.wf && (o.scal tN true)
  | .ssar c o => c.wf && (o.scal [.i32, .i64] true)
  | .srot c o => c.wf && (o.scal tN true)
  | .smin c o => c.wf && (o.scal t4i true)
  | .smax c o => c.wf && (o.scal t4i true)
  | .sclz c o => c.wf && (o.scal tN false)
  | .spopc c o => c.wf && (o.scal tN false)
  | .sbrev c o => c.wf && (o.scal tN false)
  | .sext c o => c.wf && (o.scalar [.i64, .n64] true false && o.dst.isSca && o.aux.toNat < 64)
  | .sins c o => c.wf && (o.scalar [.n64] true true && o.dst.isSca && o.aux.toNat < 64)
  | .ssel c o => c.wf && (o.scalar t4i true false && o.dst.isSca && o.aux.toNat < 16)
  | .scmp c o => c.wf && (o.scalar t4i true false && o.dst.isPred && relInt o.aux.toNat)
  | .smovi c o => c.wf && (o.dst.isSca && o.a.isZero && o.b.isZero)
  | .smovh c o => c.wf && (o.dst.isSca && o.a.isOf kSl && o.b.isZero)
  | .slea c o => c.wf && (o.dst.isSca && o.base.isOf kSl && o.idxOk kSl && o.ord == 0 && o.sc == 0)
  | .srd c o => c.wf && (o.srd)
  | .swr c o => c.wf && (o.swr)
  | .plop c o => c.wf && (o.dst.isPred && o.a.isPredNo && o.b.isPredNo && o.c.isZero && o.ty == .i8 && o.plain && o.aux.toNat < 16)
  | .pairWord p => p.wf
  | .vadd c o => c.wf && (o.vint [.i32, .n32, .i64, .n64] true false true && o.aux == 0)
  | .vsub c o => c.wf && (o.vint [.i32, .n32, .i64, .n64] true false true && o.aux == 0)
  | .vmul c o => c.wf && (o.vint [.i32, .n32] true false false && o.aux == 0)
  | .vmulh c o => c.wf && (o.vint [.i32, .n32] true false false && o.aux == 0)
  | .vmad c o => c.wf && (o.vint [.i32, .n32] true true false && o.aux == 0)
  | .vand c o => c.wf && (o.vint [.i32, .n32, .i64, .n64] true false false && o.aux == 0)
  | .vor c o => c.wf && (o.vint [.i32, .n32, .i64, .n64] true false false && o.aux == 0)
  | .vxor c o => c.wf && (o.vint [.i32, .n32, .i64, .n64] true false false && o.aux == 0)
  | .vlop3 c o => c.wf && (o.vint [.n32] true true false)
  | .vshl c o => c.wf && (o.vshift t4i)
  | .vshr c o => c.wf && (o.vshift tN)
  | .vsar c o => c.wf && (o.vshift [.i32, .i64])
  | .vmin c o => c.wf && (o.vint [.i32, .n32, .i64, .n64] true false false && o.aux == 0)
  | .vmax c o => c.wf && (o.vint [.i32, .n32, .i64, .n64] true false false && o.aux == 0)
  | .vabs c o => c.wf && (o.vint [.i32] false false false && o.aux == 0)
  | .vclz c o => c.wf && (o.vint [.n32] false false false && o.aux == 0)
  | .vpopc c o => c.wf && (o.vint [.n32] false false false && o.aux == 0)
  | .vext c o => c.wf && (o.vint [.n32, .i32] true false false && o.aux.toNat < 32)
  | .vins c o => c.wf && (o.vint [.n32] true true false && o.aux.toNat < 32)
  | .vsel c o => c.wf && (o.vint t4i true false false && o.aux.toNat < 16)
  | .vcmp c o => c.wf && (t4i.contains o.ty && o.dst.isPred && o.plain && o.a.okFor kAll o.ty && o.b.okFor kAll o.ty && o.c.isZero && relInt o.aux.toNat)
  | .vmov c o => c.wf && (o.vint t4i false false false && o.aux == 0)
  | .vmovi c o => c.wf && (o.dst.isVec && o.a.isZero && o.b.isZero)
  | .vdot4 c o => c.wf && ([Ty.i8, .n8].contains o.ty && o.vdst && o.rm == .rne && o.mods false false false && o.a.okFor kAll o.ty && o.b.okFor kAll o.ty && o.c.okFor kAll o.ty && o.aux == 0)
  | .fadd c o => c.wf && (o.vfp tFp true false true && o.aux == 0)
  | .fsub c o => c.wf && (o.vfp tFp true false true && o.aux == 0)
  | .fmul c o => c.wf && (o.vfp tFp true false true && o.aux == 0)
  | .ffma c o => c.wf && (o.vfp tFp true true true && o.aux == 0)
  | .fmin c o => c.wf && (o.vfp tFp true false false && o.aux == 0)
  | .fmax c o => c.wf && (o.vfp tFp true false false && o.aux == 0)
  | .fcmp c o => c.wf && (o.ty == .f32 && o.dst.isPred && o.rm == .rne && !o.sat && o.mods true true false && o.a.okFor kAll .f32 && o.b.okFor kAll .f32 && o.c.isZero && relFp o.aux.toNat)
  | .fclass c o => c.wf && (o.vfp tFp false false false && o.aux == 0)
  | .fdiv c o => c.wf && (o.vfp [.f32] true false true && o.aux == 0)
  | .fsqrt c o => c.wf && (o.vfp [.f32] false false true && o.aux == 0)
  | .frcp c o => c.wf && (o.vfp [.f32] false false false && o.aux == 0)
  | .frsq c o => c.wf && (o.vfp [.f32] false false false && o.aux == 0)
  | .fexp2 c o => c.wf && (o.vfp [.f32] false false false && o.aux == 0)
  | .flog2 c o => c.wf && (o.vfp [.f32] false false false && o.aux == 0)
  | .fsin c o => c.wf && (o.vfp [.f32] false false false && o.aux == 0)
  | .fcos c o => c.wf && (o.vfp [.f32] false false false && o.aux == 0)
  | .ftanh c o => c.wf && (o.vfp [.f32] false false false && o.aux == 0)
  | .fround c o => c.wf && (o.vfp tFp false false true && o.aux == 0)
  | .fscale c o => c.wf && (o.ty == .f32 && o.dst.isVec && !o.sat && o.mods true false false && o.a.okFor kAll .f32 && o.b.okFor kAll .i32 && o.c.isZero && o.aux == 0)
  | .fdot2 c o => c.wf && ([Ty.f16x2, .bf16x2].contains o.ty && o.dst.isVec && !o.sat && o.a.okFor kAll o.ty && o.b.okFor kAll o.ty && o.c.okFor kAll .f32 && o.aux == 0)
  | .cvt c o => c.wf && (o.cvt)
  | .cvtbx c o => c.wf && (o.cvtbx)
  | .cvtxf c o => c.wf && (o.cvtxf)
  | .cvtf8 c o => c.wf && (o.cvtf8)
  | .cvtpk c o => c.wf && (o.cvtpk)
  | .rnd c o => c.wf && (o.ty == .n32 && o.dst.isVec && o.plain && o.a.isOf kSl && o.b.okFor kAll .n32 && o.c.isZero && o.aux == 0)
  | .shfl c o => c.wf && (tN.contains o.ty && o.vdst && o.plain && o.a.isOf [.v] && o.a.okFor kAll o.ty && o.b.okFor kAll .n32 && o.c.isZero && o.aux.toNat / 4 % 8 < 7 && o.aux.toNat < 32)
  | .bcast c o => c.wf && (tN.contains o.ty && (o.vdst || o.dst.isSca) && o.plain && o.a.isOf [.v] && o.a.okFor kAll o.ty && o.b.okFor kSlci .n32 && o.c.isZero && o.aux == 0)
  | .ballot c o => c.wf && (o.dst.isSca && o.a.isPredNo && o.b.isZero && o.c.isZero && o.ty == .i8 && o.plain && o.aux == 0)
  | .vote c o => c.wf && (o.dst.isPred && o.a.isPredNo && o.b.isZero && o.c.isZero && o.ty == .i8 && o.plain && o.aux.toNat < 4)
  | .match c o => c.wf && (tN.contains o.ty && o.dst.isEvenVec && o.plain && o.a.isOf [.v] && o.a.okFor kAll o.ty && o.b.isZero && o.c.isZero && o.aux == 0)
  | .gred c o => c.wf && (o.red (o.aux.toNat % 16) && o.aux.toNat < 16 && (o.vdst || o.dst.isSca) && o.b.isZero && o.c.isZero)
  | .gscan c o => c.wf && (o.red (o.aux.toNat % 16) && o.aux.toNat < 32 && o.vdst && o.b.isZero && o.c.isZero)
  | .gredm c o => c.wf && (o.aux.toNat < 2 && o.red (o.aux.toNat % 16) && !o.ty.is64 && o.dst.isEvenVec && o.b.okFor kAll .n32 && o.c.isZero)
  | .mscl c o => c.wf && (o.ty == .f32 && o.dst.isVec && o.rm != .rsr && !o.sat && o.mods true false false && o.a.okFor kAll .f32 && o.b.okFor kAll .n32 && o.c.okFor kAll .n32 && o.aux.toNat < 16)
  | .mcnt c o => c.wf && ([Ty.n8, .n16, .n32, .n64].contains o.ty && o.dst.isVec && o.plain && o.a.isOf kSl && o.b.okFor kAll .n32 && o.c.isZero && o.aux == 0)
  | .ld c w o => c.wf && (wLoad w.toNat && loadDst w.toNat o.dst && o.base.isBase64 && o.idxOk kVsl && ldOrd o.ord.toNat o.sc.toNat)
  | .st c w o => c.wf && (wStore w.toNat && storeDst w.toNat o.dst && o.base.isBase64 && o.idxOk kVsl && ordOk o.ord.toNat o.sc.toNat [2] [0, 1, 2, 3, 4, 5])
  | .sld c w o => c.wf && (w.toNat < 7 && o.dst.isSca && o.base.isOf kSl && o.idxOk kSl && ldOrd o.ord.toNat o.sc.toNat)
  | .sst c w o => c.wf && (wStore w.toNat && o.dst.isData && o.dst.isSca && o.base.isOf kSl && o.idxOk kSl && ordOk o.ord.toNat o.sc.toNat [2] [0, 1, 2, 3, 4, 5])
  | .lds c w o => c.wf && (wLoad w.toNat && loadDst w.toNat o.dst && o.base.isOf kVsl && o.idxOk kVsl && ordOk o.ord.toNat o.sc.toNat [1] [0, 1])
  | .sts c w o => c.wf && (wStore w.toNat && storeDst w.toNat o.dst && o.base.isOf kVsl && o.idxOk kVsl && ordOk o.ord.toNat o.sc.toNat [2] [0, 1])
  | .ldt c w o => c.wf && (wLoad w.toNat && loadDst w.toNat o.dst && o.base.isOf kVsl && o.idxOk kVsl && ordOk o.ord.toNat o.sc.toNat [1] [0, 1, 2, 3])
  | .stt c w o => c.wf && (wStore w.toNat && storeDst w.toNat o.dst && o.base.isOf kVsl && o.idxOk kVsl && ordOk o.ord.toNat o.sc.toNat [2] [0, 1, 2, 3])
  | .stn c _ e o => c.wf && (o.dst.isData && (if e == 0 then o.dst.isVec else o.dst.isEvenVec) && o.base.isOf kVsl && o.idxOk kVsl && ordOk o.ord.toNat o.sc.toNat [2] [2, 3])
  | .ldc c w o => c.wf && (o.ord == 0 && o.sc == 0 && ((wLoad w.toNat && loadDst w.toNat o.dst && o.base.isOf kVsl && o.idxOk kVsl) || (w.toNat < 7 && o.dst.isSca && o.base.isOf kSl && o.idxOk kSl)))
  | .prf c o => c.wf && (o.dst.isZero && o.a.isBase64 && ((o.b.isZero && o.bits 48 47 == 0) || o.b.isOf kVsl) && o.bits 46 45 < 2 && o.bits 44 41 == 0)
  | .rgn c o => c.wf && (o.dst.isZero && o.bits 37 17 == 0 && o.bits 48 44 + 1 + o.bits 43 38 ≤ 32 &&
      (match o.a with | .vreg n => n.toNat + o.bits 48 44 ≤ 255 | _ => false) &&
      (match o.b with | .vreg n => (if o.bits 43 38 == 0 then n == 0 else n.toNat + o.bits 43 38 ≤ 256) | _ => false))
  | .maps c o => c.wf && (o.dst.isPred && o.a.isOf kSl && o.b.isOf kSl && o.bits 44 17 == 0)
  | .mapsUn c o => c.wf && (o.dst.isPred && o.a.isZero && o.b.isZero && o.bits 44 44 == 1 && o.bits 43 17 == 0)
  | .atmAdd c o => c.wf && (o.ret t4i false)
  | .atmFadd c o => c.wf && (o.ret [.f32] false)
  | .atmMin c o => c.wf && (o.ret t4i false)
  | .atmMax c o => c.wf && (o.ret t4i false)
  | .atmAnd c o => c.wf && (o.ret tN false)
  | .atmOr c o => c.wf && (o.ret tN false)
  | .atmXor c o => c.wf && (o.ret tN false)
  | .atmXch c o => c.wf && (o.ret tN false)
  | .acas c o => c.wf && (o.ret tN true)
  | .aaddt c o => c.wf && (o.ret t4i true)
  | .redAdd c o => c.wf && (o.redu t4i)
  | .redFadd c o => c.wf && (o.redu [.f32])
  | .redMin c o => c.wf && (o.redu t4i)
  | .redMax c o => c.wf && (o.redu t4i)
  | .redAnd c o => c.wf && (o.redu tN)
  | .redOr c o => c.wf && (o.redu tN)
  | .redXor c o => c.wf && (o.redu tN)
  | .fenceAcq c o => c.wf && (o.dst.isZero && o.base.isZero && o.noIdx && o.ord == 0 && o.off == 0 && o.sc.toNat < 6)
  | .fenceRel c o => c.wf && (o.dst.isZero && o.base.isZero && o.noIdx && o.ord == 0 && o.off == 0 && o.sc.toNat < 6)
  | .fenceFull c o => c.wf && (o.dst.isZero && o.base.isZero && o.noIdx && o.ord == 0 && o.off == 0 && o.sc.toNat < 6)
  | .waita c o => c.wf && (o.dst.isPred && o.base.isOf kSl && o.b.isZero && t4i.contains o.ty && o.c.okFor kSlci o.ty && o.ord == 0 && o.sc.toNat < 6)
  | .waitc c o => c.wf && (o.none3 && o.bits 40 17 == 0)
  | .nmoCas2 c o => c.wf && (o.nmo false)
  | .nmoCas4 c o => c.wf && (o.nmo false)
  | .nmoFop c o => c.wf && (o.nmo true)
  | .nmoEnq c o => c.wf && (o.nmo false)
  | .nmoDeq c o => c.wf && (o.nmo false)
  | .nmoChase c o => c.wf && (o.nmo false)
  | .cpy c o => c.wf && (o.dst.isZero && o.a.isOf kSl && o.b.isOf kSl && o.bits 45 27 == 0 && o.src3Is kSli)
  | .cpyLossy c o => c.wf && (o.block)
  | .cpy2d c o => c.wf && (o.block)
  | .cpy2dLossy c o => c.wf && (o.block)
  | .cpycb c o => c.wf && (o.dst.isZero && o.a.isOf kSl && o.b.isOf kSli && o.bits 45 17 == 0)
  | .gath c o => c.wf && (o.block)
  | .coll c o => c.wf && (o.block)
  | .collLossy c o => c.wf && (o.block)
  | .cbcfg c o => c.wf && (o.dst.isPred && o.a.isOf kSl && o.b.isOf kSl && o.bits 44 17 == 0)
  | .cbwaitFull c o => c.wf && (o.dst.isSca && o.a.isZero && o.b.isZero && o.bits 44 17 == 0)
  | .cbwaitFree c o => c.wf && (o.dst.isSca && o.a.isZero && o.b.isZero && o.bits 44 44 == 1 && o.bits 43 17 == 0)
  | .cbrel c o => c.wf && (o.none3 && o.bits 44 17 == 0)
  | .cbpost c o => c.wf && (o.dst.isZero && o.a.isOf kSl && o.b.isZero && o.bits 44 17 == 0)
  | .mma c _ o => c.wf && (o.dst.isZero && o.a.isOf kSli && o.a.nonNeg && o.b.isZero && o.imm == 0)
  | .mmas c _ o => c.wf && (o.dst.isZero && o.a.isOf kSli && o.a.nonNeg && o.b.isZero && o.imm == 0)
  | .accz c o => c.wf && (o.none3 && o.bits 45 17 == 0)
  | .accld c o => c.wf && (o.dst.isZero && o.a.isOf kSl && o.b.isOf kSli && o.b.nonNeg && o.bits 45 17 == 0)
  | .accst c o => c.wf && (o.dst.isZero && o.a.isOf kSl && o.b.isOf kSli && o.b.nonNeg && o.bits 33 27 == 0 && o.src3Is kSli &&
      (match o.bits 45 42 with
        | 0x8 | 0x2 => o.bits 41 39 == 0 && o.bits 38 38 == 0 && o.bits 37 34 == 0
        | 0x9 | 0xA => o.bits 41 39 < 5 && o.bits 38 38 == 0 && o.bits 37 34 == 0
        | 0xB | 0xC => o.bits 41 39 < 5 && o.bits 37 34 == 0
        | 0xD | 0xE => o.bits 41 39 < 5 && o.bits 38 38 == 0
        | _ => false))
  | .mqry c o => c.wf && (o.dst.isSca && o.a.isZero && o.b.isZero && o.bits 48 45 < 4 && (o.bits 48 45 == 2 || o.bits 44 42 == 0) && o.bits 41 17 == 0)
  | .bra c o => c.wf && (o.none3 && o.imm.toNat % 4 == 0)
  | .bri c o => c.wf && (o.dst.isZero && o.target)
  | .call c o => c.wf && (o.link && o.a.isZero && o.b.isZero && o.imm.toNat % 4 == 0)
  | .calli c o => c.wf && (o.link && o.target)
  | .ret c o => c.wf && (o.dst.isZero && o.target && o.imm == 0)
  | .exit c o => c.wf && (o.none3 && o.imm == 0)
  | .yield c o => c.wf && (o.none3 && o.imm == 0)
  | .reconv c o => c.wf && (o.none3 && o.imm.toNat % 4 == 0)
  | .sleep c o => c.wf && (o.dst.isZero && (o.a.isZero || o.a.isOf kSl) && o.b.isZero)
  | .bar c o => c.wf && (o.barrier)
  | .bara c o => c.wf && (o.barrier)
  | .barw c o => c.wf && (o.barrier)
  | .elect c o => c.wf && (o.dst.isPred && o.a.isZero && o.b.isZero && o.imm == 0)
  | .enq c o => c.wf && (o.dst.isSca && o.a.isOf kSl && o.b.isOf kSli && o.bits 42 17 == 0)
  | .grow c o => c.wf && (o.dst.isPred && o.a.isZero && o.b.isZero && o.count)
  | .shrnk c o => c.wf && (o.none3 && o.count)
  | .arb c o => c.wf && (o.none3 && o.imm.toNat / 2 % 2 == 0)
  | .are c o => c.wf && (o.none3 && o.imm == 0)
  | .arx c o => c.wf && (o.sys)
  | .arst c o => c.wf && (o.dst.isSca && o.a.isZero && o.b.isZero && o.imm.toNat < 2)
  | .trap c o => c.wf && (o.sys)
  | .bkpt c o => c.wf && (o.sys)
  | .eret c o => c.wf && (o.none3 && o.imm == 0)
  | .stlbiVa c o => c.wf && (o.dst.isZero && o.a.isOf kSl && o.b.isZero && o.imm == 0)
  | .stlbiAll c o => c.wf && (o.none3 && o.imm == 1)
  | .sflushC c o => c.wf && (o.none3 && o.imm == 0)
  | .sflushT c o => c.wf && (o.none3 && o.imm == 1)
  | .sflushP c o => c.wf && (o.none3 && o.imm == 2)
  | .halt c o => c.wf && (o.sys)
  | .keyq c o => c.wf && (o.dst.isSca && o.a.isZero && o.b.isZero && o.imm == 0)
  | .stallExpiry _ => true
  | .resultWriteback _ _ => true
  | .engineCompletion _ _ => true
  | .watchdogExpiry _ _ => true
  | .sleepWake _ _ => true
  | .barrierPhaseComplete _ _ _ _ => true
  | .growGrant _ _ => true
  | .growDeadlockResolve _ _ => true
  | .shrnkRelease _ => true
  | .groupEnd _ => true
  | .enqAtDispatcher _ => true
  | .serTokenGrant _ => true
  | .serTokenTimeout _ => true
  | .pageWalkComplete _ _ _ _ _ => true
  | .faultRecordPost _ _ => true
  | .faultCiAdvance _ _ _ => true
  | .heldAccessRetry _ _ => true
  | .sideLogReplay _ _ => true
  | .classFlushComplete _ => true
  | .readMiss _ _ => true
  | .ownershipRequest _ _ _ => true
  | .invalidation _ _ => true
  | .invalidationAcksDone _ => true
  | .l2Eviction _ => true
  | .rdcEviction _ _ => true
  | .reductionArrival _ _ _ _ _ => true
  | .writeQueueDrain _ _ => true
  | .atomicAtHome _ _ _ _ _ _ => true
  | .nmoExecute _ => true
  | .sloeWindowEnd _ => true
  | .sramError _ _ => true
  | .powerGate _ _ => true
  | .powerWakeDone _ _ => true
  | .copyChunkDone _ _ => true
  | .lossyDeadline _ => true
  | .collCallStart _ => true
  | .collBlockClose _ _ _ _ => true
  | .cpycbSlotAcquire _ => true
  | .matrixKstep _ _ => true
  | .matrixEngineReset _ _ => true
  | .tailWrite _ _ _ _ => true
  | .qbaddWrite _ _ _ => true
  | .queueControlWrite _ _ _ _ => true
  | .queueDisable _ _ => true
  | .recordTake _ => true
  | .eventPoll _ _ => true
  | .taskStarvation _ _ => true
  | .launchStart _ _ => true
  | .windowRelocation _ _ => true
  | .launchCompletion _ => true
  | .fastPreemption _ _ => true
  | .slotFreeze _ _ _ => true
  | .ctxSave _ _ _ => true
  | .ctxRestore _ _ _ => true
  | .dirtyLogOn _ => true
  | .harvest _ _ => true
  | .migrationStop _ _ _ => true
  | .exportFrame _ _ => true
  | .importFrame _ _ => true
  | .dirtyLogOff _ => true
  | .flr _ => true
  | .tilePredictedFailure _ _ => true
  | .tileFailure _ => true
  | .s2cmdInvalidateIpa _ _ => true
  | .s2cmdInvalidateAll _ => true
  | .s2InvalidationDone _ => true
  | .stlbiDone _ => true
  | .s2cmdMigrateIn _ _ => true
  | .frameMoveDone _ => true
  | .accessCountThreshold _ _ => true
  | .nqciWrite _ _ => true
  | .frameTick => true
  | .pcarveTakeEffect _ _ => true
  | .partitionCreate _ _ => true
  | .partitionDestroy _ => true
  | .partitionGrow _ _ => true
  | .partitionShrink _ _ => true
  | .partitionCompact _ _ => true
  | .packetDelivery _ => true
  | .dropWindowClose _ => true
  | .rekeyRequest _ _ => true
  | .rekeyExecute _ => true
  | .portEnable _ => true
  | .portDisable _ => true
  | .portRetrain _ => true
  | .trainingDone _ _ => true
  | .trainingTimeout _ => true
  | .waferidWrite _ => true
  | .exportHandleWrite _ _ _ _ => true
  | .fabricRequest _ _ _ _ _ _ => true
  | .flitReceive _ _ _ _ => true
  | .replayRequest _ _ => true
  | .laserLoss _ _ => true
  | .lossOfLightDetect _ _ _ => true
  | .restripe _ _ _ => true
  | .fabricBarrierSymbol _ _ _ _ => true
  | .lockInterfaceRequest _ => true
  | .startInterfaceRequest _ => true
  | .stopInterfaceRequest _ => true
  | .keyExchange _ => true
  | .challenge _ _ => true
  | .getMeasurements _ _ _ => true
  | .ideKmKeyProg _ _ => true
  | .fwAck _ _ => true
  | .tvecWrite _ _ => true
  | .bindFabricImport _ _ => true
  | .stageFirmware _ _ => true
  | .activateFirmware => true
  | .discardStaged => true
  | .lifeCycleTransition _ _ => true
  | .establishMigrationKey _ _ => true
  | .retireMigrationKey _ => true
  | .usageRecordPeriodic => true
  | .ringCiWrite _ _ _ => true
  | .hostMemoryAccess _ _ _ => true
  | .moduleReset => true
  | .thermalTrip _ => true
  | .powerTripTimeout => true
  | .clockThrottle _ => true
  | .registerWrite _ _ _ _ => true
  | .pschedTakeEffect _ _ => true
  | .linkAcknowledgement _ _ => true
  | .migrationKeyMessage _ _ => true

end Sys2Proof
end

