-- ==== Sys2Proof/WellFormed.lean ====
section
/-!
DEFINITION. Which instructions are well formed: those whose operands check 1 of the decode order accepts (spec 02 R62).

The forms themselves stand in Machine/Forms.lean, instruction by instruction.
-/

namespace Sys2Proof

/-- Well-formed instructions: those that some word encodes, and every event of the machine. -/
def Instr.wf (i : Instr) : Bool := i.formOk

end Sys2Proof
end

