-- ==== Sys2Proof/Decode.lean ====
section
/-!
DEFINITION. The decoder and the encoder of instruction words (spec 02 R47 to R62).

decode is total on any bytes and refuses by name: a word it refuses raises 0x01 by check 1 of the decode order (02 R62).
A word is split into its fields once, least significant field first, by splitBits; the opcode map picks the constructor; then
the operand checks of WellFormed apply. encode joins the same fields. No word encodes an event of the machine.
-/

namespace Sys2Proof

/-- Why a word is no instruction. -/
inductive DecodeError where
  /-- fewer than the 12 bytes of a word -/
  | short
  /-- OP or FN that the opcode map does not assign (02 R59) -/
  | reservedOp
  /-- a destination or source kind or number that is reserved (02 R50, R51) -/
  | reservedKind
  /-- a type or rounding code that is reserved (02 R54) -/
  | reservedCode
  /-- a must-be-zero bit that is set, or RU outside MMA and MMAS (02 R49, R53) -/
  | mustBeZero
  /-- the reserved guard, or operands the instruction does not accept (02 R62 check 1) -/
  | illFormed
  deriving DecidableEq, Repr

/-- The fields of a word, least significant first, of the widths given. -/
def splitBits : List Nat → Nat → List Nat
  | [], _ => []
  | k :: ks, v => v % 2 ^ k :: splitBits ks (v / 2 ^ k)

/-- The word whose fields are given with their widths, least significant first. -/
def joinBits : List (Nat × Nat) → Nat
  | [] => 0
  | (k, v) :: fs => v + 2 ^ k * joinBits fs

/-- The raw fields of a full-format word (02 R49). -/
structure Raw where
  yh : Nat
  ssb : Nat
  wsb : Nat
  ru : Nat
  chn : Nat
  stall : Nat
  imm : Nat
  srb : Nat
  sra : Nat
  dst : Nat
  gd : Nat
  fn : Nat
  op : Nat
  deriving DecidableEq, Repr

def fullWidths : List Nat := [4, 1, 3, 3, 1, 1, 4, 32, 10, 10, 10, 5, 6, 6]

/-- The full format (02 R49); bits 3:0 must be zero. -/
def splitFull (w : Nat) : Except DecodeError Raw :=
  match splitBits fullWidths w with
  | [z, yh, ssb, wsb, ru, chn, stall, imm, srb, sra, dst, gd, fn, op] =>
    if z = 0 then .ok { yh, ssb, wsb, ru, chn, stall, imm, srb, sra, dst, gd, fn, op } else .error .mustBeZero
  | _ => .error .short

def Dst.code : Dst → Nat
  | .vec nw n => n.toNat + 256 * 0 + 512 * nw.toNat
  | .sca nw n => n.toNat + 256 + 512 * nw.toNat
  | .pred nw n => n.toNat + 64 + 256 + 512 * nw.toNat
  | .acc n => n.toNat + 128 + 256

/-- DST (02 R50). -/
def dstOfBits (n : Nat) : Option Dst :=
  let nw := decide (n / 512 = 1)
  if n / 256 % 2 = 0 then some (.vec nw (BitVec.ofNat 8 (n % 256)))
  else match n % 256 / 64 with
    | 0 => some (.sca nw (BitVec.ofNat 6 (n % 64)))
    | 1 => if n % 64 < 16 then some (.pred nw (BitVec.ofNat 4 (n % 16))) else none
    | 2 => if n % 64 < 8 && !nw then some (.acc (BitVec.ofNat 3 (n % 8))) else none
    | _ => none

def Src.code : Src → Nat
  | .vreg n => n.toNat
  | .sreg n => 256 + n.toNat
  | .latch n => 512 + n.toNat
  | .const c => 512 + 32 + c.toNat
  | .imm v => 768 + v.toNat

def Ty.code : Ty → Nat
  | .i8 => 0 | .i16 => 1 | .i32 => 2 | .i64 => 3 | .n8 => 4 | .n16 => 5 | .n32 => 6 | .n64 => 7
  | .f32 => 8 | .f16x2 => 9 | .bf16x2 => 10 | .e4m3 => 11 | .e5m2 => 12 | .bx8 => 13 | .bx4 => 14

def Rm.code : Rm → Nat
  | .rne => 0 | .rtz => 1 | .rup => 2 | .rdn => 3 | .rsr => 4

def rmOfCode : Nat → Option Rm
  | 0 => some .rne | 1 => some .rtz | 2 => some .rup | 3 => some .rdn | 4 => some .rsr | _ => none

def orErr {α : Type} (x : Option α) (e : DecodeError) : Except DecodeError α :=
  match x with | some a => .ok a | none => .error e

/-- Guard and hints of a raw word. -/
def Raw.ctl (r : Raw) : Ctl :=
  { guard := BitVec.ofNat 5 r.gd, stall := BitVec.ofNat 4 r.stall, chn := decide (r.chn = 1), wsb := BitVec.ofNat 3 r.wsb,
    ssb := BitVec.ofNat 3 r.ssb, yh := decide (r.yh = 1) }

/-- IMM32 layout A (02 R54). -/
def Raw.opA (r : Raw) : Except DecodeError OpA :=
  match splitBits [10, 8, 1, 1, 1, 1, 1, 1, 1, 3, 4] r.imm with
  | [src, aux, ngc, abc, ngb, abb, nga, aba, sat, rm, ty] => do
    let dst ← orErr (dstOfBits r.dst) .reservedKind
    let a ← orErr (srcOfBits r.sra) .reservedKind
    let b ← orErr (srcOfBits r.srb) .reservedKind
    let c ← orErr (srcOfBits src) .reservedKind
    let ty ← orErr (tyOfCode ty) .reservedCode
    let rm ← orErr (rmOfCode rm) .reservedCode
    .ok { dst, a, b, c, ty, rm, sat := decide (sat = 1), aba := decide (aba = 1), nga := decide (nga = 1),
          abb := decide (abb = 1), ngb := decide (ngb = 1), abc := decide (abc = 1), ngc := decide (ngc = 1),
          aux := BitVec.ofNat 8 aux }
  | _ => .error .short

/-- IMM32 layouts I and E (02 R54). -/
def Raw.opE (r : Raw) : Except DecodeError OpE := do
  let dst ← orErr (dstOfBits r.dst) .reservedKind
  let a ← orErr (srcOfBits r.sra) .reservedKind
  let b ← orErr (srcOfBits r.srb) .reservedKind
  .ok { dst, a, b, imm := BitVec.ofNat 32 r.imm }

/-- IMM32 layout M (02 R54, R55). -/
def Raw.opM (r : Raw) : Except DecodeError OpM :=
  match splitBits [24, 3, 3, 2] r.imm with
  | [off, sc, ord, scl] => do
    let dst ← orErr (dstOfBits r.dst) .reservedKind
    let base ← orErr (srcOfBits r.sra) .reservedKind
    let idx ← orErr (srcOfBits r.srb) .reservedKind
    .ok { dst, base, idx, scl := BitVec.ofNat 2 scl, ord := BitVec.ofNat 3 ord, sc := BitVec.ofNat 3 sc,
          off := BitVec.ofNat 24 off }
  | _ => .error .short

/-- IMM32 layout T (02 R54). -/
def Raw.opT (r : Raw) : Except DecodeError OpT :=
  match splitBits [10, 12, 3, 3, 4] r.imm with
  | [src, off, sc, ord, ty] => do
    let dst ← orErr (dstOfBits r.dst) .reservedKind
    let base ← orErr (srcOfBits r.sra) .reservedKind
    let b ← orErr (srcOfBits r.srb) .reservedKind
    let c ← orErr (srcOfBits src) .reservedKind
    let ty ← orErr (tyOfCode ty) .reservedCode
    .ok { dst, base, b, c, ty, ord := BitVec.ofNat 3 ord, sc := BitVec.ofNat 3 sc, off := BitVec.ofNat 12 off }
  | _ => .error .short

/-- A word with the operands of `get`; RU must be zero (02 R53). -/
def rawWith {α : Type} (r : Raw) (get : Except DecodeError α) (k : Ctl → α → Instr) : Except DecodeError Instr :=
  if r.ru = 0 then get.map (k r.ctl) else .error .mustBeZero

def rawA (r : Raw) (k : Ctl → OpA → Instr) := rawWith r r.opA k
def rawE (r : Raw) (k : Ctl → OpE → Instr) := rawWith r r.opE k
def rawM (r : Raw) (k : Ctl → OpM → Instr) := rawWith r r.opM k
def rawT (r : Raw) (k : Ctl → OpT → Instr) := rawWith r r.opT k
/-- MMA and MMAS, the words that accept RU. -/
def rawR (r : Raw) (k : Ctl → Bool → OpE → Instr) : Except DecodeError Instr :=
  r.opE.map (k r.ctl (decide (r.ru = 1)))

def pairWidths : List Nat := [1, 4, 8, 8, 8, 8, 8, 6, 16, 6, 6, 5, 1, 5, 6]

/-- The pair format (02 R58); bits 12:5 must be zero. -/
def decodePair (w : Nat) : Except DecodeError Instr :=
  match splitBits pairWidths w with
  | [chn, stall, z, vc, vb, va, vd, vop, sb, sa, sd, sop, i, gd, _] =>
    if z = 0 then
      .ok (.pairWord { guard := BitVec.ofNat 5 gd, i := decide (i = 1), sop := BitVec.ofNat 5 sop, sd := BitVec.ofNat 6 sd,
                       sa := BitVec.ofNat 6 sa, sb := BitVec.ofNat 16 sb, vop := BitVec.ofNat 6 vop, vd := BitVec.ofNat 8 vd,
                       va := BitVec.ofNat 8 va, vb := BitVec.ofNat 8 vb, vc := BitVec.ofNat 8 vc,
                       stall := BitVec.ofNat 4 stall, chn := decide (chn = 1) })
    else .error .mustBeZero
  | _ => .error .short

/-- OP 0x00 (02 R59). -/
def decodeOp00 (r : Raw) : Except DecodeError Instr :=
  match r.fn with
  | 0 => rawA r .sadd
  | 1 => rawA r .ssub
  | 2 => rawA r .smul
  | 3 => rawA r .smulh
  | 4 => rawA r .sdiv
  | 5 => rawA r .srem
  | 6 => rawA r .sand
  | 7 => rawA r .sor
  | 8 => rawA r .sxor
  | 9 => rawA r .sandn
  | 10 => rawA r .sshl
  | 11 => rawA r .sshr
  | 12 => rawA r .ssar
  | 13 => rawA r .srot
  | 14 => rawA r .smin
  | 15 => rawA r .smax
  | 16 => rawA r .sclz
  | 17 => rawA r .spopc
  | 18 => rawA r .sbrev
  | 19 => rawA r .sext
  | 20 => rawA r .sins
  | 21 => rawA r .ssel
  | 22 => rawA r .scmp
  | _ => .error .reservedOp

/-- OP 0x01 (02 R59). -/
def decodeOp01 (r : Raw) : Except DecodeError Instr :=
  match r.fn with
  | 0 => rawE r .smovi
  | 1 => rawE r .smovh
  | 2 => rawM r .slea
  | 3 => rawE r .srd
  | 4 => rawE r .swr
  | 5 => rawA r .plop
  | _ => .error .reservedOp

/-- OP 0x08 (02 R59). -/
def decodeOp08 (r : Raw) : Except DecodeError Instr :=
  match r.fn with
  | 0 => rawA r .vadd
  | 1 => rawA r .vsub
  | 2 => rawA r .vmul
  | 3 => rawA r .vmulh
  | 4 => rawA r .vmad
  | 5 => rawA r .vand
  | 6 => rawA r .vor
  | 7 => rawA r .vxor
  | 8 => rawA r .vlop3
  | 9 => rawA r .vshl
  | 10 => rawA r .vshr
  | 11 => rawA r .vsar
  | 12 => rawA r .vmin
  | 13 => rawA r .vmax
  | 14 => rawA r .vabs
  | 15 => rawA r .vclz
  | 16 => rawA r .vpopc
  | 17 => rawA r .vext
  | 18 => rawA r .vins
  | 19 => rawA r .vsel
  | 20 => rawA r .vcmp
  | 21 => rawA r .vmov
  | 22 => rawE r .vmovi
  | 23 => rawA r .vdot4
  | _ => .error .reservedOp

/-- OP 0x10 (02 R59). -/
def decodeOp10 (r : Raw) : Except DecodeError Instr :=
  match r.fn with
  | 0 => rawA r .fadd
  | 1 => rawA r .fsub
  | 2 => rawA r .fmul
  | 3 => rawA r .ffma
  | 4 => rawA r .fmin
  | 5 => rawA r .fmax
  | 6 => rawA r .fcmp
  | 7 => rawA r .fclass
  | 8 => rawA r .fdiv
  | 9 => rawA r .fsqrt
  | 10 => rawA r .frcp
  | 11 => rawA r .frsq
  | 12 => rawA r .fexp2
  | 13 => rawA r .flog2
  | 14 => rawA r .fsin
  | 15 => rawA r .fcos
  | 16 => rawA r .ftanh
  | 17 => rawA r .fround
  | 18 => rawA r .fscale
  | 19 => rawA r .fdot2
  | _ => .error .reservedOp

/-- OP 0x18 (02 R59). -/
def decodeOp18 (r : Raw) : Except DecodeError Instr :=
  match r.fn with
  | 0 => rawA r .cvt
  | 1 => rawA r .cvtbx
  | 2 => rawA r .cvtxf
  | 3 => rawA r .cvtf8
  | 4 => rawA r .cvtpk
  | 5 => rawA r .rnd
  | _ => .error .reservedOp

/-- OP 0x1C (02 R59). -/
def decodeOp1c (r : Raw) : Except DecodeError Instr :=
  match r.fn with
  | 0 => rawA r .shfl
  | 1 => rawA r .bcast
  | 2 => rawA r .ballot
  | 3 => rawA r .vote
  | 4 => rawA r .match
  | 5 => rawA r .gred
  | 6 => rawA r .gscan
  | 7 => rawA r .gredm
  | 8 => rawA r .mscl
  | 9 => rawA r .mcnt
  | _ => .error .reservedOp

/-- OP 0x20 (02 R59). -/
def decodeOp20 (r : Raw) : Except DecodeError Instr :=
  match r.fn with
  | fn => if fn < 8 then rawM r (.ld · (BitVec.ofNat 3 fn)) else .error .reservedOp

/-- OP 0x21 (02 R59). -/
def decodeOp21 (r : Raw) : Except DecodeError Instr :=
  match r.fn with
  | fn => if fn < 8 then rawM r (.st · (BitVec.ofNat 3 fn)) else .error .reservedOp

/-- OP 0x22 (02 R59). -/
def decodeOp22 (r : Raw) : Except DecodeError Instr :=
  match r.fn with
  | fn =>
    if fn < 8 then rawM r (.sld · (BitVec.ofNat 3 fn))
    else if fn < 16 then rawM r (.sst · (BitVec.ofNat 3 (fn - 8)))
    else .error .reservedOp

/-- OP 0x23 (02 R59). -/
def decodeOp23 (r : Raw) : Except DecodeError Instr :=
  match r.fn with
  | fn =>
    if fn < 8 then rawM r (.lds · (BitVec.ofNat 3 fn))
    else if fn < 16 then rawM r (.sts · (BitVec.ofNat 3 (fn - 8)))
    else .error .reservedOp

/-- OP 0x24 (02 R59). -/
def decodeOp24 (r : Raw) : Except DecodeError Instr :=
  match r.fn with
  | fn =>
    if fn < 8 then rawM r (.ldt · (BitVec.ofNat 3 fn))
    else if fn < 16 then rawM r (.stt · (BitVec.ofNat 3 (fn - 8)))
    else if fn < 24 then rawM r (.stn · (BitVec.ofNat 2 ((fn - 16) / 2)) (BitVec.ofNat 1 (fn % 2)))
    else .error .reservedOp

/-- OP 0x25 (02 R59). -/
def decodeOp25 (r : Raw) : Except DecodeError Instr :=
  match r.fn with
  | 16 => rawE r .prf
  | 24 => rawE r .rgn
  | 32 => rawE r (fun c o => if o.bits 44 44 = 1 then .mapsUn c o else .maps c o)
  | fn => if fn < 7 then rawM r (.ldc · (BitVec.ofNat 3 fn)) else .error .reservedOp

/-- OP 0x28 (02 R59). -/
def decodeOp28 (r : Raw) : Except DecodeError Instr :=
  match r.fn with
  | 0 => rawT r .atmAdd
  | 1 => rawT r .atmFadd
  | 2 => rawT r .atmMin
  | 3 => rawT r .atmMax
  | 4 => rawT r .atmAnd
  | 5 => rawT r .atmOr
  | 6 => rawT r .atmXor
  | 7 => rawT r .atmXch
  | 8 => rawT r .acas
  | 9 => rawT r .aaddt
  | _ => .error .reservedOp

/-- OP 0x29 (02 R59). -/
def decodeOp29 (r : Raw) : Except DecodeError Instr :=
  match r.fn with
  | 0 => rawT r .redAdd
  | 1 => rawT r .redFadd
  | 2 => rawT r .redMin
  | 3 => rawT r .redMax
  | 4 => rawT r .redAnd
  | 5 => rawT r .redOr
  | 6 => rawT r .redXor
  | _ => .error .reservedOp

/-- OP 0x2C (02 R59). -/
def decodeOp2c (r : Raw) : Except DecodeError Instr :=
  match r.fn with
  | 0 => rawM r .fenceAcq
  | 1 => rawM r .fenceRel
  | 2 => rawM r .fenceFull
  | 8 => rawT r .waita
  | 9 => rawE r .waitc
  | _ => .error .reservedOp

/-- OP 0x2D (02 R59). -/
def decodeOp2d (r : Raw) : Except DecodeError Instr :=
  match r.fn with
  | 0 => rawE r .nmoCas2
  | 1 => rawE r .nmoCas4
  | 2 => rawE r .nmoFop
  | 3 => rawE r .nmoEnq
  | 4 => rawE r .nmoDeq
  | 5 => rawE r .nmoChase
  | _ => .error .reservedOp

/-- OP 0x30 (02 R59). -/
def decodeOp30 (r : Raw) : Except DecodeError Instr :=
  match r.fn with
  | 0 => rawE r .cpy
  | 1 => rawE r .cpy2d
  | 2 => rawE r .cpycb
  | 3 => rawE r .gath
  | 4 => rawE r .coll
  | 32 => rawE r .cpyLossy
  | 33 => rawE r .cpy2dLossy
  | 36 => rawE r .collLossy
  | _ => .error .reservedOp

/-- OP 0x31 (02 R59). -/
def decodeOp31 (r : Raw) : Except DecodeError Instr :=
  match r.fn with
  | 0 => rawE r .cbcfg
  | 1 => rawE r (fun c o => if o.bits 44 44 = 1 then .cbwaitFree c o else .cbwaitFull c o)
  | 2 => rawE r .cbrel
  | 3 => rawE r .cbpost
  | _ => .error .reservedOp

/-- OP 0x34 (02 R59). -/
def decodeOp34 (r : Raw) : Except DecodeError Instr :=
  match r.fn with
  | 0 => rawR r .mma
  | 1 => rawR r .mmas
  | 2 => rawE r .accz
  | 3 => rawE r .accld
  | 4 => rawE r .accst
  | 5 => rawE r .mqry
  | _ => .error .reservedOp

/-- OP 0x38 (02 R59). -/
def decodeOp38 (r : Raw) : Except DecodeError Instr :=
  match r.fn with
  | 0 => rawE r .bra
  | 1 => rawE r .bri
  | 2 => rawE r .call
  | 3 => rawE r .calli
  | 4 => rawE r .ret
  | 5 => rawE r .exit
  | 6 => rawE r .yield
  | 7 => rawE r .reconv
  | 8 => rawE r .sleep
  | _ => .error .reservedOp

/-- OP 0x39 (02 R59). -/
def decodeOp39 (r : Raw) : Except DecodeError Instr :=
  match r.fn with
  | 0 => rawE r .bar
  | 1 => rawE r .bara
  | 2 => rawE r .barw
  | 8 => rawE r .elect
  | 9 => rawE r .enq
  | 10 => rawE r .grow
  | 11 => rawE r .shrnk
  | _ => .error .reservedOp

/-- OP 0x3C (02 R59). -/
def decodeOp3c (r : Raw) : Except DecodeError Instr :=
  match r.fn with
  | 0 => rawE r .arb
  | 1 => rawE r .are
  | 2 => rawE r .arx
  | 3 => rawE r .arst
  | _ => .error .reservedOp

/-- OP 0x3D (02 R59). -/
def decodeOp3d (r : Raw) : Except DecodeError Instr :=
  match r.fn with
  | 0 => rawE r .trap
  | 1 => rawE r .bkpt
  | 2 => rawE r .eret
  | 3 => rawE r (fun c o => if o.imm = 1 then .stlbiAll c o else .stlbiVa c o)
  | 4 => rawE r (fun c o => if o.imm = 1 then .sflushT c o else if o.imm = 2 then .sflushP c o else .sflushC c o)
  | 5 => rawE r .halt
  | 6 => rawE r .keyq
  | _ => .error .reservedOp

/-- The opcode map (02 R59): the constructor a full-format word names, before the operand checks. -/
def decodeFull (r : Raw) : Except DecodeError Instr :=
  match r.op with
  | 0 => decodeOp00 r
  | 1 => decodeOp01 r
  | 8 => decodeOp08 r
  | 16 => decodeOp10 r
  | 24 => decodeOp18 r
  | 28 => decodeOp1c r
  | 32 => decodeOp20 r
  | 33 => decodeOp21 r
  | 34 => decodeOp22 r
  | 35 => decodeOp23 r
  | 36 => decodeOp24 r
  | 37 => decodeOp25 r
  | 40 => decodeOp28 r
  | 41 => decodeOp29 r
  | 44 => decodeOp2c r
  | 45 => decodeOp2d r
  | 48 => decodeOp30 r
  | 49 => decodeOp31 r
  | 52 => decodeOp34 r
  | 56 => decodeOp38 r
  | 57 => decodeOp39 r
  | 60 => decodeOp3c r
  | 61 => decodeOp3d r
  | _ => .error .reservedOp

/-- Fields of a full-format word with their widths, least significant first (02 R49). -/
def fullFields (op fn : Nat) (c : Ctl) (ru : Bool) (dst sra srb imm : Nat) : List (Nat × Nat) :=
  [(4, 0), (1, c.yh.toNat), (3, c.ssb.toNat), (3, c.wsb.toNat), (1, ru.toNat), (1, c.chn.toNat), (4, c.stall.toNat), (32, imm),
   (10, srb), (10, sra), (10, dst), (5, c.guard.toNat), (6, fn), (6, op)]

def encA (op fn : Nat) (c : Ctl) (o : OpA) : List (Nat × Nat) :=
  fullFields op fn c false o.dst.code o.a.code o.b.code
    (joinBits [(10, o.c.code), (8, o.aux.toNat), (1, o.ngc.toNat), (1, o.abc.toNat), (1, o.ngb.toNat), (1, o.abb.toNat),
      (1, o.nga.toNat), (1, o.aba.toNat), (1, o.sat.toNat), (3, o.rm.code), (4, o.ty.code)])

def encR (op fn : Nat) (c : Ctl) (ru : Bool) (o : OpE) : List (Nat × Nat) :=
  fullFields op fn c ru o.dst.code o.a.code o.b.code o.imm.toNat

def encE (op fn : Nat) (c : Ctl) (o : OpE) : List (Nat × Nat) := encR op fn c false o

def encM (op fn : Nat) (c : Ctl) (o : OpM) : List (Nat × Nat) :=
  fullFields op fn c false o.dst.code o.base.code o.idx.code
    (joinBits [(24, o.off.toNat), (3, o.sc.toNat), (3, o.ord.toNat), (2, o.scl.toNat)])

def encT (op fn : Nat) (c : Ctl) (o : OpT) : List (Nat × Nat) :=
  fullFields op fn c false o.dst.code o.base.code o.b.code
    (joinBits [(10, o.c.code), (12, o.off.toNat), (3, o.sc.toNat), (3, o.ord.toNat), (4, o.ty.code)])

/-- Fields of a pair word with their widths, least significant first (02 R58). -/
def pairFields (p : PairWord) : List (Nat × Nat) :=
  [(1, p.chn.toNat), (4, p.stall.toNat), (8, 0), (8, p.vc.toNat), (8, p.vb.toNat), (8, p.va.toNat), (8, p.vd.toNat),
   (6, p.vop.toNat), (16, p.sb.toNat), (6, p.sa.toNat), (6, p.sd.toNat), (5, p.sop.toNat), (1, p.i.toNat), (5, p.guard.toNat),
   (6, 0x3E)]

/-- The fields of the word that holds an instruction; an event has none (02 R49, R58, R59). -/
def encodeFields : Instr → Option (List (Nat × Nat))
  | .sadd c o => some (encA 0 0 c o)
  | .ssub c o => some (encA 0 1 c o)
  | .smul c o => some (encA 0 2 c o)
  | .smulh c o => some (encA 0 3 c o)
  | .sdiv c o => some (encA 0 4 c o)
  | .srem c o => some (encA 0 5 c o)
  | .sand c o => some (encA 0 6 c o)
  | .sor c o => some (encA 0 7 c o)
  | .sxor c o => some (encA 0 8 c o)
  | .sandn c o => some (encA 0 9 c o)
  | .sshl c o => some (encA 0 10 c o)
  | .sshr c o => some (encA 0 11 c o)
  | .ssar c o => some (encA 0 12 c o)
  | .srot c o => some (encA 0 13 c o)
  | .smin c o => some (encA 0 14 c o)
  | .smax c o => some (encA 0 15 c o)
  | .sclz c o => some (encA 0 16 c o)
  | .spopc c o => some (encA 0 17 c o)
  | .sbrev c o => some (encA 0 18 c o)
  | .sext c o => some (encA 0 19 c o)
  | .sins c o => some (encA 0 20 c o)
  | .ssel c o => some (encA 0 21 c o)
  | .scmp c o => some (encA 0 22 c o)
  | .smovi c o => some (encE 1 0 c o)
  | .smovh c o => some (encE 1 1 c o)
  | .slea c o => some (encM 1 2 c o)
  | .srd c o => some (encE 1 3 c o)
  | .swr c o => some (encE 1 4 c o)
  | .plop c o => some (encA 1 5 c o)
  | .pairWord p => some (pairFields p)
  | .vadd c o => some (encA 8 0 c o)
  | .vsub c o => some (encA 8 1 c o)
  | .vmul c o => some (encA 8 2 c o)
  | .vmulh c o => some (encA 8 3 c o)
  | .vmad c o => some (encA 8 4 c o)
  | .vand c o => some (encA 8 5 c o)
  | .vor c o => some (encA 8 6 c o)
  | .vxor c o => some (encA 8 7 c o)
  | .vlop3 c o => some (encA 8 8 c o)
  | .vshl c o => some (encA 8 9 c o)
  | .vshr c o => some (encA 8 10 c o)
  | .vsar c o => some (encA 8 11 c o)
  | .vmin c o => some (encA 8 12 c o)
  | .vmax c o => some (encA 8 13 c o)
  | .vabs c o => some (encA 8 14 c o)
  | .vclz c o => some (encA 8 15 c o)
  | .vpopc c o => some (encA 8 16 c o)
  | .vext c o => some (encA 8 17 c o)
  | .vins c o => some (encA 8 18 c o)
  | .vsel c o => some (encA 8 19 c o)
  | .vcmp c o => some (encA 8 20 c o)
  | .vmov c o => some (encA 8 21 c o)
  | .vmovi c o => some (encE 8 22 c o)
  | .vdot4 c o => some (encA 8 23 c o)
  | .fadd c o => some (encA 16 0 c o)
  | .fsub c o => some (encA 16 1 c o)
  | .fmul c o => some (encA 16 2 c o)
  | .ffma c o => some (encA 16 3 c o)
  | .fmin c o => some (encA 16 4 c o)
  | .fmax c o => some (encA 16 5 c o)
  | .fcmp c o => some (encA 16 6 c o)
  | .fclass c o => some (encA 16 7 c o)
  | .fdiv c o => some (encA 16 8 c o)
  | .fsqrt c o => some (encA 16 9 c o)
  | .frcp c o => some (encA 16 10 c o)
  | .frsq c o => some (encA 16 11 c o)
  | .fexp2 c o => some (encA 16 12 c o)
  | .flog2 c o => some (encA 16 13 c o)
  | .fsin c o => some (encA 16 14 c o)
  | .fcos c o => some (encA 16 15 c o)
  | .ftanh c o => some (encA 16 16 c o)
  | .fround c o => some (encA 16 17 c o)
  | .fscale c o => some (encA 16 18 c o)
  | .fdot2 c o => some (encA 16 19 c o)
  | .cvt c o => some (encA 24 0 c o)
  | .cvtbx c o => some (encA 24 1 c o)
  | .cvtxf c o => some (encA 24 2 c o)
  | .cvtf8 c o => some (encA 24 3 c o)
  | .cvtpk c o => some (encA 24 4 c o)
  | .rnd c o => some (encA 24 5 c o)
  | .shfl c o => some (encA 28 0 c o)
  | .bcast c o => some (encA 28 1 c o)
  | .ballot c o => some (encA 28 2 c o)
  | .vote c o => some (encA 28 3 c o)
  | .match c o => some (encA 28 4 c o)
  | .gred c o => some (encA 28 5 c o)
  | .gscan c o => some (encA 28 6 c o)
  | .gredm c o => some (encA 28 7 c o)
  | .mscl c o => some (encA 28 8 c o)
  | .mcnt c o => some (encA 28 9 c o)
  | .ld c w o => some (encM 32 w.toNat c o)
  | .st c w o => some (encM 33 w.toNat c o)
  | .sld c w o => some (encM 34 w.toNat c o)
  | .sst c w o => some (encM 34 (8 + w.toNat) c o)
  | .lds c w o => some (encM 35 w.toNat c o)
  | .sts c w o => some (encM 35 (8 + w.toNat) c o)
  | .ldt c w o => some (encM 36 w.toNat c o)
  | .stt c w o => some (encM 36 (8 + w.toNat) c o)
  | .stn c d e o => some (encM 36 (16 + 2 * d.toNat + e.toNat) c o)
  | .ldc c w o => some (encM 37 w.toNat c o)
  | .prf c o => some (encE 37 16 c o)
  | .rgn c o => some (encE 37 24 c o)
  | .maps c o => some (encE 37 32 c o)
  | .mapsUn c o => some (encE 37 32 c o)
  | .atmAdd c o => some (encT 40 0 c o)
  | .atmFadd c o => some (encT 40 1 c o)
  | .atmMin c o => some (encT 40 2 c o)
  | .atmMax c o => some (encT 40 3 c o)
  | .atmAnd c o => some (encT 40 4 c o)
  | .atmOr c o => some (encT 40 5 c o)
  | .atmXor c o => some (encT 40 6 c o)
  | .atmXch c o => some (encT 40 7 c o)
  | .acas c o => some (encT 40 8 c o)
  | .aaddt c o => some (encT 40 9 c o)
  | .redAdd c o => some (encT 41 0 c o)
  | .redFadd c o => some (encT 41 1 c o)
  | .redMin c o => some (encT 41 2 c o)
  | .redMax c o => some (encT 41 3 c o)
  | .redAnd c o => some (encT 41 4 c o)
  | .redOr c o => some (encT 41 5 c o)
  | .redXor c o => some (encT 41 6 c o)
  | .fenceAcq c o => some (encM 44 0 c o)
  | .fenceRel c o => some (encM 44 1 c o)
  | .fenceFull c o => some (encM 44 2 c o)
  | .waita c o => some (encT 44 8 c o)
  | .waitc c o => some (encE 44 9 c o)
  | .nmoCas2 c o => some (encE 45 0 c o)
  | .nmoCas4 c o => some (encE 45 1 c o)
  | .nmoFop c o => some (encE 45 2 c o)
  | .nmoEnq c o => some (encE 45 3 c o)
  | .nmoDeq c o => some (encE 45 4 c o)
  | .nmoChase c o => some (encE 45 5 c o)
  | .cpy c o => some (encE 48 0 c o)
  | .cpyLossy c o => some (encE 48 32 c o)
  | .cpy2d c o => some (encE 48 1 c o)
  | .cpy2dLossy c o => some (encE 48 33 c o)
  | .cpycb c o => some (encE 48 2 c o)
  | .gath c o => some (encE 48 3 c o)
  | .coll c o => some (encE 48 4 c o)
  | .collLossy c o => some (encE 48 36 c o)
  | .cbcfg c o => some (encE 49 0 c o)
  | .cbwaitFull c o => some (encE 49 1 c o)
  | .cbwaitFree c o => some (encE 49 1 c o)
  | .cbrel c o => some (encE 49 2 c o)
  | .cbpost c o => some (encE 49 3 c o)
  | .mma c ru o => some (encR 52 0 c ru o)
  | .mmas c ru o => some (encR 52 1 c ru o)
  | .accz c o => some (encE 52 2 c o)
  | .accld c o => some (encE 52 3 c o)
  | .accst c o => some (encE 52 4 c o)
  | .mqry c o => some (encE 52 5 c o)
  | .bra c o => some (encE 56 0 c o)
  | .bri c o => some (encE 56 1 c o)
  | .call c o => some (encE 56 2 c o)
  | .calli c o => some (encE 56 3 c o)
  | .ret c o => some (encE 56 4 c o)
  | .exit c o => some (encE 56 5 c o)
  | .yield c o => some (encE 56 6 c o)
  | .reconv c o => some (encE 56 7 c o)
  | .sleep c o => some (encE 56 8 c o)
  | .bar c o => some (encE 57 0 c o)
  | .bara c o => some (encE 57 1 c o)
  | .barw c o => some (encE 57 2 c o)
  | .elect c o => some (encE 57 8 c o)
  | .enq c o => some (encE 57 9 c o)
  | .grow c o => some (encE 57 10 c o)
  | .shrnk c o => some (encE 57 11 c o)
  | .arb c o => some (encE 60 0 c o)
  | .are c o => some (encE 60 1 c o)
  | .arx c o => some (encE 60 2 c o)
  | .arst c o => some (encE 60 3 c o)
  | .trap c o => some (encE 61 0 c o)
  | .bkpt c o => some (encE 61 1 c o)
  | .eret c o => some (encE 61 2 c o)
  | .stlbiVa c o => some (encE 61 3 c o)
  | .stlbiAll c o => some (encE 61 3 c o)
  | .sflushC c o => some (encE 61 4 c o)
  | .sflushT c o => some (encE 61 4 c o)
  | .sflushP c o => some (encE 61 4 c o)
  | .halt c o => some (encE 61 5 c o)
  | .keyq c o => some (encE 61 6 c o)
  | .stallExpiry _ => none
  | .resultWriteback _ _ => none
  | .engineCompletion _ _ => none
  | .watchdogExpiry _ _ => none
  | .sleepWake _ _ => none
  | .barrierPhaseComplete _ _ _ _ => none
  | .growGrant _ _ => none
  | .growDeadlockResolve _ _ => none
  | .shrnkRelease _ => none
  | .groupEnd _ => none
  | .enqAtDispatcher _ => none
  | .serTokenGrant _ => none
  | .serTokenTimeout _ => none
  | .pageWalkComplete _ _ _ _ _ => none
  | .faultRecordPost _ _ => none
  | .faultCiAdvance _ _ _ => none
  | .heldAccessRetry _ _ => none
  | .sideLogReplay _ _ => none
  | .classFlushComplete _ => none
  | .readMiss _ _ => none
  | .ownershipRequest _ _ _ => none
  | .invalidation _ _ => none
  | .invalidationAcksDone _ => none
  | .l2Eviction _ => none
  | .rdcEviction _ _ => none
  | .reductionArrival _ _ _ _ _ => none
  | .writeQueueDrain _ _ => none
  | .atomicAtHome _ _ _ _ _ _ => none
  | .nmoExecute _ => none
  | .sloeWindowEnd _ => none
  | .sramError _ _ => none
  | .powerGate _ _ => none
  | .powerWakeDone _ _ => none
  | .copyChunkDone _ _ => none
  | .lossyDeadline _ => none
  | .collCallStart _ => none
  | .collBlockClose _ _ _ _ => none
  | .cpycbSlotAcquire _ => none
  | .matrixKstep _ _ => none
  | .matrixEngineReset _ _ => none
  | .tailWrite _ _ _ _ => none
  | .qbaddWrite _ _ _ => none
  | .queueControlWrite _ _ _ _ => none
  | .queueDisable _ _ => none
  | .recordTake _ => none
  | .eventPoll _ _ => none
  | .taskStarvation _ _ => none
  | .launchStart _ _ => none
  | .windowRelocation _ _ => none
  | .launchCompletion _ => none
  | .fastPreemption _ _ => none
  | .slotFreeze _ _ _ => none
  | .ctxSave _ _ _ => none
  | .ctxRestore _ _ _ => none
  | .dirtyLogOn _ => none
  | .harvest _ _ => none
  | .migrationStop _ _ _ => none
  | .exportFrame _ _ => none
  | .importFrame _ _ => none
  | .dirtyLogOff _ => none
  | .flr _ => none
  | .tilePredictedFailure _ _ => none
  | .tileFailure _ => none
  | .s2cmdInvalidateIpa _ _ => none
  | .s2cmdInvalidateAll _ => none
  | .s2InvalidationDone _ => none
  | .stlbiDone _ => none
  | .s2cmdMigrateIn _ _ => none
  | .frameMoveDone _ => none
  | .accessCountThreshold _ _ => none
  | .nqciWrite _ _ => none
  | .frameTick => none
  | .pcarveTakeEffect _ _ => none
  | .partitionCreate _ _ => none
  | .partitionDestroy _ => none
  | .partitionGrow _ _ => none
  | .partitionShrink _ _ => none
  | .partitionCompact _ _ => none
  | .packetDelivery _ => none
  | .dropWindowClose _ => none
  | .rekeyRequest _ _ => none
  | .rekeyExecute _ => none
  | .portEnable _ => none
  | .portDisable _ => none
  | .portRetrain _ => none
  | .trainingDone _ _ => none
  | .trainingTimeout _ => none
  | .waferidWrite _ => none
  | .exportHandleWrite _ _ _ _ => none
  | .fabricRequest _ _ _ _ _ _ => none
  | .flitReceive _ _ _ _ => none
  | .replayRequest _ _ => none
  | .laserLoss _ _ => none
  | .lossOfLightDetect _ _ _ => none
  | .restripe _ _ _ => none
  | .fabricBarrierSymbol _ _ _ _ => none
  | .lockInterfaceRequest _ => none
  | .startInterfaceRequest _ => none
  | .stopInterfaceRequest _ => none
  | .keyExchange _ => none
  | .challenge _ _ => none
  | .getMeasurements _ _ _ => none
  | .ideKmKeyProg _ _ => none
  | .fwAck _ _ => none
  | .tvecWrite _ _ => none
  | .bindFabricImport _ _ => none
  | .stageFirmware _ _ => none
  | .activateFirmware => none
  | .discardStaged => none
  | .lifeCycleTransition _ _ => none
  | .establishMigrationKey _ _ => none
  | .retireMigrationKey _ => none
  | .usageRecordPeriodic => none
  | .ringCiWrite _ _ _ => none
  | .hostMemoryAccess _ _ _ => none
  | .moduleReset => none
  | .thermalTrip _ => none
  | .powerTripTimeout => none
  | .clockThrottle _ => none
  | .registerWrite _ _ _ _ => none
  | .pschedTakeEffect _ _ => none
  | .linkAcknowledgement _ _ => none
  | .migrationKeyMessage _ _ => none

/-- A 96-bit word to an instruction: the format by OP, the opcode map, then the operand checks (02 R62 check 1). -/
def decodeWord (w : Nat) : Except DecodeError Instr := do
  let i ← if w / 2 ^ 90 % 64 = 0x3E then decodePair w else (splitFull w).bind decodeFull
  if i.wf then .ok i else .error .illFormed

/-- The first instruction of a string of bytes, three little-endian parcels (02 R47), and the bytes after it. -/
def decode (bs : List Byte) : Except DecodeError (Instr × List Byte) :=
  if bs.length < 12 then .error .short
  else (decodeWord (ofLeBytes (bs.take 12))).map (fun i => (i, bs.drop 12))

/-- The bytes of a word, lowest address first (02 R47). -/
def wordBytes (w : Nat) : List Byte := leBytes 12 w

/-- The word of an instruction, none for an event. -/
def encode (i : Instr) : Option IWord := (encodeFields i).map (fun fs => BitVec.ofNat 96 (joinBits fs))

/-- What the decoder reads from an instruction whose bits are `w`, bit 0 the least significant bit of parcel 0. -/
def decodeTableWord (nbits w : Nat) : Option Instr :=
  match decode (wordBytes (w % 2 ^ nbits)) with
  | .ok (i, _) => some i
  | .error _ => none

end Sys2Proof
end

