-- ==== Sys2Proof/Machine/State.lean ====
section
/-!
DEFINITION. The state of one MW-960 module, as plain data: everything the spec gives the machine, and State.reset.

Tables with many possible entries are FMap: lists of (key, value) with rising keys. Memory and the register tables of lanes and
groups list no entry equal to what an unlisted one reads as. Operations over them stand in Machine/Ops.lean. Times are counts of wafer cycles (01 R38, sr.clock).
-/

namespace Sys2Proof.Machine

/-- A table with natural-number keys. -/
abbrev FMap (α : Type) := List (Nat × α)

/-- Memory: (location, byte) with strictly rising locations and no zero byte listed; an unlisted location reads zero. -/
abbrev Memory := List Host.Cell

/-- Why the machine stops. -/
inductive Fault where
  /-- Raised by step while the module is held in reset after a trip: only a power-cycle goes on (20 R427). Safe. -/
  | heldInReset
  deriving DecidableEq, Repr

/-- Why an instruction has no meaning. -/
inductive Refusal where
  /-- Raised by an arm of exec whose instruction has no meaning yet; none has. Safe. -/
  | notModelled (mnemonic : String)
  deriving DecidableEq, Repr

/-- A bypass latch with its valid and poison marks (01 R31, R32). -/
structure Latch where
  val : DWord
  valid : Bool
  psn : Bool
  /-- the value is the status of an outstanding ENQ, still to come (08 R184, R199) -/
  enq : Bool
  deriving DecidableEq, Repr

/-- The four latches of a lane (01 R31). -/
structure Latches where
  l0 : Latch
  l1 : Latch
  l2 : Latch
  l3 : Latch
  deriving DecidableEq, Repr

/-- What an outstanding translation fault is keyed by: tile, stage, partition, 64 KiB page (15 R336). -/
structure FaultKey where
  tile : Nat
  stage : Nat
  part : Nat
  page : Nat
  deriving DecidableEq, Repr

/-- Why a lane is not ready (01 R19, R46). -/
inductive Block where
  /-- not blocked -/
  | free
  /-- held by a translation fault at va (07 R162); fet: a fetch; `more`: the faults of the instruction's other pages, with their VAs -/
  | fault (k : FaultKey) (va : Nat) (fet : Bool) (more : List (FaultKey × Nat))
  /-- held by a busy stage-2 leaf (15 R330 step 5) -/
  | busy (part ipa : Nat)
  /-- held while a granule is flushed (14 R314) -/
  | flush (granule : Nat)
  /-- held while a line waits for acknowledgements (14 R317) -/
  | acks (line : Nat)
  /-- held while a gated unit wakes (14 R326) -/
  | wake (tile : Nat) (u : GateUnit)
  /-- held by a line that a serialised region has locked (09 R223) -/
  | locked (line : Nat)
  /-- waits for scoreboard k to be 0 (01 R36) -/
  | sb (k : Nat)
  /-- waits for scoreboard k to fall below 7 (01 R36) -/
  | sbFull (k : Nat)
  /-- waits for an asynchronous counter to fall below 63 (01 R37) -/
  | cntFull (cls : Nat)
  /-- waits for room in a copy-engine channel (10 R226) -/
  | chan (ch : Nat)
  /-- waits for room in the matrix job queue (11 R247) -/
  | jobs
  /-- waits for the entries of these lanes of its group in the side log (07 R163) -/
  | slgOwn (ls : List Nat)
  /-- a release waits until remote homes have acknowledged these lanes' accesses to the fabric (19 R402) -/
  | fabAck (ls : List Nat)
  /-- waits for room in the replay buffer of a port (19 R404) -/
  | port (k : Nat)
  /-- WAITC: waits until the counter of class cls is n or less (10 R229) -/
  | waitc (cls n : Nat)
  /-- waits until the phase of a barrier has passed ph (08 R193); past: the word stands behind pc -/
  | bar (dom unit id ph : Nat) (past : Bool)
  /-- registered in the waiter table of tile (07 R178); pd is written at release -/
  | waita (tile pa : Nat) (pd : BitVec 4)
  /-- waits at a circular buffer; sd is written at release (10 R238) -/
  | cbwait (b : Nat) (full : Bool) (sd : BitVec 6) (nw : Bool)
  /-- a slot that CBWAIT was granted while its group's region was open: sd is written when the region ends (09 R207) -/
  | cbgot (v : Nat) (sd : BitVec 6) (nw : Bool)
  /-- CBCFG waits until no CPYCB for the buffer is queued or in progress (10 R237) -/
  | cbcfg (b : Nat)
  /-- asleep until sr.clock reaches t (08 R190) -/
  | sleep (t : Nat)
  /-- GROW: pd is written at the grant or the failure (08 R200) -/
  | grow (pd : BitVec 4)
  /-- SHRNK waits for the group's outstanding writes (08 R202) -/
  | shrnk
  /-- STLBI waits for the walks of the partition (12 R281) -/
  | stlbi
  /-- waits for the ENQ's status (08 R199) -/
  | enq
  /-- waits for the serialisation token (09 R223) -/
  | token
  deriving DecidableEq, Repr

/-- One lane (01 R16, R18, R31 to R35, R44, R45). -/
structure Lane where
  /-- program counter -/
  pc : BitVec 64
  /-- v0 to v255; an unlisted register is 0 -/
  v : FMap Word
  /-- vector registers that carry the poison mark -/
  vPsn : List Nat
  /-- p0 to p14; bit 15 is never read -/
  p : BitVec 16
  lat : Latches
  /-- sr.fflags bits 5:0 -/
  fflags : BitVec 6
  /-- sr.srctr -/
  srctr : Word
  exited : Bool
  block : Block
  /-- held by a trap of its group (12 R273) -/
  held : Bool
  /-- yielded: the other slots of the core that must be selected first (01 R44) -/
  yielded : Option (List Nat)
  /-- instructions executed in the open chain; 0 outside a chain (01 R32) -/
  chain : Nat
  /-- first instruction of the open chain -/
  chainPc : BitVec 64
  /-- watchdog count, and whether it has reached the limit (01 R45) -/
  wd : Nat
  wdDue : Bool
  /-- phase of the last arrival at each barrier, keyed by 16 × domain + id; unlisted: none (08 R193) -/
  arr : FMap Nat
  /-- discarded side-log entries to be reported, oldest first: code, address, S2 (12 R278, 15 R337) -/
  slg : List (Nat × Nat × Bool)
  /-- a denied fault that held the lane, to be taken at its instruction: code, address, S2, fetch (12 R278, 02 R48) -/
  deny : Option (Nat × Nat × Bool × Bool)
  /-- the word that a fault last held the lane at, which a denial reports (12 R275, R278) -/
  heldWord : Nat
  deriving DecidableEq, Repr

/-- A tag of a register in a region: the value is x_k + c (09 R212). -/
structure Tag where
  k : Nat
  c : DWord
  deriving DecidableEq, Repr

/-- An input of a region (09 R212). -/
structure RInput where
  pa : Nat
  w : Nat
  x : DWord
  psn : Bool
  pinned : Bool
  conflicted : Bool
  deriving DecidableEq, Repr

/-- A store-buffer entry of a region (09 R216). -/
structure RStore where
  pa : Nat
  w : Nat
  val : DWord
  psn : Bool
  tag : Option Tag
  deriving DecidableEq, Repr

/-- A constraint of a region (09 R215). -/
structure RCons where
  k : Nat
  c : DWord
  rel : Nat
  rhs : Int
  ty : Ty
  out : Bool
  deriving DecidableEq, Repr

/-- An open atomic region (09 R207 to R216). -/
structure Region where
  fb : BitVec 64
  ser : Bool
  lanes : List Nat
  snapS : FMap DWord
  snapSPsn : List Nat
  /-- p0 to p14 of each region lane at ARB -/
  snapP : FMap (BitVec 16)
  /-- CNT at ARB, which an abort restores before it counts (09 R210, R220) -/
  cnt : Nat
  /-- tags of s0 to s63; unlisted: none -/
  tags : FMap Tag
  /-- tags of l0 to l3, the same in every region lane -/
  ltags : List (Option Tag)
  inputs : List RInput
  stores : List RStore
  cons : List RCons
  /-- cycle of the ARB, from which the token's wait counts (09 R223) -/
  start : Nat
  /-- the commit has passed its first step and waits for a locked line (09 R218, R222) -/
  commit : Bool
  deriving DecidableEq, Repr

/-- An accumulator tile: words keyed 32 r + n, flags NX UF OF INV at bits 0, 1, 2, 4 and PSN at bit 5 (11 R247, R248). -/
structure AccTile where
  words : FMap Word
  flags : BitVec 8
  deriving DecidableEq, Repr

/-- The A reuse latch: captured rows keyed 96 r + register, exponents and bitmaps as the capturing job read them (11 R254). -/
structure ALatch where
  rows : FMap Word
  ks : Nat
  fmtA : Nat
  koff : Nat
  /-- captured by an MMAS -/
  sparse : Bool
  /-- the job that captured it, whose exponents and bitmaps it shares -/
  job : Nat
  /-- exponent bytes keyed 1024 r + byte, and bitmap bytes keyed 1024 r + byte; empty until the job reads them -/
  exps : FMap Nat
  bits : FMap Nat
  psn : Bool
  /-- the bitmap that the capturing job read was poisoned, which marks only jobs that read it (11 R258) -/
  bitPsn : Bool
  deriving DecidableEq, Repr

/-- An engine error kept for its WAITC (10 R230). -/
structure EngErr where
  cls : Nat
  pos : Nat
  code : Nat
  va : Nat
  s2 : Bool
  /-- a WAITC at S has met it: it is reported at the group's next issue at K or U (10 R230; 12 R271) -/
  due : Bool
  deriving DecidableEq, Repr

/-- An ENQ on its way to the dispatcher (08 R198). -/
structure EnqReq where
  q : DWord
  level : Nat
  /-- address of the record, as the instruction names it -/
  va : Nat
  bytes : List Byte
  psn : Bool
  /-- issue stopped before it had reached the dispatcher: it is issued again, and reads its record anew (08 R199) -/
  again : Bool
  lanes : List Nat
  sd : BitVec 6
  nw : Bool
  pd : BitVec 4
  /-- it has reached the dispatcher, passed its checks and been charged, and its write into the ring is still to come -/
  charged : Bool
  deriving DecidableEq, Repr

/-- One group (01 R17, R18, R36 to R40; 08; 09; 11; 12 R274). -/
structure Group where
  launch : Nat
  tile : Nat
  core : Nat
  slot : Nat
  pos : Nat
  w : Nat
  /-- declared vector registers -/
  v : Nat
  /-- declared accumulator tiles -/
  t : Nat
  /-- linear position of lane 0 in the launch (01 R25) -/
  lin : Nat
  /-- order in which residence on the core began (08 R201) -/
  age : Nat
  /-- base of the register window in the unified store (01 R28) -/
  win : Nat
  lanes : List Lane
  /-- s0 to s63; an unlisted register is 0 -/
  s : FMap DWord
  sPsn : List Nat
  /-- sr.srseed -/
  srseed : DWord
  /-- sr.arstat -/
  arstat : DWord
  region : Option Region
  /-- sb1 to sb7 -/
  sb : FMap Nat
  /-- asynchronous counters: 0 cp, 1 mx, 2 nm, 3 cl -/
  cnt : FMap Nat
  /-- engine operations issued in each class since the group's start -/
  issued : FMap Nat
  /-- engine errors not yet reported, oldest first -/
  errs : List EngErr
  /-- cycle up to which a STALL delay holds the group (02 R57) -/
  stall : Option Nat
  /-- RECONV address (08 R191) -/
  ra : Option (BitVec 64)
  /-- true at S (01 R40) -/
  priv : Bool
  epc : DWord
  ecause : DWord
  eaddr : DWord
  emask : DWord
  einsl : DWord
  einsh : Word
  escr0 : DWord
  escr1 : DWord
  acc : FMap AccTile
  alatch : Option ALatch
  /-- a pending GROW's count (08 R200) -/
  grow : Option Nat
  /-- a pending SHRNK's count (08 R202) -/
  shrnk : Option Nat
  enq : Option EnqReq
  /-- an engine reset to be reported as 0x10 (11 R266) -/
  mreset : Bool
  /-- frozen by fast pre-emption (17 R364) -/
  frozen : Bool
  /-- lanes whose accesses to the fabric were lost before an acknowledgement, with the VA, to be reported at their next release
  (19 R402, R404) -/
  fabLost : List (Nat × Nat)
  deriving DecidableEq, Repr

/-- A level of a launch (01 R23). -/
structure Level where
  ext : Nat
  dom : Nat
  scope : Nat
  deriving DecidableEq, Repr

/-- A launch record, version 1 (16 R344). -/
structure Rec where
  ver : Nat
  flags : Nat
  cls : Nat
  prio : Nat
  entry : BitVec 64
  argva : Nat
  argsz : Nat
  wcode : Nat
  levels : List Level
  v : Nat
  t : Nat
  bars : List Nat
  scr : Nat
  tmb : Nat
  pmapva : Nat
  /-- ranges (base, length): 0 to 3 read, 4 to 7 write -/
  ranges : List (Nat × Nat)
  cva : Nat
  cval : DWord
  cost : Nat
  evt : Nat
  deriving DecidableEq, Repr

/-- A task: a record that has passed every check and has not completed (16 R349). -/
structure Task where
  seq : Nat
  part : Nat
  q : Nat
  level : Nat
  set : Nat
  rc : Rec
  /-- appended by an ENQ, and by which launch -/
  parent : Option Nat
  /-- its placement map, when PMAP is set -/
  pmap : List Nat
  /-- its input event has fired (16 R352) -/
  fired : Bool
  /-- cycle of the last read of its event word -/
  polled : Nat
  /-- cycle in which it became eligible (16 R353) -/
  since : Option Nat
  /-- eligible for 2^20 cycles (16 R353) -/
  starved : Bool
  /-- the launch that runs it, once it has started -/
  launch : Option Nat
  /-- what is charged for it to its queue's budget (16 R348) -/
  charged : Nat
  /-- its status word, once it has ended; the completion write is still to come (16 R360) -/
  fin : Option Nat
  /-- its own bytes could not be read (16 R360) -/
  unread : Bool
  /-- it has passed every check: a refused record is no task (16 R349) -/
  ok : Bool
  deriving DecidableEq, Repr

/-- A unit's allocation: a tile, a core, a base and a size in the store or the TM region (16 R354). -/
structure Alloc where
  unit : Nat
  tile : Nat
  core : Nat
  base : Nat
  size : Nat
  deriving DecidableEq, Repr

/-- A resident launch (16 R354 to R359). -/
structure Launch where
  part : Nat
  q : Nat
  level : Nat
  seq : Nat
  rc : Rec
  /-- the argument copy (07 R170) -/
  args : List Byte
  /-- TM of each unit of the lowest tile-domain level -/
  tm : List Alloc
  /-- scratch of each unit of the lowest core-domain level, or of each group -/
  scr : List Alloc
  /-- issue slots held (tile, core, slot); core barriers held (tile, core, count); tile barriers held (tile, count) -/
  slots : List (Nat × Nat × Nat)
  cbars : List (Nat × Nat × Nat)
  tbars : List (Nat × Nat)
  /-- phase of each barrier, keyed by 2^40 × domain + 2^8 × unit + id (08 R193) -/
  phase : FMap Nat
  /-- halt code once halting, and the tile of the first HALT, 0xFFFF for a fatal end (12 R283; 20 R424) -/
  halt : Option (Nat × Nat)
  /-- trap code of the first engine error not covered (10 R230) -/
  engErr : Option Nat
  /-- what its ended groups held, until it completes: tile, core, window base and size, accumulator bytes (16 R354) -/
  ended : List (Nat × Nat × Nat × Nat × Nat)
  /-- first group start and last group end on each tile (16 R360) -/
  times : FMap (Nat × Nat)
  /-- number of this fabric launch in its job (19 R406) -/
  fabric : Option Nat
  /-- calls made at each level and slot by each participant (10 R240) -/
  calls : FMap Nat
  /-- runs in the reserve (17 R363) -/
  reserve : Bool
  startSeq : Nat
  /-- its resources are reserved and its argument copy is still to be made (16 R356) -/
  starting : Bool
  deriving DecidableEq, Repr

/-- An engine operation from issue to its report (10 R226; 11 R247; 17 R368). `kind` is OP 0x30's FN, 0x100 plus OP 0x34's
FN or 0x200 plus OP 0x2D's FN. -/
structure EngOp where
  g : Nat
  cls : Nat
  pos : Nat
  tile : Nat
  core : Nat
  launch : Nat
  ch : Nat
  kind : Nat
  /-- operands: the control block's words, or dst, src and len, or the captured operand block -/
  ops : List DWord
  /-- fields of the word: type, rounding, saturation, distance, opcode, sign, ordering -/
  ty : Nat
  rm : Nat
  sat : Bool
  d : Nat
  tileNo : Nat
  /-- scratch base of the issuing group's unit, to which scratch addresses refer -/
  scr : Nat
  /-- cycle of issue -/
  t0 : Nat
  /-- lanes active at issue, and sr.srseed at issue -/
  lanes : List Nat
  seed : DWord
  /-- chunks, blocks or steps done -/
  done : List Nat
  /-- a CPYCB's acquired slot -/
  slot : Option Nat
  /-- captured A rows, shared exponents and bitmaps (11 R253, R254) -/
  a : Option ALatch
  /-- waits for a fault, met at a VA -/
  wait : Option (FaultKey × Nat)
  /-- what waits: a code that `done` takes when a lossy copy's fault is denied -/
  item : Nat
  /-- issued at S -/
  priv : Bool
  /-- of a near-memory packet, t lies on a stable page (14 R319) -/
  stb : Bool
  /-- the index words of a GATH that it has read, by row (10 R236) -/
  rows : FMap Nat
  err : Option EngErr
  fin : Bool
  /-- accumulator flags that its steps have raised, which the tile takes when the job is complete (11 R259) -/
  fl : BitVec 8
  /-- blocks of a lossy copy that lacked a page, each 4 j for the source and 4 j + 1 for the destination (10 R235) -/
  lack : List Nat
  /-- the call a COLL belongs to, once it has reached its engine -/
  call : Option Nat
  deriving DecidableEq, Repr

/-- A collective call (10 R240, R242). -/
structure Call where
  launch : Nat
  level : Nat
  slot : Nat
  k : Nat
  parent : Nat
  n : Nat
  /-- participants whose COLL has reached its engine: rank and operation -/
  members : List (Nat × Nat)
  start : Option Nat
  /-- blocks closed -/
  closed : List Nat
  deriving DecidableEq, Repr

/-- A side-log entry's access: the lanes it belongs to, of which the first performs it (13 R287; 15 R337). -/
structure SlgAcc where
  lanes : List Nat
  va : Nat
  n : Nat
  val : DWord
  psn : Bool
  deriving DecidableEq, Repr

/-- A side-log entry: the accesses of one instruction to one page (15 R337). `op` is none for a store. -/
structure SlgEnt where
  g : Nat
  page : Nat
  accs : List SlgAcc
  op : Option Nat
  ty : Ty
  ord : Nat
  sc : Nat
  /-- issued at S -/
  priv : Bool
  /-- the fault that it waits for; once that has ended it may replay -/
  key : FaultKey
  deriving DecidableEq, Repr

/-- A MAPS entry of a core (07 R173). -/
structure MapEnt where
  launch : Nat
  part : Nat
  va : Nat
  len : Nat
  /-- physical frames of the range, page by page of 64 KiB pieces: (VA piece, PA) -/
  pas : List (Nat × Nat)
  off : Nat
  /-- location of the scratch byte that offset off names -/
  loc : Nat
  deriving DecidableEq, Repr

/-- A combined TLB entry (15 R332), with the leaves it derives from. -/
structure TlbEnt where
  part : Nat
  base : Nat
  size : Nat
  pa : Nat
  /-- IPA of the page's first byte -/
  ipa : Nat
  /-- the leaf is managed by the device -/
  mg : Bool
  r : Bool
  wr : Bool
  x : Bool
  /-- stage-1 bits: writable, executable, S only, stable -/
  w1 : Bool
  x1 : Bool
  so : Bool
  stb : Bool
  /-- the stage-1 page; with stage 1 off, the whole space -/
  s1 : Nat × Nat
  /-- the stage-2 pages (IPA base, size) used, table reads included -/
  s2 : List (Nat × Nat)
  deriving DecidableEq, Repr

/-- An entry of a walk cache: the table that follows a pointer of a stage and level, for the addresses from base of the pointer's
span, with the stage-2 pages that the pointer's own tables stand on (15 R332, R334). -/
structure WalkEnt where
  part : Nat
  stage : Nat
  lvl : Nat
  base : Nat
  table : Nat
  s2 : List (Nat × Nat)
  /-- of stage 1, the root that the walk began at (12 R276) -/
  root : Nat
  deriving DecidableEq, Repr

/-- A core (01 R20, R21; 15 R337; 16 R357; 11 R264). -/
structure Core where
  /-- lines that the L1 data cache holds, and whether each is dirty (14 R311, R312) -/
  l1 : FMap Bool
  /-- the L1 TLB, newest first (15 R332) -/
  tlb : List TlbEnt
  /-- slot last selected -/
  last : Nat
  /-- ready-since time of each slot; unlisted: had no eligible PC-set -/
  since : FMap Nat
  slog : List SlgEnt
  maps : FMap MapEnt
  resets : Nat
  /-- watchdog limit in effect, log2 (16 R358) -/
  wdlog : Nat
  /-- the launch that occupies the reserve (17 R363) -/
  reserve : Option Nat
  /-- the task for which slots are being frozen (17 R363) -/
  pre : Option Nat
  /-- last cycle in which the matrix engine made progress (11 R266) -/
  mxTime : Nat
  /-- slots marked for freezing (17 R364), and frozen slots whose issue slot the reserve's launch uses (17 R363) -/
  freezing : List Nat
  given : List Nat
  deriving DecidableEq, Repr

/-- A circular buffer (10 R237, R238). -/
structure CBuf where
  owner : Nat
  b : Nat
  /-- location of byte 0 -/
  loc : Nat
  z : Nat
  m : Nat
  f : Nat
  n : Nat
  wr : Nat
  q : Nat
  c : Nat
  e : Nat
  /-- slots marked written; slots acquired and not published; slots taken and not released -/
  written : List Nat
  acquired : List Nat
  taken : Nat
  /-- who waits, in arrival order, with the mode (true: full): a group with its lanes, or a CPYCB's operation with none -/
  waiters : List (Nat × Bool × List Nat)
  deriving DecidableEq, Repr

/-- Granule classes (14 R312). -/
inductive Cls where
  | prv (tile core : Nat)
  | prt (tile : Nat)
  | ro
  | sh
  deriving DecidableEq, Repr

/-- A class entry; an unlisted granule is NONE (14 R312). `flush` is the class that follows a flush in progress. -/
structure ClassEnt where
  cls : Cls
  wr : Bool
  flush : Option (Cls × Bool)
  deriving DecidableEq, Repr

/-- A directory entry of a line of an SH granule (14 R316, R322). -/
inductive DirState where
  | i | s | o
  | m (tile core entry : Nat)
  deriving DecidableEq, Repr

structure DirEnt where
  st : DirState
  owner : Nat
  ptrs : List Nat
  bc : Bool
  /-- tiles that have not acknowledged an invalidation, and the request that waits -/
  acks : List Nat
  pend : Option (Nat × Bool)
  /-- the acknowledgement channel of a broadcast invalidation (18 R389) -/
  chan : Option Nat
  deriving DecidableEq, Repr

/-- A write-queue entry: partials keyed by byte offset in the line (14 R320). -/
structure WqEnt where
  line : Nat
  op : Nat
  ty : Ty
  since : Nat
  parts : FMap DWord
  deriving DecidableEq, Repr

/-- A waiter: a group, or 2^40 + w for a group of wafer w (07 R178; 19 R402). -/
structure Waiter where
  pa : Nat
  g : Nat
  deriving DecidableEq, Repr

/-- Sloe counting of a page (19 R403). -/
structure SloeEnt where
  owned : Option Nat
  count : Nat
  /-- tiles the packets came from; a packet from another wafer is 1024 -/
  from_ : List Nat
  deriving DecidableEq, Repr

/-- An open drop window (18 R383). -/
structure DropWin where
  time : Nat
  dst : Nat
  tag : Nat
  cls : Nat
  cnt : Nat
  addr : Nat
  /-- the launches whose STNs were dropped (22 R434) -/
  launches : List Nat
  deriving DecidableEq, Repr

/-- An outstanding fault (15 R336, R338). -/
structure FaultEnt where
  key : FaultKey
  kind : Nat
  addr : Nat
  ova : Nat
  reason : Nat
  core : Nat
  group : Nat
  /-- record number once posted -/
  posted : Option Nat
  deriving DecidableEq, Repr

/-- A tile's own state (10 R237; 14; 15; 18 R383, R385; 19 R403). -/
structure Tile where
  cbufs : FMap CBuf
  waiters : List Waiter
  tlb : List TlbEnt
  /-- pointer entries of both stages, newest first (15 R332) -/
  walks : List WalkEnt
  /-- lines that the RDC holds, and whether each is dirty; HBM lines that the L2 holds, and the way of each (14 R307, R311) -/
  rdc : FMap Bool
  l2 : FMap Nat
  /-- non-coherent copies of lines of stable pages, keyed by line, 64 bytes each (14 R319) -/
  stable : FMap (List Byte)
  wq : List WqEnt
  sloe : FMap SloeEnt
  faults : List FaultEnt
  drop : Option DropWin
  /-- next sequence number of each flow, keyed by 8 × destination port + class (18 R385) -/
  flows : FMap Nat
  /-- gated units, and units that are waking -/
  gated : List GateUnit
  waking : List GateUnit
  /-- corrected errors of each array: their cycles, newest first (14 R324; 17 R376) -/
  corr : FMap (List Nat)
  /-- PCARVE in effect: RSV, TMMAX, SCRMAX (14 R306) -/
  carve : Nat × Nat × Nat
  failed : Bool
  retired : Bool
  /-- the destination table, by partition-local index (18 R380): an unlisted entry reads 0x77; and the Rowan tree's parent (R388) -/
  table : FMap Nat
  tree : Option Nat
  deriving DecidableEq, Repr

/-- A ring of 20 R423: registers, records held while it is full, records dropped. -/
structure Ring where
  base : Nat
  en : Bool
  sz : Nat
  ovf : Bool
  ci : Nat
  pi : Nat
  held : List (List Byte)
  lost : Nat
  /-- SEQ and digest of the usage record that it was given last (20 R422) -/
  last : Option (Nat × List Byte)
  deriving DecidableEq, Repr

/-- A level of a queue (16 R346). -/
structure QLevel where
  rbase : Nat
  tail : Nat
  head : Nat
  deriving DecidableEq, Repr

/-- A queue (16 R346). -/
structure Queue where
  en : Bool
  dev : Bool
  log2n : Nat
  set : Nat
  budget : Int
  badtail : Bool
  fulldrop : Bool
  levels : List QLevel
  deriving DecidableEq, Repr

/-- An appended record that the dispatcher has not taken (16 R347): its queue, level, index and place, the launch whose ENQ
appended it, what the ENQ charged, and whether the queue's disable has cancelled it (R362). -/
structure Append where
  q : Nat
  level : Nat
  idx : Nat
  va : Nat
  parent : Option Nat
  cost : Nat
  cancelled : Bool
  /-- it has passed checks 1 to 4 of R349 and is charged; its placement map is still to be read -/
  passed : Bool
  deriving DecidableEq, Repr

/-- A save image (17 R369): its header fields and the architectural state that its body holds. -/
structure Image where
  area : Nat
  kind : Nat
  ctx : Nat
  ntiles : Nat
  size : Nat
  ckey : List Byte
  epoch : Nat
  seq : Nat
  /-- the number that its initialisation vector and size are applied to -/
  no : Nat
  /-- sealed under the world key of this partition and epoch of creation, or under this migration key -/
  key : Nat
  tiles : List Nat
  groups : FMap Group
  launches : FMap Launch
  ops : FMap EngOp
  calls : FMap Call
  slog : List (Nat × SlgEnt)
  maps : List (Nat × Nat × MapEnt)
  cbufs : FMap (FMap CBuf)
  /-- reserves in use: tile, core, launch -/
  reserves : List (Nat × Nat × Nat)
  mem : Memory
  poison : List Nat
  queues : FMap Queue
  tasks : FMap Task
  appended : List Append
  /-- next number of the record sequence -/
  nextSeq : Nat
  /-- clock at the stop (27 R456) -/
  clock : Nat
  /-- the body as host memory holds it -/
  body : List Byte
  tvec : Nat
  s1root : Nat
  s1ctl : Nat
  /-- sr.wdlim's register, the symbols of fabric barriers received, and the number of fabric launches -/
  wdlog : Nat
  symbols : List (BarSym × Nat)
  fabLaunches : Nat
  fabEnded : List (Nat × Nat)
  deriving DecidableEq, Repr

/-- A context of a partition (17 R370). -/
structure SaveCtx where
  lastSeq : Nat
  saved : Bool
  deriving DecidableEq, Repr

/-- States of a TDI (20 R411). -/
inductive Tdi where
  | unlocked | locked | run | error
  deriving DecidableEq, Repr

/-- A managed frame held in HBM form (15 R340, R341). -/
structure Frame where
  part : Nat
  ipa : Nat
  backing : Nat
  age : Nat
  deriving DecidableEq, Repr

/-- A region's access count (15 R342). -/
structure ActEnt where
  count : Nat
  pending : Bool
  /-- the count at which it reached ACTHR, until the record of that is posted -/
  note : Option Nat
  deriving DecidableEq, Repr

/-- A managed frame being moved (15 R340): the address of its leaf, its IPA, the leaf as it stands with BSY set, and the new place. -/
structure Move where
  leaf : Nat
  ipa : Nat
  val : Nat
  target : Nat
  /-- the partition that the freed frame is for -/
  heir : Option Nat
  deriving DecidableEq, Repr

/-- A command that takes effect at the end of a drain of its partition (17 R366). Tiles stand as their ids, areas as host
addresses; `time` is the cycle of a prediction or a failure (20 R424). -/
inductive Cmd where
  /-- context OP 1 (17 R370) and OP 5 (17 R372) -/
  | save (ctx area : Nat)
  | migStop (ctx area : Nat)
  /-- an FLR that waits for a reshape (17 R374) -/
  | flr
  /-- DMCMD OP 2 to 5 (18 R391) -/
  | destroy
  | grow (ids : List Nat)
  | shrink (ids : List Nat)
  | compact (a b : List Nat)
  /-- a predicted failure and a loss (17 R376, R377) -/
  | predicted (tile array time : Nat)
  | tileLost (tile time : Nat)
  /-- a rekey (18 R387) -/
  | rekey
  /-- firmware activation and a life-cycle transition, which drain every partition (20 R420, R425) -/
  | activate
  | lifeCycle
  deriving DecidableEq, Repr

/-- A command that an activation holds (20 R420). -/
inductive Held where
  | create (p area : Nat)
  | destroy (p : Nat)
  | grow (p area : Nat)
  | shrink (p area : Nat)
  | compact (p area : Nat)
  | lock (p : Nat)
  | start (p : Nat)
  | stop (p : Nat)
  deriving DecidableEq, Repr

/-- A request from outside that a partition holds until a fault or a drain has ended (18 R392; 19 R401, R407). -/
inductive HeldReq where
  | fabric (wafer srcPart handle : Nat) (off : Nat) (op : FabricOp) (base : Nat)
  | symbol (id : BarSym) (rank : Nat) (release : Bool)
  /-- an IDE key that waits until the packets of the partition's tag have been delivered (20 R415) -/
  | ide (key : Nat)
  | host (pa : Nat) (write : Option (List Byte)) (n : Nat)
  /-- a packet, a returning atomic or a reduction that has arrived at a home (14 R314, R317; 09 R223) -/
  | packet (k : Packet)
  | atomic (tile pa op : Nat) (ty : Ty) (b c : DWord)
  | reduction (tile pa op : Nat) (ty : Ty) (v : DWord)
  /-- a frame to be imported from an area of host memory (17 R372; 09 R223) -/
  | frame (area : Nat)
  deriving DecidableEq, Repr

/-- Whose access arrives at a home: a unit that keeps no place, the lanes of a group, an engine operation by its class and place, or a
request from outside (14 R314, R326). -/
inductive Asker where
  | unit
  | lanes (g : Nat)
  | op (g cls pos : Nat)
  | req (h : HeldReq)
  deriving DecidableEq, Repr

/-- A partition, its registers and its dispatcher (12 R274; 14; 15; 16; 17; 18; 19; 20). -/
structure Part where
  tag : Nat
  /-- tiles in partition-local order (01 R27) -/
  tiles : List Nat
  /-- the home map: entry i's tile id (14 R310); an unlisted entry has V clear -/
  homes : FMap Nat
  weight : Nat
  rxdrop : Nat
  stndrop : Nat
  epoch : Nat
  rekeyBusy : Bool
  /-- cause of the pending rekey: 0 VF, 1 PF, 2 requested during a reshape drain (20 R424) -/
  rekeyCause : Nat
  tvec : Nat
  s1root : Nat
  s1ctl : Nat
  pcarve : Nat × Nat × Nat
  maxcls : Nat
  wdlog : Nat
  guar : Nat
  burst : Nat
  res : Nat
  s2root : Nat
  /-- stage-2 pages that walks have used and the device has not seen changed: IPA, PA, size (14 R315) -/
  seen : List (Nat × Nat × Nat)
  s2seq : Nat
  s2drop : Bool
  s2busy : Bool
  s2status : Nat
  fqbase : Nat
  fqen : Bool
  fqsz : Nat
  fqci : Nat
  fqpi : Nat
  /-- records of the VF fault queue posted and not answered: record number and fault, none for a fatal record -/
  fqOpen : List (Nat × Option FaultKey)
  /-- fatal records that wait for room -/
  fatals : List (List Byte)
  /-- the stage-1 queue's posted records -/
  s1Open : List (Nat × Option FaultKey)
  /-- faults of dispatcher accesses that were denied, until the dispatcher has acted on them (16 R349) -/
  denied : List FaultKey
  s1pi : Nat
  s1ci : Nat
  nqbase : Nat
  nqen : Bool
  nqsz : Nat
  nqovf : Bool
  nqci : Nat
  nqpi : Nat
  nqlost : Nat
  acthr : Nat
  act : FMap ActEnt
  /-- a managed frame of the partition being moved (15 R340), and the region that a migrate-in command brings in (R341) -/
  move : Option Move
  mig : Option (Nat × Nat)
  fwin : DWord
  fjob : DWord
  members : FMap DWord
  imports : FMap DWord
  exports : FMap DWord
  queues : FMap Queue
  /-- appended records not yet taken, in the order of their appends (16 R347) -/
  appended : List Append
  /-- next number of the record sequence -/
  seq : Nat
  tasks : FMap Task
  ctxs : FMap SaveCtx
  ctxDrop : Bool
  ctxBusy : Bool
  ctxStatus : Nat
  fipa : Nat
  imgsz : Nat
  impseq : Nat
  stopped5 : Bool
  /-- the migration key held: its number (20 R419) -/
  migKey : Option Nat
  /-- role and peer of a migration-key exchange in progress -/
  migWait : Option (Nat × List Byte × Nat)
  /-- numbers of the fabric keys of bound imports, by import (20 R418) -/
  bound : FMap Nat
  /-- number of the world's memory key; a new number at create and FLR (18 R386; 17 R374) -/
  world : Nat
  /-- number of the world's traffic key, which a rekey changes too (18 R386, R387) -/
  traffic : Nat
  /-- number of the partition attestation key, generated at create (20 R413) -/
  attKey : Nat
  dirtyOn : Bool
  dirty : List Nat
  /-- holder of the serialisation token, and groups that wait for it (09 R223) -/
  token : Option Nat
  tokenQ : List Nat
  tdi : Tdi
  session : Bool
  fwAck : Option (List Byte)
  /-- registers of measurement 5 as LOCK fixed them -/
  meas5 : Option (List Byte)
  sgen : Nat
  ideKey : Option Nat
  /-- drained: issue stands stopped, since this cycle -/
  stopped : Bool
  stopAt : Nat
  /-- the commands that wait for a drain, oldest first (17 R366) -/
  pend : List Cmd
  /-- a tile was lost and its loss disconnects the partition: drained until the host reshapes it (17 R377) -/
  lost : Bool
  /-- requests from outside that are held, oldest first -/
  heldReqs : List HeldReq
  tcyc : Nat
  tcycAt : Nat
  frmt : Nat
  fabtx : Nat
  fabrx : Nat
  lnch : Nat
  enqc : Nat
  useSeq : Nat
  usePrev : List Byte
  usagePf : Ring
  usageVf : Ring
  eventPf : Ring
  eventVf : Ring
  evSeq : Nat
  /-- the partition event log -/
  log : List (List Byte)
  /-- fabric launches started in the job (19 R406) -/
  fabLaunches : Nat
  /-- symbols of the open fabric phases, each with its rank: at rank 0 those received and its own, at another member its own -/
  symbols : List (BarSym × Nat)
  /-- fabric launches of the job that have completed here, with their barrier counts: their lanes count as arrived (08 R187) -/
  fabEnded : List (Nat × Nat)
  deriving DecidableEq, Repr

/-- A laser failure in progress (19 R405; 26 R449, R450): the module, whether this wafer's own laser failed, the cycle of the
first lost beat (for a peer's laser: of detection), lossy flits dropped since, exact flits replayed since, and whether the loss
has been detected. -/
structure LightLoss where
  laser : Nat
  own : Bool
  time : Nat
  lost : Nat
  nums : List Nat
  seen : Bool
  /-- after the restripe, the cycle in which the replay over the new stripe ends (19 R405 step 3) -/
  ends : Option Nat
  deriving DecidableEq, Repr

/-- Whose access to the fabric a run of flits carries: a lane's, or an engine operation's by class and place. -/
inductive Owner where
  | lane (g i : Nat)
  | op (g cls pos : Nat)
  deriving DecidableEq, Repr

/-- An access to the fabric that its remote home has not acknowledged: its last flit, its number of flits, the wafer, and whose it
is, with its VA (19 R402, R404). -/
structure Owed where
  seq : Nat
  va : Nat
  n : Nat
  wafer : Nat
  launch : Nat
  who : Owner
  deriving DecidableEq, Repr

/-- A port of the fabric (19 R393 to R396, R404, R405). -/
structure Port where
  en : Bool
  st : Nat
  reason : Nat
  good : BitVec 16
  ver : Nat
  peerw : Nat
  peerp : Nat
  replays : Nat
  lossydrop : Nat
  /-- laser modules that emit -/
  lit : BitVec 4
  /-- exact flits sent and not acknowledged -/
  replayBuf : List Nat
  /-- accesses whose acknowledgements are still to come, oldest first -/
  owed : List Owed
  nextTx : Nat
  nextRx : Nat
  trainAt : Nat
  /-- laser failures in progress -/
  loss : List LightLoss
  /-- lossy flits dropped since the last intact flit, and numbers sent again since then -/
  badRun : Nat
  badNums : List Nat
  /-- how many flits at the end of the replay buffer wait for a dark link and the replay after it (26 R449) -/
  unsent : Nat
  /-- the cycle by which the mesh has brought the port every flit of its replay buffer (18 R378) -/
  feedAt : Nat
  deriving DecidableEq, Repr

/-- An edge resource's output: the packets that wait in the order of their arrival, the cycle from which it is free, each tag's
credit in flits, and the tag whose turn it is (18 R384). -/
structure Edge where
  wait : List Packet
  freeAt : Nat
  credit : FMap Nat
  turn : Nat
  deriving DecidableEq, Repr

/-- A command interface: SEQ, DROP, BUSY, STATUS (18 R390; 20 R418). -/
structure CmdStat where
  seq : Nat
  drop : Bool
  busy : Bool
  status : Nat
  deriving DecidableEq, Repr

/-- The word being issued: one PC-set of a core, group by group (01 R20 to R22, 12 R270). -/
structure Cur where
  tile : Nat
  core : Nat
  slot : Nat
  pc : BitVec 64
  /-- bits of the word -/
  word : Nat
  /-- the group whose turn it is -/
  g : Nat
  /-- groups still to come -/
  todo : List Nat
  /-- the lanes of each group that the word was selected for: each lane follows one word of a cycle (01 R20) -/
  lanes : FMap (List Nat)
  /-- some lane of the PC-set passes the guard (01 R22) -/
  anyAct : Bool
  /-- the word is the second of its cycle -/
  second : Bool
  /-- a ready PC-set of the core belongs to neither word of the cycle (01 R45) -/
  waiting : Bool
  /-- the program counter and lanes of a second word of this cycle, if one may issue -/
  next : Option (BitVec 64 × FMap (List Nat))
  /-- groups that trapped in this word: the second word does not issue in them (12 R271) -/
  trapped : List Nat
  /-- the word's yielded lanes as they stood before it, each with its group and debts (01 R44) -/
  yields : List (Nat × Nat × List Nat)
  deriving DecidableEq, Repr

/-- A turn of the agenda (log 1). -/
inductive Turn where
  | event (i : Instr)
  | issue (tile core : Nat)
  deriving DecidableEq, Repr

/-- What a read of the host interface or an SPDM exchange answered. -/
inductive Reply where
  | value (v : Nat)
  | bytes (bs : List Byte)
  | refusal
  /-- to another wafer: a poisoned read or atomic (07 R180), an acknowledgement (19 R402), a fabric barrier symbol (19 R407) -/
  | poisoned (bs : List Byte)
  | ack
  | symbol (wafer : Nat) (id : BarSym) (rank : Nat) (release : Bool)
  /-- to the peer of a port: a request to replay from a number on (19 R404) -/
  | replay (port seq : Nat)
  | irq (function vector : Nat)
  | record (bs : List Byte)
  deriving DecidableEq, Repr

/-- The machine. -/
structure State where
  /-- sr.clock (01 R38) -/
  clock : Nat
  /-- bytes of every space, by location -/
  mem : Memory
  /-- poisoned lines -/
  poison : List Nat
  groups : FMap Group
  launches : FMap Launch
  ops : FMap EngOp
  calls : FMap Call
  /-- cores, keyed 4 × tile + core; unlisted: as at reset -/
  cores : FMap Core
  tiles : FMap Tile
  parts : FMap Part
  /-- class entries by 64 KiB granule, and directory entries by line -/
  classes : FMap ClassEnt
  dir : FMap DirEnt
  /-- accesses held at a home in the order of their arrival, each with what holds it (14 R314, R317, R326) -/
  arrivals : List (Block × Asker)
  ports : FMap Port
  /-- edge resources: 0 to 31 memory controllers, 32 to 47 optical ports, 48 to 51 host ports; unlisted: idle (18 R384) -/
  edges : FMap Edge
  /-- route table entries by wafer (19 R397) -/
  routes : FMap DWord
  waferid : Nat
  dm : CmdStat
  km : CmdStat
  staged : Nat
  stagedDigest : List Byte
  fused : Nat
  active : List Byte
  /-- security version of the active image, and the image before it (20 R421) -/
  activeSvn : Nat
  prev : List Byte × Nat
  lcs : Nat
  identity : Bool
  mpool : Nat
  pwrlim : Nat
  trip : Nat
  tripped : Bool
  /-- arithmetic clock in MHz (00 R8) -/
  mhz : Nat
  keySlots : Nat
  nextKey : Nat
  frames : FMap Frame
  images : List Image
  /-- exported frames: area, migration key, frame bytes, poisoned lines, and what host memory holds (17 R372) -/
  exportsOut : List (Nat × Nat × List Byte × List Nat × List Byte)
  devRing : Ring
  devSeq : Nat
  devLog : List (List Byte)
  /-- records that Damson has of tag, directory and class entries lost to an error: the cycle, the tile and the entry (14 R324) -/
  damson : List (Nat × Nat × SramHit)
  /-- firmware activation holds commands and TDISP requests, in the order of their arrival (20 R420) -/
  fwHold : Bool
  heldCmds : List Held
  /-- interrupts and replies the host has been sent, newest first -/
  out : List Reply
  /-- MODEL (log 1): the turns still to come -/
  agenda : List Turn
  /-- MODEL (log 1): the core whose turn is next -/
  cursor : Nat
  /-- MODEL (log 1): the word being issued -/
  cur : Option Cur
  /-- MODEL (log 6): the counter that free values are applied to -/
  fresh : Nat
  /-- MODEL: the number the next group, launch, operation or call takes -/
  nextId : Nat
  deriving DecidableEq, Repr

def Ring.reset : Ring := { base := 0, en := false, sz := 0, ovf := false, ci := 0, pi := 0, held := [], lost := 0, last := none }

/-- A port at reset: DISABLED (19 R395, R396); every laser module lit, DESIGN CHOICE (log 4). -/
def Port.reset : Port :=
  { en := false, st := 0, reason := 0, good := 0, ver := 0, peerw := 0, peerp := 0, replays := 0, lossydrop := 0, lit := 15,
    replayBuf := [], owed := [], nextTx := 0, nextRx := 0, trainAt := 0, loss := [], badRun := 0, badNums := [], unsent := 0, feedAt := 0 }

/-- A core at reset: slot 15 counts as last selected (16 R357). -/
def Core.reset : Core :=
  { l1 := [], tlb := [], last := 15, since := [], slog := [], maps := [], resets := 0, wdlog := 24, reserve := none, pre := none, mxTime := 0, freezing := [],
    given := [] }

/-- A tile at reset; PCARVE's reset fields are in effect (14 R305). -/
def Tile.reset : Tile :=
  { cbufs := [], waiters := [], tlb := [], walks := [], rdc := [], l2 := [], stable := [], wq := [], sloe := [], faults := [], drop := none,
    flows := [], gated := [], waking := [], corr := [], carve := (12, 48, 32), failed := false, retired := false, table := [], tree := none }

/-- A queue at reset (16 R346). -/
def Queue.reset : Queue :=
  { en := false, dev := false, log2n := 2, set := 0, budget := 0, badtail := false, fulldrop := false,
    levels := [⟨0, 0, 0⟩, ⟨0, 0, 0⟩, ⟨0, 0, 0⟩, ⟨0, 0, 0⟩] }

def CmdStat.reset : CmdStat := { seq := 0, drop := false, busy := false, status := 0 }

/-- The machine right after reset (20 R426): every SRAM and HBM byte zero, no partition, every port disabled. -/
def State.reset : State :=
  { clock := 0, mem := [], poison := [], groups := [], launches := [], ops := [], calls := [], cores := [], tiles := [],
    parts := [], classes := [], dir := [], arrivals := [], ports := [], edges := [], routes := [], waferid := 0, dm := CmdStat.reset, km := CmdStat.reset,
    staged := 0, stagedDigest := [], fused := 0, active := [], activeSvn := 0, prev := ([], 0), lcs := 2, identity := true, mpool := 0, pwrlim := 28000,
    trip := 0, tripped := false, mhz := 1750, keySlots := 0, nextKey := 0, frames := [], images := [],
    exportsOut := [], devRing := Ring.reset, devSeq := 0, devLog := [], damson := [], fwHold := false, heldCmds := [], out := [], agenda := [], cursor := 0,
    cur := none, fresh := 0, nextId := 0 }

end Sys2Proof.Machine
end

