-- ==== Sys2Proof/Machine/Ops.lean ====
section
/-!
DEFINITION. Operations over the state that every family shares: tables, bytes and poison of memory, groups and lanes, trap
entry and return (spec 12 R269 to R277), region abort (09 R220), and the frame in which a word issues for one group: readiness,
decode checks in their order (02 R62), the region's admission (09 R211), the effect, and what issue itself leaves behind
(program counter, chain, hints).
-/

namespace Sys2Proof.Machine

/-! ### Tables -/

/-- The first entry of key k. -/
def FMap.look {α : Type} : FMap α → Nat → Option α
  | [], _ => none
  | (j, a) :: m, k => if j = k then some a else FMap.look m k

/-- Without any entry of key k. -/
def FMap.remove {α : Type} : FMap α → Nat → FMap α
  | [], _ => []
  | (j, a) :: m, k => if j = k then FMap.remove m k else (j, a) :: FMap.remove m k

/-- An entry put before the first larger key. -/
def FMap.insert' {α : Type} : FMap α → Nat → α → FMap α
  | [], k, a => [(k, a)]
  | (j, b) :: m, k, a => if k < j then (k, a) :: (j, b) :: m else (j, b) :: FMap.insert' m k a

/-- Entry k set to a. -/
def FMap.setAt {α : Type} (m : FMap α) (k : Nat) (a : α) : FMap α := (m.remove k).insert' k a

/-- Entry k of a table whose unlisted entries are d. -/
def FMap.lookD {α : Type} (m : FMap α) (d : α) (k : Nat) : α := (m.look k).getD d

/-- Entry k set to a in a table whose unlisted entries are d: an entry equal to d is not listed. -/
def FMap.putD {α : Type} [DecidableEq α] (m : FMap α) (d : α) (k : Nat) (a : α) : FMap α :=
  if a = d then m.remove k else m.setAt k a

/-- Every value changed by f. -/
def FMap.mapV {α β : Type} (m : FMap α) (f : Nat → α → β) : FMap β := m.map (fun e => (e.1, f e.1 e.2))

/-- Only the entries that f accepts. -/
def FMap.keep {α : Type} (m : FMap α) (f : Nat → α → Bool) : FMap α := m.filter (fun e => f e.1 e.2)

def FMap.keys {α : Type} (m : FMap α) : List Nat := m.map Prod.fst

/-- Rising keys. -/
def FMap.sorted {α : Type} : FMap α → Bool
  | [] => true
  | [_] => true
  | (j, _) :: (k, b) :: m => decide (j < k) && FMap.sorted ((k, b) :: m)

/-- A set of numbers as a rising list: k added. -/
def setAdd : List Nat → Nat → List Nat
  | [], k => [k]
  | j :: m, k => if k < j then k :: j :: m else if k = j then j :: m else j :: setAdd m k

/-- Replace the element at index i. -/
def listSet {α : Type} : List α → Nat → α → List α
  | [], _, _ => []
  | _ :: l, 0, a => a :: l
  | b :: l, i + 1, a => b :: listSet l i a

def sumOf (l : List Nat) : Nat := l.foldl (· + ·) 0

/-- The largest element, 0 for none. -/
def maxOf (l : List Nat) : Nat := l.foldl Nat.max 0

/-! ### Integers -/

/-- val() of 04 R97 for a value of w bits: two's complement when signed. -/
def valOf (signed : Bool) (w : Nat) (x : Nat) : Int :=
  let y := x % 2 ^ w
  if signed && decide (2 ^ (w - 1) ≤ y) then (y : Int) - (2 ^ w : Nat) else (y : Int)

/-- An integer modulo 2^w. -/
def modW (w : Nat) (i : Int) : Nat := (i % ((2 ^ w : Nat) : Int)).toNat

/-- The low `from` bits of x, sign-extended, modulo 2^to. -/
def sextN (from_ to_ x : Nat) : Nat := modW to_ (valOf true from_ x)

def bitN (x n : Nat) : Bool := x.testBit n

/-- Bits hi down to lo. -/
def bitsN (x hi lo : Nat) : Nat := (x >>> lo) % 2 ^ (hi + 1 - lo)

def roundUp (x k : Nat) : Nat := (x + k - 1) / k * k

/-! ### Locations and bytes (00 R11, 01 R41, R43) -/

def kib : Nat := 1024
def lineBytes : Nat := 64
/-- A TM physical address (01 R43): tile id in bits 33:24 and the offset's bits 23:0. A TM region may reach 22 MiB (14 R306, R307), for
which those bits are too few: bit 24 of an offset stands in bit 34 (DESIGN CHOICE, log 74). -/
def tmPa (tile off : Nat) : Nat := 2 ^ 45 + off / 2 ^ 24 * 2 ^ 34 + tile * 2 ^ 24 + off % 2 ^ 24
/-- Location of byte off of a core's unified store, used for scratch. -/
def storeLoc (tile core off : Nat) : Nat := 2 ^ 48 + (4 * tile + core) * 2 ^ 24 + off
/-- Location of a byte of host memory. -/
def hostLoc (a : Nat) : Nat := 2 ^ 64 + a % 2 ^ 64

/-- Memory's canonical form: rising locations, no zero byte listed. -/
abbrev Memory.wf (m : Memory) : Prop := FMap.sorted m = true ∧ (m.all (fun e => e.2 != 0)) = true

def State.byteAt (s : State) (loc : Nat) : Byte := FMap.lookD s.mem 0 loc

def State.setByte (s : State) (loc : Nat) (b : Byte) : State := { s with mem := FMap.putD s.mem 0 loc b }

/-- n bytes, little-endian (00 R11). -/
def State.readN (s : State) (loc : Nat) : Nat → Nat
  | 0 => 0
  | n + 1 => (s.byteAt loc).toNat + 256 * State.readN s (loc + 1) n

/-- n bytes of v, little-endian. -/
def State.writeN (s : State) (loc : Nat) : Nat → Nat → State
  | 0, _ => s
  | n + 1, v => State.writeN (s.setByte loc (BitVec.ofNat 8 v)) (loc + 1) n (v / 256)

def State.readBytes (s : State) (loc n : Nat) : List Byte := (List.range n).map (fun i => s.byteAt (loc + i))

def State.writeBytes (s : State) (loc : Nat) : List Byte → State
  | [] => s
  | b :: bs => State.writeBytes (s.setByte loc b) (loc + 1) bs

def lineOf (loc : Nat) : Nat := loc / lineBytes

def State.isPoisoned (s : State) (loc : Nat) : Bool := s.poison.contains (lineOf loc)

def State.setPoison (s : State) (line : Nat) : State := { s with poison := setAdd s.poison line }

def State.clearPoison (s : State) (line : Nat) : State := { s with poison := s.poison.filter (· != line) }

/-- Zeros in n bytes from loc, poison of whole lines cleared (14 R308, R326). Works on the listed bytes only. -/
def State.zeroRange (s : State) (loc n : Nat) : State :=
  { s with mem := s.mem.filter (fun e => !(loc ≤ e.1 && e.1 < loc + n)),
           poison := s.poison.filter (fun l => !(loc ≤ l * lineBytes && l * lineBytes + lineBytes ≤ loc + n)) }

/-- The pieces of n bytes of a tile's slice from an offset, as (physical address, bytes): those below 16 MiB and those above. -/
def tmPieces (tile off n : Nat) : List (Nat × Nat) :=
  if off < 2 ^ 24 ∧ 2 ^ 24 < off + n then [(tmPa tile off, 2 ^ 24 - off), (tmPa tile (2 ^ 24), off + n - 2 ^ 24)] else [(tmPa tile off, n)]

/-- Zeros in n bytes of a tile's slice. -/
def State.zeroTm (s : State) (tile off n : Nat) : State := (tmPieces tile off n).foldl (fun s q => s.zeroRange q.1 q.2) s

/-- Copy of the listed bytes of n bytes from a to b, which are disjoint (17 R376, 18 R392). -/
def State.moveRange (s : State) (a b n : Nat) : State :=
  let listed := s.mem.filter (fun e => a ≤ e.1 && e.1 < a + n)
  let lines := s.poison.filter (fun l => a ≤ l * lineBytes && l * lineBytes < a + n)
  let s1 := s.zeroRange b n
  let s2 := listed.foldl (fun t e => t.setByte (b + (e.1 - a)) e.2) s1
  lines.foldl (fun t l => t.setPoison (lineOf (b + (l * lineBytes - a)))) s2

/-! ### Groups, lanes, cores, tiles, partitions -/

def State.coreAt (s : State) (tile core : Nat) : Core := s.cores.lookD Core.reset (4 * tile + core)
def State.setCore (s : State) (tile core : Nat) (c : Core) : State := { s with cores := s.cores.setAt (4 * tile + core) c }
def State.updCore (s : State) (tile core : Nat) (f : Core → Core) : State := s.setCore tile core (f (s.coreAt tile core))
def State.tileAt (s : State) (t : Nat) : Tile := s.tiles.lookD Tile.reset t
def State.setTile (s : State) (t : Nat) (x : Tile) : State := { s with tiles := s.tiles.setAt t x }
def State.updTile (s : State) (t : Nat) (f : Tile → Tile) : State := s.setTile t (f (s.tileAt t))
def State.setGroup (s : State) (g : Nat) (x : Group) : State := { s with groups := s.groups.setAt g x }
def State.updGroup (s : State) (g : Nat) (f : Group → Group) : State :=
  match s.groups.look g with
  | none => s
  | some x => s.setGroup g (f x)
def State.updPart (s : State) (p : Nat) (f : Part → Part) : State :=
  match s.parts.look p with
  | none => s
  | some x => { s with parts := s.parts.setAt p (f x) }
def State.updLaunch (s : State) (l : Nat) (f : Launch → Launch) : State :=
  match s.launches.look l with
  | none => s
  | some x => { s with launches := s.launches.setAt l (f x) }
def State.updOp (s : State) (n : Nat) (f : EngOp → EngOp) : State :=
  match s.ops.look n with
  | none => s
  | some x => { s with ops := s.ops.setAt n (f x) }

/-- The launch of a group. -/
def State.launchOf (s : State) (G : Group) : Option Launch := s.launches.look G.launch
/-- The partition of a group, 0 when its launch is gone. -/
def State.partNo (s : State) (G : Group) : Nat := match s.launchOf G with | some L => L.part | none => 0
def State.partOf (s : State) (G : Group) : Option Part := s.parts.look (s.partNo G)

def Lane.vreg (l : Lane) (n : Nat) : Word := l.v.lookD 0 n
def Lane.vpsn (l : Lane) (n : Nat) : Bool := l.vPsn.contains n
/-- A vector register written, with its poison mark (07 R179). -/
def Lane.setV (l : Lane) (n : Nat) (x : Word) (psn : Bool) : Lane :=
  { l with v := l.v.putD 0 n x, vPsn := if psn then setAdd l.vPsn n else l.vPsn.filter (· != n) }
/-- A predicate; p15 reads true (01 R35). -/
def Lane.pred (l : Lane) (n : Nat) : Bool := n == 15 || l.p.getLsbD n
/-- A predicate written; p15 discards (01 R35). -/
def Lane.setPred (l : Lane) (n : Nat) (b : Bool) : Lane :=
  if n == 15 then l else { l with p := if b then l.p ||| BitVec.twoPow 16 n else l.p &&& ~~~(BitVec.twoPow 16 n) }
/-- Does the guard pass (01 R35)? Bit 4 inverts. -/
def Lane.guard (l : Lane) (gd : BitVec 5) : Bool := (l.pred (gd.toNat % 16)) != gd.getLsbD 4
/-- The latches shifted, l0 taking a value (01 R31); marks move with the values. -/
def Lane.shift (l : Lane) (x : DWord) (psn : Bool) : Lane :=
  { l with lat := { l0 := ⟨x, true, psn, false⟩, l1 := l.lat.l0, l2 := l.lat.l1, l3 := l.lat.l2 } }
/-- The latches shifted by an ENQ, whose status is still to come. -/
def Lane.shiftEnq (l : Lane) : Lane :=
  { l with lat := { l0 := ⟨0, true, false, true⟩, l1 := l.lat.l0, l2 := l.lat.l1, l3 := l.lat.l2 } }
/-- The latch that waits for an ENQ's status takes it, wherever it has moved since (08 R184). -/
def Lane.fillEnq (l : Lane) (v : DWord) : Lane :=
  let f := fun (x : Latch) => if x.enq then { x with val := v, enq := false } else x
  { l with lat := { l0 := f l.lat.l0, l1 := f l.lat.l1, l2 := f l.lat.l2, l3 := f l.lat.l3 } }
def Lane.latch (l : Lane) (n : Nat) : Latch :=
  match n with | 0 => l.lat.l0 | 1 => l.lat.l1 | 2 => l.lat.l2 | _ => l.lat.l3
/-- The marks of the latches cleared, as at the start of a chain (01 R32). -/
def Lane.clearMarks (l : Lane) : Lane :=
  { l with lat := { l0 := { l.lat.l0 with valid := false }, l1 := { l.lat.l1 with valid := false },
                    l2 := { l.lat.l2 with valid := false }, l3 := { l.lat.l3 with valid := false } } }

/-- A scalar register; s0 reads its constant zero (02 R50). -/
def Group.sreg (G : Group) (n : Nat) : DWord := if n == 0 then 0 else G.s.lookD 0 n
def Group.spsn (G : Group) (n : Nat) : Bool := n != 0 && G.sPsn.contains n
/-- A scalar register written; s0 discards (02 R50). -/
def Group.setS (G : Group) (n : Nat) (x : DWord) (psn : Bool) : Group :=
  if n == 0 then G
  else { G with s := G.s.putD 0 n x, sPsn := if psn then setAdd G.sPsn n else G.sPsn.filter (· != n) }

def Group.lane? (G : Group) (i : Nat) : Option Lane := G.lanes[i]?
def Group.updLane (G : Group) (i : Nat) (f : Lane → Lane) : Group := { G with lanes := G.lanes.modify i f }
def Group.updLanes (G : Group) (is : List Nat) (f : Nat → Lane → Lane) : Group :=
  { G with lanes := G.lanes.mapIdx (fun i l => if is.contains i then f i l else l) }
def Group.laneTest (G : Group) (i : Nat) (f : Lane → Bool) : Bool := match G.lane? i with | some l => f l | none => false
/-- Lanes of the group that have not exited. -/
def Group.live (G : Group) : List Nat := (List.range G.lanes.length).filter (fun i => G.laneTest i (fun l => !l.exited))
/-- sr.group (01 R38). -/
def Group.number (G : Group) : Nat := G.slot * (64 / G.w) + G.pos

/-- Asynchronous counter of a class: 0 cp, 1 mx, 2 nm, 3 cl (01 R37). -/
def Group.counter (G : Group) (cls : Nat) : Nat := G.cnt.lookD 0 cls

/-- The level of a launch that R26 names: the highest, or the lowest, level of a domain. -/
def Rec.highest (r : Rec) (dom : Nat) : Option Nat :=
  ((List.range r.levels.length).filter (fun i => (r.levels[i]?.map Level.dom) == some dom)).getLast?
def Rec.lowest (r : Rec) (dom : Nat) : Option Nat :=
  ((List.range r.levels.length).filter (fun i => (r.levels[i]?.map Level.dom) == some dom)).head?
def Rec.ext (r : Rec) (i : Nat) : Nat := match r.levels[i]? with | some l => l.ext | none => 1
/-- N_i: lanes of one level-i unit (01 R23). -/
def Rec.lanesOf (r : Rec) (i : Nat) : Nat := (List.range i).foldl (fun n j => n * r.ext j) 1
def Rec.w (r : Rec) : Nat := 8 * 2 ^ r.wcode
/-- sr.idx_i of the lane at linear position n (01 R25). -/
def Rec.idx (r : Rec) (i n : Nat) : Nat := if r.levels.length ≤ i then 0 else n / r.lanesOf i % r.ext i
/-- Number, in launch linear order, of the level-i unit that holds linear position n. -/
def Rec.unitOf (r : Rec) (i n : Nat) : Nat := n / r.lanesOf i

/-- The unit whose scratch a group uses: of the lowest core-domain level, or the group itself (01 R26). -/
def Rec.scrUnit (r : Rec) (lin : Nat) : Nat :=
  match r.lowest 2 with | some i => r.unitOf i lin | none => lin / r.w

/-- Scratch base of a group in its core's unified store. -/
def Launch.scrBase (L : Launch) (lin : Nat) : Nat :=
  match L.scr.find? (fun a => a.unit == L.rc.scrUnit lin) with | some a => a.base | none => 0
/-- TM range of the unit of the lowest tile-domain level that holds a linear position (07 R169, 14 R307). -/
def Launch.tmOf (L : Launch) (lin : Nat) : Option Alloc :=
  match L.rc.lowest 3 with
  | some i => L.tm.find? (fun a => a.unit == L.rc.unitOf i lin)
  | none => none

/-! ### Barriers (08 R193) -/

def domLevel (r : Rec) (dom : Nat) : Option Nat := r.highest dom
/-- The unit of a barrier of domain dom that a linear position belongs to; a fabric barrier has one unit per launch. -/
def Rec.barUnit (r : Rec) (dom lin : Nat) : Nat :=
  match r.highest dom with | some i => r.unitOf i lin | none => 0
/-- Is a barrier of a domain one of fabric or system scope, that of its level (01 R26; 08 R195)? Its arrivals are then releases at that
scope. -/
def Rec.barFar (r : Rec) (dom : Nat) : Bool :=
  dom == 5 || (match domLevel r dom with | some i => (match r.levels[i]? with | some l => decide (4 ≤ l.scope) | none => false) | none => false)
def phaseKey (dom unit id : Nat) : Nat := 2 ^ 40 * dom + 2 ^ 8 * unit + id
def Launch.phaseOf (L : Launch) (dom unit id : Nat) : Nat := L.phase.lookD 0 (phaseKey dom unit id)
def Lane.arrived (l : Lane) (dom id : Nat) : Option Nat := l.arr.look (16 * dom + id)

/-! ### Readiness (01 R19, R46) -/

def chanLen (s : State) (tile ch : Nat) : Nat :=
  (s.ops.filter (fun e => e.2.tile == tile && e.2.ch == ch && decide (e.2.kind < 0x100) && !e.2.fin)).length
def jobLen (s : State) (tile core : Nat) : Nat :=
  (s.ops.filter (fun e => e.2.tile == tile && e.2.core == core && decide (0x100 ≤ e.2.kind) && decide (e.2.kind < 0x200) &&
    !e.2.fin)).length
def State.hasFault (s : State) (k : FaultKey) : Bool := (s.tileAt k.tile).faults.any (fun f => f.key == k)
/-- A line that a serialised region holds locked, of a group other than g (09 R223). -/
def State.lockedFor (s : State) (g : Option Nat) (line : Nat) : Bool :=
  s.groups.any (fun e => g != some e.1 && (match e.2.region with
    | some r => r.ser && (s.partOf e.2).any (fun p => p.token == some e.1) &&
        (r.inputs.any (fun x => lineOf x.pa == line) || r.stores.any (fun x => lineOf x.pa == line))
    | none => false))
def cpycbPending (s : State) (tile b : Nat) : Bool :=
  s.ops.any (fun e => e.2.tile == tile && e.2.kind == 2 && !e.2.fin && ((e.2.ops[0]?).map BitVec.toNat) == some b)

/-- Have lanes of a group entries in the side log (07 R163)? An access of the whole group belongs to each of its active lanes. -/
def slgHolds (s : State) (g : Nat) (G : Group) (ls : List Nat) : Bool :=
  (s.coreAt G.tile G.core).slog.any (fun e => e.g == g && e.accs.any (fun a => a.lanes.any ls.contains))

/-- Do remote homes still owe lanes of a group an acknowledgement (19 R402)? -/
def fabOwes (s : State) (g : Nat) (ls : List Nat) : Bool :=
  s.ports.any (fun e => e.2.owed.any (fun o => match o.who with | .lane h i => h == g && ls.contains i | .op _ _ _ => false))

/-- Do remote homes still owe an operation an acknowledgement? -/
def opOwes (s : State) (g cls pos : Nat) : Bool := s.ports.any (fun e => e.2.owed.any (fun o => o.who == .op g cls pos))

/-- Are the arrivals of a group at a barrier of a domain releases at fabric or system scope? -/
def barFar (s : State) (G : Group) (dom : Nat) : Bool := match s.launchOf G with | some L => L.rc.barFar dom | none => dom == 5

/-- Has a port room in its replay buffer for the flits of one instruction of 64 lanes, two flits each (19 R404; 26 R448)? -/
def portRoom (s : State) (k : Nat) : Bool :=
  match s.ports.look k with | some x => decide (x.replayBuf.length + 128 ≤ 8192) | none => true

/-- Does an access that was held still wait for what held it? -/
def Asker.waits (s : State) (b : Block) : Asker → Bool
  | .unit => false
  | .lanes g => (s.groups.look g).any (fun G => !G.frozen && (s.partOf G).any (fun p => !p.stopped || G.region.any Region.commit) &&
      G.lanes.any (fun l => l.block == b && !l.exited && !l.held))
  | .op g cls pos => s.ops.any (fun e => e.2.g == g && e.2.cls == cls && e.2.pos == pos && !e.2.fin && e.2.wait.isNone &&
      !(s.launches.look e.2.launch).any (fun L => (s.parts.look L.part).any Part.stopped))
  | .req h => s.parts.any (fun e => e.2.heldReqs.contains h && !e.2.stopped)

/-- Does an access that waits for the same stand before one's own? Of several that an agent has made, its first gives it its place. -/
def ahead (s : State) (me : Asker) (b : Block) : Bool :=
  (s.arrivals.takeWhile (fun e => e.2 != me)).any (fun e => e.1 == b && e.2.waits s b)

/-- An access that is held takes its place behind those that wait. -/
def State.queueUp (s : State) (me : Asker) (b : Block) : State :=
  if me = .unit ∨ (b, me) ∈ s.arrivals then s
  else { s with arrivals := s.arrivals.filter (fun e => e.2 == me || e.2.waits s e.1) ++ [(b, me)] }

/-- An access that goes on gives its places up. -/
def State.served (s : State) (me : Asker) (bs : List Block) : State :=
  { s with arrivals := s.arrivals.filter (fun e => e.2 != me || !bs.contains e.1) }

/-- Has every lane of the group exited while its asynchronous counters are not yet 0 (08 R188)? -/
def Group.ending (G : Group) : Bool := G.lanes.all Lane.exited && (List.range 4).any (fun c => G.counter c != 0)

/-- How a lane waits that counts as blocked (01 R46; 08 R190; 12 R281): the parked groups of 08 R189 hold no others. -/
def Block.parks : Block → Bool
  | .bar _ _ _ _ _ | .waita _ _ _ | .waitc _ _ | .cbwait _ _ _ _ | .cbgot _ _ _ | .fault _ _ _ _ | .grow _ | .stlbi | .sleep _ => true
  | _ => false

/-- Has what a lane is blocked by ended? Blocks that an event releases answer false. -/
def blockClear (s : State) (g : Nat) (G : Group) : Block → Bool
  | .free => true
  | .fault k _ _ _ => !s.hasFault k
  | .busy part _ => (match s.parts.look part with | some p => p.move.isNone | none => true)
  | .flush gr => (match s.classes.look gr with | some c => c.flush.isNone | none => true) && !ahead s (.lanes g) (.flush gr)
  | .acks line => (match s.dir.look line with | some d => d.pend.isNone | none => true) && !ahead s (.lanes g) (.acks line)
  | .wake t u => !(s.tileAt t).waking.contains u && !ahead s (.lanes g) (.wake t u)
  | .locked line => !s.lockedFor (some g) line
  | .sb k => G.sb.lookD 0 k == 0
  | .sbFull k => decide (G.sb.lookD 0 k < 7)
  | .cntFull cls => decide (G.counter cls < 63)
  | .chan ch => decide (chanLen s G.tile ch < 32)
  | .jobs => decide (jobLen s G.tile G.core < 16)
  | .slgOwn ls => !slgHolds s g G ls
  | .fabAck ls => !fabOwes s g ls
  | .port k => portRoom s k
  | .waitc cls n => decide (G.counter cls ≤ n) || (G.mreset && cls == 1)
  | .bar dom unit id ph _ => (match s.launchOf G with | some L => decide (ph < L.phaseOf dom unit id) | none => true)
  | .cbcfg b => !cpycbPending s G.tile b
  | .token => (match s.partOf G with | some p => p.token == some g | none => true)
  | .enq => G.enq.isNone
  | .waita _ _ _ | .cbwait _ _ _ _ | .cbgot _ _ _ | .sleep _ | .grow _ | .shrnk | .stlbi => false

/-- Has the group a commit past its first step, which completes before the group stops (09 R222)? -/
def Group.commits (G : Group) : Bool := match G.region with | some r => r.commit | none => false

/-- May the group issue at all: not frozen, counting down a STALL hint, in a stopped partition, or in a launch that has not started? -/
def groupMay (s : State) (G : Group) : Bool :=
  G.stall.isNone && !G.frozen && (match s.partOf G with | some p => !p.stopped || G.commits | none => true) &&
  (match s.launchOf G with | some L => !L.starting | none => true)

/-- Is lane i of group g ready (01 R19; 09 R207; 12 R273)? -/
def laneReady (s : State) (g : Nat) (G : Group) (i : Nat) : Bool :=
  groupMay s G && G.laneTest i (fun l => !l.exited && !l.held && blockClear s g G l.block) &&
  (!G.priv || G.emask.getLsbD i) && (match G.region with | some r => r.lanes.contains i | none => true)

/-- The issuing set of a group for the word being issued (01 R22): the lanes selected for it, but for those that the other
word of the cycle has stopped. A STALL hint of that word counts from its cycle, so it stops no lane of this one. -/
def issuing (s : State) (g : Nat) (G : Group) (u : Cur) : List Nat :=
  (u.lanes.lookD [] g).filter (fun i => laneReady s g { G with stall := none } i && G.laneTest i (fun l => l.pc == u.pc))

/-- The lanes of a set that pass the guard; the reserved guard lets all pass (02 R62). -/
def passing (G : Group) (iss : List Nat) (gd : BitVec 5) : List Nat :=
  iss.filter (fun i => gd == 31 || G.laneTest i (fun l => l.guard gd))

/-! ### Launch end and regions -/

/-- The records the device posts about a partition (20 R424): 32 bytes, without the sequence number. -/
def eventRecord (time etype : Nat) (body : List Byte) (seq : Nat) : List Byte :=
  leBytes 8 time ++ (body ++ leBytes 16 0).take 16 ++ leBytes 4 seq ++ leBytes 1 etype ++ leBytes 3 0

def Ring.entries (r : Ring) : Nat := 2 ^ (r.sz + 4)
def Ring.room (r : Ring) : Bool := decide ((r.pi + 2 ^ 32 - r.ci) % 2 ^ 32 < r.entries)

/-- Interrupts and replies to the host (20 R409). -/
def State.reply (s : State) (r : Reply) : State := { s with out := r :: s.out }

/-- A record written to a ring in host memory, an entry of n bytes, where R338 puts it (15 R338; 20 R423). -/
def putRecord (n : Nat) (s : State) (r : Ring) (rcd : List Byte) : State × Ring :=
  (s.writeBytes (hostLoc (r.base + 64 + n * (r.pi % r.entries))) rcd, { r with pi := (r.pi + 1) % 2 ^ 32 })

/-- Records posted in order while the ring has room; the rest stay held. -/
def Ring.flush (post : State → Ring → List Byte → State × Ring) : List (List Byte) → State → Ring → State × Ring
  | [], s, r => (s, { r with held := [] })
  | h :: hs, s, r => if r.room then let q := post s r h; Ring.flush post hs q.1 q.2 else (s, { r with held := h :: hs })

/-- At most 8 records are held: beyond them the oldest is dropped (20 R423). -/
def Ring.trim (r : Ring) : Ring := if r.held.length ≤ 8 then r else { r with held := r.held.drop 1, ovf := true, lost := r.lost + 1 }

/-- Held records posted while the ring is enabled and has room. -/
def Ring.serve (post : State → Ring → List Byte → State × Ring) (s : State) (r : Ring) : State × Ring :=
  if r.en then Ring.flush post r.held s r else (s, r)

/-- A record given to a ring: behind those that it holds; a disabled ring takes none (20 R423). -/
def Ring.give (post : State → Ring → List Byte → State × Ring) (s : State) (r : Ring) (rcd : List Byte) : State × Ring :=
  if !r.en then (s, r)
  else let q := Ring.flush post (r.held ++ [rcd]) s r; (q.1, q.2.trim)

/-- Has a record been written: a held one signals nothing until it is (20 R409). -/
def Ring.moved (a b : Ring) : Bool := a.pi != b.pi

/-- Vector 65 of a partition's VF: a new usage or event record. -/
def signalVf (s : State) (p : Nat) (a b : Ring) : State := if a.moved b then s.reply (.irq p 65) else s
/-- Vector 0 of each PF: the device event log. -/
def signalPfs (s : State) (a b : Ring) : State := if a.moved b then (List.range 4).foldl (fun s k => s.reply (.irq (64 + k) 0)) s else s

/-- A partition event record: to the log and to both rings (20 R423, R424). -/
def State.postEvent (s : State) (p etype : Nat) (body : List Byte) : State :=
  match s.parts.look p with
  | none => s
  | some P =>
    let rcd := eventRecord s.clock etype body P.evSeq
    let (s1, pf) := Ring.give (putRecord 32) s P.eventPf rcd
    let (s2, vf) := Ring.give (putRecord 32) s1 P.eventVf rcd
    signalVf (s2.updPart p (fun P => { P with evSeq := P.evSeq + 1, log := P.log ++ [rcd], eventPf := pf, eventVf := vf })) p P.eventVf vf

/-- A device event record (20 R424). -/
def State.postDevice (s : State) (etype : Nat) (body : List Byte) : State :=
  let rcd := eventRecord s.clock etype body s.devSeq
  let (s1, r) := Ring.give (putRecord 32) s s.devRing rcd
  signalPfs { s1 with devSeq := s1.devSeq + 1, devLog := s1.devLog ++ [rcd], devRing := r } s.devRing r

/-- Records posted with the time of what they report (20 R424). -/
def atTime (t : Nat) (f : State → State) (s : State) : State := { f { s with clock := t } with clock := s.clock }

/-- sr.arstat's fields (09 R209). -/
def arstatOf (cnt icnt idx code : Nat) (ser act : Bool) (cause : Nat) : DWord :=
  BitVec.ofNat 64 (cnt * 2 ^ 48 + icnt * 2 ^ 39 + idx * 2 ^ 32 + code * 2 ^ 16 + ser.toNat * 256 + act.toNat * 128 + cause)
def arCnt (x : DWord) : Nat := bitsN x.toNat 55 48
def arIcnt (x : DWord) : Nat := bitsN x.toNat 47 39
def arSer (x : DWord) : Bool := bitN x.toNat 8

/-- The serialisation token given up by group g (09 R223). -/
def dropToken (s : State) (g : Nat) (G : Group) : State :=
  s.updPart (s.partNo G) (fun p => { p with token := if p.token == some g then none else p.token,
                                            tokenQ := p.tokenQ.filter (· != g) })

/-- The lanes that a region's end releases: those outside it that were granted a slot of a circular buffer meanwhile (09 R207; 10 R238). -/
def Group.endWaits (G : Group) : Group :=
  let G1 := (G.lanes.map Lane.block).dedup.foldl (fun (G : Group) b => match b with
    | .cbgot v sd nw => if nw then G else G.setS sd.toNat (BitVec.ofNat 64 v) false
    | _ => G) G
  { G1 with lanes := G1.lanes.map (fun l => match l.block with
      | .cbgot v _ _ => { (l.shift (BitVec.ofNat 64 v) false) with block := .free }
      | _ => l) }

/-- Abort of a group's open region (09 R220): snapshots restored, tables emptied, the region lanes continue at FB. -/
def abortRegion (s : State) (g cause idx code : Nat) : State :=
  match s.groups.look g with
  | none => s
  | some G =>
    match G.region with
    | none => s
    | some r =>
      let G1 := { G with
        s := r.snapS, sPsn := r.snapSPsn, region := none,
        arstat := arstatOf (min (r.cnt + 1) 255) (arIcnt G.arstat) idx code (arSer G.arstat) false cause }
      let G2 := G1.updLanes r.lanes (fun i l =>
        { (l.clearMarks) with p := r.snapP.lookD l.p i, pc := r.fb, chain := 0, chainPc := r.fb, block := .free })
      (dropToken s g G).setGroup g G2.endWaits

/-- Every group of a launch stops issuing (12 R283): open regions abort with cause pre-emption, blocked and held lanes are
released without effect, and every lane ends. -/
def stopGroup (s : State) (g : Nat) : State :=
  let s1 := abortRegion s g 6 0 0
  let s2 := { s1 with
    tiles := s1.tiles.mapV (fun _ t => { t with
      waiters := t.waiters.filter (fun w => w.g != g),
      cbufs := t.cbufs.mapV (fun _ b => { b with waiters := b.waiters.filter (fun w => w.1 != g) }) }) }
  s2.updGroup g (fun G => { G with
    grow := none, shrnk := none, priv := false,
    lanes := G.lanes.map (fun l => { l with exited := true, block := .free, held := false, chain := 0, slg := [], deny := none }) })

/-- HALT's effect at the dispatcher (12 R283): the first code stands. -/
def haltLaunch (s : State) (lid code tile : Nat) : State :=
  match s.launches.look lid with
  | none => s
  | some L =>
    match L.halt with
    | some _ => s
    | none =>
      let s1 := s.updLaunch lid (fun L => { L with halt := some (code, tile) })
      s1.groups.keys.foldl (fun s g => if (s.groups.look g).any (fun G => G.launch == lid) then stopGroup s g else s) s1

/-! ### Traps (12 R269 to R277) -/

/-- What a trap records beyond its code (12 R269, R275). -/
structure TrapInfo where
  code : Nat
  addr : Nat := 0
  arg : Nat := 0
  dfr : Bool := false
  ecls : Nat := 0
  epos : Nat := 0
  slg : Bool := false
  fet : Bool := false
  s2 : Bool := false
  /-- TRAP resumes after itself (12 R280) -/
  after : Bool := false
  /-- the word that the trap reports, where it is not the one being issued (12 R278) -/
  word : Option Nat := none
  deriving DecidableEq, Repr

/-- sr.ecause (12 R275). -/
def TrapInfo.cause (t : TrapInfo) : DWord :=
  BitVec.ofNat 64 (t.code + t.arg * 2 ^ 8 + t.dfr.toNat * 2 ^ 16 + t.ecls * 2 ^ 17 + t.epos % 64 * 2 ^ 20 +
    t.slg.toNat * 2 ^ 26 + t.fet.toNat * 2 ^ 27 + t.s2.toNat * 2 ^ 28)

/-- Bit j set for each lane of a list. -/
def laneMask (ls : List Nat) : DWord := ls.foldl (fun m j => m ||| BitVec.twoPow 64 j) 0

/-- The 64-byte fatal record (15 R338): KIND 7. -/
def fatalRecord (G : Group) (t : TrapInfo) (word : Nat) : List Byte :=
  leBytes 8 t.addr ++ leBytes 8 0 ++ leBytes 4 (7 + t.code * 16 + G.tile * 2 ^ 12 + G.core * 2 ^ 22 + G.number * 2 ^ 24) ++
  leBytes 4 0 ++ leBytes 4 0 ++ leBytes 4 0 ++ leBytes 8 word ++ leBytes 4 (word / 2 ^ 64) ++ leBytes 20 0

/-- host_fatal (12 R277): the launch ends with halt code 0xFF and a fatal record waits for the VF fault queue. -/
def hostFatal (s : State) (G : Group) (t : TrapInfo) (word : Nat) : State :=
  let s1 := s.updPart (s.partNo G) (fun p => { p with fatals := p.fatals ++ [fatalRecord G t word] })
  haltLaunch s1 G.launch 0xFF 0xFFFF

/-- The resume address of a trap that strikes lanes T at pc (12 R269): a chain's first instruction, or after a TRAP. Where lanes at one
pc began different chains, the lowest-numbered lane's stands for all (01 R34; DESIGN CHOICE, log 75). -/
def resumePc (G : Group) (T : List Nat) (pc : BitVec 64) (t : TrapInfo) : BitVec 64 :=
  if t.after then pc + 12
  else match T.head? with
    | some i => (match G.lane? i with | some l => if l.chain = 0 then pc else l.chainPc | none => pc)
    | none => pc

/-- trap_entry (12 R272) for group g, whose issuing set is T, at pc; an open region aborts first and resumes at FB (09 R221). -/
def trapEntry (s : State) (g : Nat) (T : List Nat) (pc : BitVec 64) (word : Nat) (t : TrapInfo) : State :=
  match s.groups.look g with
  | none => s
  | some G0 =>
    let epc := match G0.region with | some r => r.fb | none => resumePc G0 T pc t
    let s0 := abortRegion s g 5 0 t.code
    match s0.groups.look g with
    | none => s0
    | some G =>
      let tvec := match s0.partOf G with | some p => p.tvec | none => 0
      if G.priv || tvec == 0 then hostFatal s0 G t (t.word.getD word)
      else
        let G1 := { G with
          epc := epc, ecause := t.cause, eaddr := BitVec.ofNat 64 t.addr, emask := laneMask T,
          einsl := if t.fet then 0 else BitVec.ofNat 64 (t.word.getD word),
          einsh := if t.fet then 0 else BitVec.ofNat 32 (t.word.getD word / 2 ^ 64),
          alatch := none, priv := true,
          lanes := G.lanes.mapIdx (fun i l =>
            if T.contains i then
              { (l.clearMarks) with pc := BitVec.ofNat 64 tvec, chain := 0, chainPc := BitVec.ofNat 64 tvec, yielded := none,
                                    wd := 0, wdDue := false, block := .free, held := false }
            else if l.exited then l
            else { (if l.chain = 0 then l else { (l.clearMarks) with pc := l.chainPc, chain := 0 }) with held := true }) }
        s0.setGroup g G1

/-- ERET's effect on its group (12 R277). -/
def eretGroup (G : Group) : Group :=
  { G with
    priv := false,
    lanes := G.lanes.mapIdx (fun i l =>
      let l1 := if G.emask.getLsbD i && !l.exited then
          { (l.clearMarks) with pc := G.epc, chain := 0, chainPc := G.epc, block := .free } else l
      { l1 with held := false }) }

/-! ### Issue of a word for one group -/

/-- What an issuing group sees: the word being issued, the group, its issuing set and its active lanes. -/
structure Ctx where
  u : Cur
  g : Nat
  G : Group
  iss : List Nat
  act : List Nat
  deriving DecidableEq, Repr

/-- The lowest-numbered active lane (04 R98). -/
def Ctx.low (x : Ctx) : Nat := x.act.headD 0

/-- The outcome of an instruction's own part. -/
inductive Res where
  /-- done; lanes listed in npc go there, the others to pc + 12 -/
  | done (s : State) (npc : FMap (BitVec 64))
  /-- the group traps and the instruction has no effect -/
  | trap (t : TrapInfo)
  /-- the group traps and the report that the trap makes is used up (10 R230) -/
  | report (t : TrapInfo) (s : State)
  /-- the issuing set is held at the instruction (07 R162) -/
  | hold (b : Block) (s : State)
  /-- the region aborts with cause illegal before any effect: the word is not counted (09 R211 step 3) -/
  | illegal
  /-- the issuing set is not ready -/
  | wait (b : Block)
  /-- the issuing set is not ready, and what it has begun stays: a commit past its first step (09 R218) -/
  | pause (b : Block) (s : State)
  /-- the region aborts -/
  | abort (cause idx code : Nat)
  /-- done, with every lane's program counter already set -/
  | gone (s : State)

/-- Admission to an atomic region (09 R211). -/
inductive Admit where
  | no
  | yes
  deriving DecidableEq, Repr

/-- What the common checks need to know of an instruction (02 R62; 01 R33; 09 R211). -/
structure Meta where
  sOnly : Bool := false
  /-- an S-only number that check 1 rejects at S (01 R38) -/
  badS : Bool := false
  /-- CHN may be set on it (01 R33) -/
  chnOk : Bool := true
  /-- vector registers named (check 4) -/
  vregs : List Nat := []
  /-- accumulator tiles named (check 4) -/
  accs : List Nat := []
  /-- a barrier's domain and id (check 5) -/
  bar : Option (Nat × Nat) := none
  /-- latches read, whose marks are checked (check 3) -/
  lats : List Nat := []
  /-- vector registers, scalar registers and latches read as operands, whose poison raises 0x0B -/
  vrd : List Nat := []
  srd : List Nat := []
  lrd : List Nat := []
  /-- latches taken from the lowest-numbered active lane (04 R98) -/
  lrl : List Nat := []
  allow : Admit := .no
  /-- destinations, with pairs marked: the latches of a group without an active lane shift with their contents when another
  group of the PC-set executes (01 R31) -/
  dsts : List (Dst × Bool) := []

/-- STALL's delay (02 R57). -/
def stallDelay (c : BitVec 4) : Nat :=
  ([0, 1, 2, 3, 4, 5, 6, 8, 10, 12, 16, 20, 24, 32, 48, 64] : List Nat).getD c.toNat 0

/-- Lanes begin a word: a yielded mark clears; a lane outside a chain begins one (01 R32, R44). -/
def beginLanes (G : Group) (iss : List Nat) : Group :=
  G.updLanes iss (fun _ l =>
    let l1 := { l with block := .free, yielded := none }
    if l1.chain = 0 then { (l1.clearMarks) with chainPc := l1.pc } else l1)

/-- What issue leaves behind in lanes that have executed the word: the program counter and the chain (01 R32, 02 R47). -/
def retireLanes (G : Group) (ls : List Nat) (pc : BitVec 64) (chn : Bool) (npc : FMap (BitVec 64)) : Group :=
  G.updLanes ls (fun i l =>
    let l1 := { l with pc := npc.lookD (pc + 12) i }
    if chn && decide (l1.chain < 7) then { l1 with chain := l1.chain + 1 } else { l1 with chain := 0 })

/-- The hints of an issued word: STALL, which stops the group for the d cycles that follow this one, and SSB's count (01 R36, 02 R57). Of
two words of a cycle the longer delay holds. -/
def hints (G : Group) (clock : Nat) (c : Ctl) : Group :=
  { G with stall := if stallDelay c.stall = 0 then G.stall else some (max (G.stall.getD 0) (clock + 1 + stallDelay c.stall)),
           sb := if c.ssb = 0 then G.sb else G.sb.putD 0 c.ssb.toNat (G.sb.lookD 0 c.ssb.toNat + 1) }

/-- Lanes held at the word: a fault inside a chain restarts it (01 R34). -/
def holdLanes (G : Group) (ls : List Nat) (b : Block) (word : Nat) : Group :=
  G.updLanes ls (fun _ l =>
    if l.chain = 0 then { l with block := b, heldWord := word }
    else { (l.clearMarks) with block := b, heldWord := word, pc := l.chainPc, chain := 0 })

/-- The current contents of a destination, for the latches of inactive lanes (01 R31). -/
def dstContents (G : Group) (d : Dst) (wide : Bool) (i : Nat) : DWord × Bool :=
  match d with
  | .vec nw n =>
    if nw then (0, false)
    else match G.lane? i with
      | some l =>
        let lo := (l.vreg n.toNat).toNat
        let hi := if wide then (l.vreg (n.toNat + 1)).toNat else 0
        (BitVec.ofNat 64 (lo + hi * 2 ^ 32), l.vpsn n.toNat || (wide && l.vpsn (n.toNat + 1)))
      | none => (0, false)
  | .sca nw n => if nw then (0, false) else (G.sreg n.toNat, G.spsn n.toNat)
  | .pred nw n => if nw then (0, false) else (if G.laneTest i (fun l => l.pred n.toNat) then 1 else 0, false)
  | .acc _ => (0, false)

/-- The tags of the latches of an open region's lanes shifted (09 R212). -/
def shiftTags (G : Group) (t : Option Tag) : Group :=
  { G with region := G.region.map (fun r => { r with ltags := t :: r.ltags.take 3 }) }

/-- The tag of a destination's contents: a scalar register's own. -/
def dstTag (G : Group) (d : Dst) : Option Tag :=
  match G.region, d with
  | some r, .sca nw n => if nw then none else r.tags.look n.toNat
  | _, _ => none

/-- The latches of lanes that did not execute shift with the destination's contents (01 R31). -/
def shiftLanes (G : Group) (ls : List Nat) (d : Dst) (wide : Bool) : Group :=
  let vals := ls.map (fun i => (i, dstContents G d wide i))
  G.updLanes ls (fun i l => match vals.find? (fun e => e.1 == i) with
    | some (_, x, p) => l.shift x p
    | none => l)

/-- A group in which the word did not execute: latches and their tags shift. -/
def shiftIdle (G : Group) (ls : List Nat) (d : Dst) (wide : Bool) : Group := shiftTags (shiftLanes G ls d wide) (dstTag G d)

/-- Checks 2 to 5 of the decode order, with the chain rules (02 R62, 01 R32, R33). -/
def decodeChecks (L : Option Launch) (G : Group) (iss act : List Nat) (c : Ctl) (m : Meta) : Option Nat :=
  if m.badS && G.priv then some 0x01
  else if m.sOnly && !G.priv then some 0x02
  else if (c.chn && !m.chnOk) || (c.wsb != 0 && iss.any (fun i => G.laneTest i (fun l => l.chain != 0))) ||
      act.any (fun i => m.lats.any (fun k => G.laneTest i (fun l => !(l.latch k).valid))) then some 0x0C
  else if m.vregs.any (fun n => decide (G.v ≤ n)) || m.accs.any (fun n => decide (G.t ≤ n)) then some 0x03
  else match m.bar with
    | some (dom, id) =>
      (match L with
        | some L => if decide (L.rc.bars.getD (dom - 2) 0 ≤ id) then some 0x04 else none
        | none => some 0x04)
    | none => none

/-- A marked operand raises 0x0B (07 R179). -/
def poisonCheck (G : Group) (act : List Nat) (m : Meta) : Bool :=
  m.srd.any G.spsn || m.lrl.any (fun k => G.laneTest (act.headD 0) (fun l => (l.latch k).psn)) ||
  act.any (fun i => G.laneTest i (fun l => m.vrd.any l.vpsn || m.lrd.any (fun k => (l.latch k).psn)))

/-- Admission of a word to the group's open region (09 R211, steps 2 to 5): none when it may go on. -/
def admission (G : Group) (act : List Nat) (m : Meta) : Option (Nat × Nat × Nat) :=
  match G.region with
  | none => none
  | some r =>
    if 256 ≤ arIcnt G.arstat then some (1, 0, 0)
    else if m.allow == .no then some (4, 0, 0)
    else if !(act.isEmpty || r.lanes.all act.contains) then some (4, 0, 0)
    else none

/-- ICNT counts the word (09 R211 step 5). -/
def countRegion (G : Group) : Group :=
  match G.region with
  | none => G
  | some _ => { G with arstat := G.arstat + BitVec.ofNat 64 (2 ^ 39) }

/-- The denied fault of a lane of the set (12 R278). -/
def deniedOf (G : Group) (iss : List Nat) : Option (TrapInfo × Group) :=
  match iss.find? (fun i => G.laneTest i (fun l => l.deny.isSome)) with
  | none => none
  | some i =>
    match G.lane? i with
    | none => none
    | some l =>
      match l.deny with
      | none => none
      | some (code, addr, s2, fet) =>
        some ({ code, addr, s2, fet, word := if code = 0x11 then none else some l.heldWord }, G.updLanes iss (fun _ l => { l with deny := none }))

/-- The trap that reports an engine error (10 R230; 12 R275). -/
def EngErr.trap (e : EngErr) : TrapInfo :=
  { code := e.code, addr := e.va, arg := e.code, dfr := true, ecls := e.cls + 1, epos := e.pos, s2 := e.s2 }

/-- Traps that fall due when lanes of the group next issue: a denied fault at its instruction (12 R278), an engine reset
(11 R266), an engine error that a WAITC at S has met (10 R230), a denied side-log entry (12 R278), the watchdog, which cannot fire in a region (01 R45; 09 R211). -/
def dueReport (G : Group) (iss : List Nat) : Option (TrapInfo × Group) :=
  if (deniedOf G iss).isSome then deniedOf G iss
  else if G.mreset && !G.priv then some ({ code := 0x10, dfr := true }, { G with mreset := false })
  else match (if G.priv then none else G.errs.find? EngErr.due) with
  | some e => some (e.trap, { G with errs := G.errs.erase e })
  | none =>
    let slg := if G.priv then none else iss.find? (fun i => G.laneTest i (fun l => !l.slg.isEmpty))
    match slg with
    | some i =>
      (match G.lane? i with
        | some l => (match l.slg with
            | (code, addr, s2) :: _ =>
              some ({ code, addr, dfr := true, slg := true, s2 }, G.updLane i (fun l => { l with slg := l.slg.drop 1 }))
            | [] => none)
        | none => none)
    | none =>
      if G.region.isNone && iss.any (fun i => G.laneTest i (fun l => l.wdDue)) then some ({ code := 0x0D }, G) else none

/-- A trap taken by the issuing group, noted in the word (12 R271). -/
def trapIssue (s : State) (x : Ctx) (t : TrapInfo) : State :=
  let s1 := trapEntry s x.g x.iss x.u.pc x.u.word t
  { s1 with cur := s1.cur.map (fun u => { u with trapped := x.g :: u.trapped }) }

/-- A word that is held, waits, or is illegal in a region is not counted (09 R211 step 5). -/
def uncountRegion (G : Group) : Group :=
  match G.region with
  | none => G
  | some _ => { G with arstat := G.arstat - BitVec.ofNat 64 (2 ^ 39) }

/-- What stops a release by some lanes (07 R163; 19 R402, R404): their entries in the side log; with `far`, acknowledgements of their
accesses to the fabric, and an access that was lost, whose loss the release reports. None: the release may go on. -/
def relStop (s : State) (x : Ctx) (ls : List Nat) (far : Bool) : Option Res :=
  if slgHolds s x.g x.G ls then some (.wait (.slgOwn ls))
  else if far && fabOwes s x.g ls then some (.wait (.fabAck ls))
  else match (if far then x.G.fabLost.find? (fun e => ls.contains e.1) else none) with
    | some e => some (.report { code := 0x11, addr := e.2 }
        (s.updGroup x.g (fun G => { G with fabLost := G.fabLost.filter (fun q => !ls.contains q.1) })))
    | none => none

/-- A lane whose word is turned away has not issued: its yielded mark stands, and its watchdog count resets (01 R44, R45). -/
def waitLane (x : Ctx) (b : Block) (i : Nat) (l : Lane) : Lane :=
  { l with block := b, wd := 0, wdDue := false, yielded := (x.u.yields.find? (fun y => y.1 == x.g && y.2.1 == i)).map (fun y => y.2.2) }

/-- The outcome of the instruction's own part carried into the state. -/
def settle (x : Ctx) (c : Ctl) (s : State) : Res → State
  | .done s' npc => s'.updGroup x.g (fun G => hints (retireLanes G x.iss x.u.pc c.chn npc) s'.clock c)
  | .gone s' => s'.updGroup x.g (fun G => hints G s'.clock c)
  | .trap t => trapIssue s x t
  | .report t s' => trapIssue s' x t
  | .hold b s' => s'.updGroup x.g (fun G => holdLanes (uncountRegion G) x.iss b x.u.word)
  | .wait b => s.updGroup x.g (fun G => (uncountRegion G).updLanes x.iss (waitLane x b))
  | .pause b s' => s'.updGroup x.g (fun G => (uncountRegion G).updLanes x.iss (fun _ l => { l with block := b }))
  | .illegal => abortRegion (s.updGroup x.g uncountRegion) x.g 4 0 0
  | .abort cause idx code => abortRegion s x.g cause idx code

/-- May a word read or write what an outstanding ENQ is to write: does its guard or an operand field name it, or is the word of
a kind that reaches registers without such a field? A field that holds something else may only make the word wait (01 R36). -/
def namesEnq (w : Nat) (e : EnqReq) : Bool :=
  let op := bitsN w 95 90
  let fn := bitsN w 89 84
  let p := fun n => n == e.pd.toNat && n != 15
  let s := fun n => !e.nw && e.sd != 0 && n == 0x100 + e.sd.toNat
  op == 0x3E || op == 0x3C || p (bitsN w 82 79) || s (bitsN w 77 69) || s (bitsN w 68 59) || s (bitsN w 58 49) || s (bitsN w 26 17) ||
    (e.pd != 15 && bitsN w 77 69 == 0x140 + e.pd.toNat) ||
    -- predicates named by number: SSEL, PLOP, VSEL, BALLOT, VOTE
    ((op == 0x00 && fn == 0x15 || op == 0x08 && fn == 0x13) && p (bitsN w 34 27)) ||
    ((op == 0x01 && fn == 0x05 || op == 0x1C && (fn == 2 || fn == 3)) && (p (bitsN w 62 59) || p (bitsN w 52 49))) ||
    -- MSCL's predicate result
    (op == 0x1C && fn == 8 && p (bitsN w 30 27))

/-- Waits that issue itself makes: the scoreboards, and the results of an outstanding ENQ (01 R19, R36; 08 R199). -/
def issueWait (G : Group) (c : Ctl) (w : Nat) : Option Block :=
  if G.enq.any (namesEnq w) then some .enq
  else if c.wsb != 0 && G.sb.lookD 0 c.wsb.toNat != 0 then some (.sb c.wsb.toNat)
  else if c.ssb != 0 && decide (7 ≤ G.sb.lookD 0 c.ssb.toNat) then some (.sbFull c.ssb.toNat)
  else none

/-- One word issues for the group whose turn it is. With no word being issued it has no effect. -/
def issueWord (c : Ctl) (m : Meta) (s : State) (body : Ctx → State → Res) : Host.Outcome State Fault Refusal :=
  match s.cur with
  | none => .next s
  | some u =>
    match s.groups.look u.g with
    | none => .next s
    | some G0 =>
      let iss := issuing s u.g G0 u
      if iss.isEmpty then .next s
      else match issueWait G0 c u.word with
        | some b => .next (s.setGroup u.g (G0.updLanes iss (fun _ l => { l with block := b })))
        | none =>
          let G1 := beginLanes G0 iss
          match dueReport G1 iss with
          | some (t, G2) => .next (trapIssue (s.setGroup u.g G2) { u, g := u.g, G := G2, iss, act := [] } t)
          | none =>
            let act := passing G1 iss c.guard
            let x0 : Ctx := { u, g := u.g, G := G1, iss, act }
            let s1 := s.setGroup u.g G1
            match (if act.isEmpty then none else decodeChecks (s.launchOf G1) G1 iss act c m) with
            | some code => .next (trapIssue s1 x0 { code })
            | none =>
              match admission G1 act m with
              | some (cause, idx, code) => .next (abortRegion s1 u.g cause idx code)
              | none =>
                let G2 := countRegion G1
                let x : Ctx := { x0 with G := G2 }
                let s2 := s.setGroup u.g G2
                if act.isEmpty then
                  let G3 := if u.anyAct then m.dsts.foldl (fun G d => shiftIdle G iss d.1 d.2) G2 else G2
                  .next (settle x c s2 (.done (s.setGroup u.g G3) []))
                else if poisonCheck G2 act m then .next (trapIssue s2 x { code := 0x0B })
                else .next (settle x c s2 (body x s2))

end Sys2Proof.Machine
end

