-- ==== Sys2Proof/Machine/Float.lean ====
section
/-!
DEFINITION. Floating-point values, rounding into a format, the generator, and sums (spec 03).

A finite value is a sign, an integer significand and a power of two, so every sum and product is exact. A quotient or a root
is a truncated significand of more than 40 surplus bits with a sticky mark: it is exact enough for every comparison that
rounding makes, a stochastic threshold included.
-/

namespace Sys2Proof.Machine

/-! ### Formats and values (03 R74 to R80) -/

/-- A scalar floating-point format. -/
structure Fmt where
  /-- fraction and exponent widths -/
  fw : Nat
  ew : Nat
  bias : Nat
  /-- exponent and significand of the largest finite value -/
  emax : Int
  mmax : Nat
  /-- subnormals exist -/
  sub : Bool
  /-- infinities exist -/
  inf : Bool
  /-- R86 applies -/
  small : Bool
  /-- 8-bit format, whose overflow follows R78 -/
  fp8 : Bool
  nan : Nat
  deriving DecidableEq, Repr

def Fmt.f32 : Fmt := { fw := 23, ew := 8, bias := 127, emax := 127, mmax := 2 ^ 24 - 1, sub := true, inf := true,
                       small := false, fp8 := false, nan := 0x7FC00000 }
def Fmt.f16 : Fmt := { fw := 10, ew := 5, bias := 15, emax := 15, mmax := 2 ^ 11 - 1, sub := true, inf := true,
                       small := true, fp8 := false, nan := 0x7FC0 }
def Fmt.bf16 : Fmt := { fw := 7, ew := 8, bias := 127, emax := 127, mmax := 2 ^ 8 - 1, sub := false, inf := true,
                        small := true, fp8 := false, nan := 0x7FC0 }
def Fmt.e4m3 : Fmt := { fw := 3, ew := 4, bias := 7, emax := 8, mmax := 14, sub := true, inf := false,
                        small := true, fp8 := true, nan := 0x7F }
def Fmt.e5m2 : Fmt := { fw := 2, ew := 5, bias := 15, emax := 15, mmax := 7, sub := true, inf := true,
                        small := true, fp8 := true, nan := 0x7E }

/-- The format of an element of a type; integer and block types have none of their own. -/
def fmtOf : Ty → Fmt
  | .f16x2 => .f16
  | .bf16x2 => .bf16
  | .e4m3 => .e4m3
  | .e5m2 => .e5m2
  | _ => .f32

def Fmt.width (f : Fmt) : Nat := 1 + f.ew + f.fw
def Fmt.emin (f : Fmt) : Int := 1 - (f.bias : Int)
/-- Binary exponent of the smallest non-zero magnitude v. -/
def Fmt.vexp (f : Fmt) : Int := if f.sub then f.emin - f.fw else f.emin

/-- A floating-point value. A finite one is ± m × 2^e. -/
inductive Fv where
  | nan (signalling : Bool)
  | inf (neg : Bool)
  | fin (neg : Bool) (m : Nat) (e : Int)
  deriving DecidableEq, Repr

/-- The value of an encoding (03 R74 to R78). -/
def Fmt.read (f : Fmt) (x : Nat) : Fv :=
  let neg := x.testBit (f.fw + f.ew)
  let e := x / 2 ^ f.fw % 2 ^ f.ew
  let fr := x % 2 ^ f.fw
  if e = 2 ^ f.ew - 1 && f.inf then
    if fr = 0 then .inf neg else .nan (!fr.testBit (f.fw - 1))
  else if e = 2 ^ f.ew - 1 && fr = 2 ^ f.fw - 1 then .nan false
  else if e = 0 then .fin neg (if f.sub then fr else 0) (f.emin - f.fw)
  else .fin neg (2 ^ f.fw + fr) ((e : Int) - f.bias - f.fw)

def Fmt.sgn (f : Fmt) (neg : Bool) : Nat := if neg then 2 ^ (f.fw + f.ew) else 0
def Fmt.infBits (f : Fmt) (neg : Bool) : Nat := f.sgn neg + (2 ^ f.ew - 1) * 2 ^ f.fw
/-- Encoding of r × 2^q for q at the rounding position: the carry of r out of its binade moves into the exponent. -/
def Fmt.pack (f : Fmt) (neg : Bool) (r : Nat) (q : Int) : Nat := f.sgn neg + (q - (f.emin - f.fw)).toNat * 2 ^ f.fw + r
def Fmt.maxBits (f : Fmt) (neg : Bool) : Nat := f.pack neg f.mmax (f.emax - f.fw)

/-- An exact result: ± m × 2^e, or a value strictly between m and m + 1 units when `st` is set. -/
structure Ex where
  neg : Bool
  m : Nat
  e : Int
  st : Bool := false
  deriving DecidableEq, Repr

/-- Binary exponent of a non-zero exact result. -/
def Ex.lg (x : Ex) : Int := x.e + (Nat.log2 x.m : Int)

/-! ### Flags, draws and the generator (03 R87 to R90) -/

def flNX : BitVec 6 := 1
def flUF : BitVec 6 := 2
def flOF : BitVec 6 := 4
def flDZ : BitVec 6 := 8
def flINV : BitVec 6 := 16
def flNVC : BitVec 6 := 32

/-- What an operation in a lane draws from and raises: key, counter, flags. -/
structure FEnv where
  key : DWord
  ctr : Word
  fl : BitVec 6
  deriving DecidableEq, Repr

def FEnv.raise (v : FEnv) (f : BitVec 6) : FEnv := { v with fl := v.fl ||| f }
def FEnv.raiseIf (v : FEnv) (b : Bool) (f : BitVec 6) : FEnv := if b then v.raise f else v

/-- One round of the generator (03 R88). -/
def rndRound (key : DWord) (r : Nat) (x : Word) : Word :=
  let y := x * 0x9E3779B1#32
  let z := y ^^^ (y >>> 15)
  z + (key >>> 32).setWidth 32 + BitVec.ofNat 32 r

/-- The generator (03 R88). -/
def rnd (key : DWord) (ctr : Word) : Word :=
  rndRound key 2 (rndRound key 1 (rndRound key 0 (ctr ^^^ key.setWidth 32)))

/-- A stochastic event draws a value and steps the counter (03 R89). -/
def FEnv.draw (v : FEnv) : FEnv × Nat := ({ v with ctr := v.ctr + 1 }, (rnd v.key v.ctr).toNat)

/-! ### Rounding (03 R83 to R86) -/

/-- Does an inexact value round away from zero? lo and rem split the significand at sh bits; `st` is the sticky mark. u is
the drawn value (03 R84). -/
def roundsAway (rm : Rm) (neg : Bool) (lo rem sh : Nat) (st : Bool) (u : Nat) : Bool :=
  match rm with
  | .rne => decide (2 ^ sh < 2 * rem) || (decide (2 * rem = 2 ^ sh) && (st || lo % 2 == 1))
  | .rtz => false
  | .rup => !neg
  | .rdn => neg
  | .rsr => if st then decide (u * 2 ^ sh ≤ rem * 2 ^ 32) else decide (u * 2 ^ sh < rem * 2 ^ 32)

/-- Rounding to a multiple of 2^q: the integer, whether the value changed, and the environment after a draw. -/
def roundAt (rm : Rm) (v : FEnv) (x : Ex) (q : Int) : FEnv × Nat × Bool :=
  if q ≤ x.e then (v, x.m * 2 ^ (x.e - q).toNat, false)
  else
    let sh := (q - x.e).toNat
    let lo := x.m >>> sh
    let rem := x.m % 2 ^ sh
    if rem = 0 && !x.st then (v, lo, false)
    else
      let d := match rm with | .rsr => v.draw | _ => (v, 0)
      (d.1, lo + (roundsAway rm x.neg lo rem sh x.st d.2).toNat, true)

/-- The value of an overflow (03 R78, R85). -/
def Fmt.overflow (f : Fmt) (rm : Rm) (sat neg : Bool) : Nat :=
  if f.fp8 then (if sat then f.maxBits neg else if f.inf then f.infBits neg else f.nan)
  else match rm with
    | .rtz => f.maxBits neg
    | .rup => if neg then f.maxBits neg else f.infBits neg
    | .rdn => if neg then f.infBits neg else f.maxBits neg
    | _ => f.infBits neg

/-- A non-zero result below the smallest magnitude v (03 R86): stochastic, or at a memory home to the nearer, a tie to 0. -/
def Fmt.roundTiny (f : Fmt) (home : Bool) (v : FEnv) (x : Ex) : FEnv × Nat :=
  let sh := (f.vexp - x.e).toNat
  let d := if home then (v, 0) else v.draw
  let up := if home then decide (2 ^ sh < 2 * x.m) else roundsAway .rsr x.neg 0 x.m sh x.st d.2
  ((d.1.raise (flUF ||| flNX)), f.sgn x.neg + (if up then (if f.sub then 1 else 2 ^ f.fw) else 0))

/-- An exact result rounded once into a format (03 R83, R85, R86). -/
def Fmt.round (f : Fmt) (rm : Rm) (sat home : Bool) (v : FEnv) (x : Ex) : FEnv × Nat :=
  if x.m = 0 then (v, f.sgn x.neg)
  else if f.small && decide (x.lg < f.vexp) then f.roundTiny home v x
  else
    let q := max x.lg f.emin - f.fw
    let (v1, r, inexact) := roundAt rm v x q
    if f.emax < q + (Nat.log2 r : Int) ∨ (q = f.emax - f.fw ∧ f.mmax < r) then (v1.raise (flOF ||| flNX), f.overflow rm sat x.neg)
    else
      let v2 := v1.raiseIf inexact flNX
      (v2.raiseIf (inexact && decide (x.lg < f.emin)) flUF, f.pack x.neg r q)

/-! ### NaN and infinity operands, sums and products (03 R77; 05 R130) -/

def Fv.isNan : Fv → Bool | .nan _ => true | _ => false
def Fv.isSnan : Fv → Bool | .nan s => s | _ => false
def Fv.neg? : Fv → Bool | .nan _ => false | .inf n => n | .fin n _ _ => n
def Fv.isZero : Fv → Bool | .fin _ m _ => m == 0 | _ => false
def Fv.negate : Fv → Fv | .nan s => .nan s | .inf n => .inf (!n) | .fin n m e => .fin (!n) m e

/-- A product as a term of a sum: none when it is 0 × inf. -/
def Fv.times : Fv → Fv → Option Fv
  | .nan _, _ | _, .nan _ => some (.nan false)
  | .inf a, .inf b => some (.inf (a != b))
  | .inf a, .fin b m _ => if m = 0 then none else some (.inf (a != b))
  | .fin b m _, .inf a => if m = 0 then none else some (.inf (a != b))
  | .fin a m e, .fin b n f => some (.fin (a != b) (m * n) (e + f))

/-- The sum of finite terms, with the sign that R77 gives an exact zero. -/
def sumFin (rm : Rm) (ts : List (Bool × Nat × Int)) : Ex :=
  let e := ts.foldl (fun a t => min a t.2.2) (ts.headD (false, 0, 0)).2.2
  let i := ts.foldl (fun (a : Int) t =>
    let y : Int := ((t.2.1 * 2 ^ (t.2.2 - e).toNat : Nat) : Int)
    if t.1 then a - y else a + y) 0
  if i = 0 then
    let neg :=
      if ts.all (fun t => t.2.1 == 0 && t.1) then true
      else if ts.all (fun t => t.2.1 == 0 && !t.1) then false
      else rm == .rdn
    { neg, m := 0, e }
  else { neg := decide (i < 0), m := i.natAbs, e }

/-- Sum of products and addends, rounded once: FADD, FSUB, FMUL, FFMA, FDOT2, a matrix step. -/
def Fmt.sum (f : Fmt) (rm : Rm) (home : Bool) (v : FEnv) (prods : List (Fv × Fv)) (adds : List Fv) : FEnv × Nat :=
  let ps := prods.map (fun p => p.1.times p.2)
  let terms := ps.filterMap id ++ adds
  let snan := prods.any (fun p => p.1.isSnan || p.2.isSnan) || adds.any Fv.isSnan
  let bad := ps.any Option.isNone
  let clash := terms.any (fun t => t == .inf true) && terms.any (fun t => t == .inf false)
  if bad || clash || terms.any Fv.isNan then (v.raiseIf (snan || bad || clash) flINV, f.nan)
  else if terms.any (fun t => t == .inf true) then (v, f.infBits true)
  else if terms.any (fun t => t == .inf false) then (v, f.infBits false)
  else f.round rm false home v (sumFin rm (terms.map (fun t => match t with | .fin n m e => (n, m, e) | _ => (false, 0, 0))))

/-! ### Quotients and roots -/

/-- A quotient of finite values with a non-zero divisor. -/
def exDiv (neg : Bool) (m : Nat) (e : Int) (n : Nat) (g : Int) : Ex :=
  let y := m * 2 ^ 150
  { neg, m := y / n, e := e - g - 150, st := y % n != 0 }

/-- The integer square root below 2^i. -/
def isqrtBits : Nat → Nat → Nat → Nat
  | 0, _, r => r
  | i + 1, n, r => isqrtBits i n (if (r + 2 ^ i) * (r + 2 ^ i) ≤ n then r + 2 ^ i else r)

/-- The root of a finite non-zero magnitude. -/
def exSqrt (m : Nat) (e : Int) : Ex :=
  let k : Nat := if e % 2 = 0 then 140 else 141
  let y := m * 2 ^ k
  let r := isqrtBits 96 y 0
  { neg := false, m := r, e := (e - k) / 2, st := r * r != y }

/-- FDIV (05 R130). -/
def fDiv (rm : Rm) (v : FEnv) (a b : Fv) : FEnv × Nat :=
  let f := Fmt.f32
  match a, b with
  | .nan s, .nan t => (v.raiseIf (s || t) flINV, f.nan)
  | .nan s, _ => (v.raiseIf s flINV, f.nan)
  | _, .nan t => (v.raiseIf t flINV, f.nan)
  | .inf _, .inf _ => (v.raise flINV, f.nan)
  | .inf n, .fin k _ _ => (v, f.infBits (n != k))
  | .fin n _ _, .inf k => (v, f.sgn (n != k))
  | .fin n m e, .fin k d g =>
    if d = 0 then
      if m = 0 then (v.raise flINV, f.nan) else (v.raise flDZ, f.infBits (n != k))
    else if m = 0 then (v, f.sgn (n != k))
    else f.round rm false false v (exDiv (n != k) m e d g)

/-- FSQRT (05 R130). -/
def fSqrt (rm : Rm) (v : FEnv) (a : Fv) : FEnv × Nat :=
  let f := Fmt.f32
  match a with
  | .nan s => (v.raiseIf s flINV, f.nan)
  | .inf n => if n then (v.raise flINV, f.nan) else (v, f.infBits false)
  | .fin n m e =>
    if m = 0 then (v, f.sgn n)
    else if n then (v.raise flINV, f.nan)
    else f.round rm false false v (exSqrt m e)

/-- FSCALE (05 R130): an exponent beyond ±1,000 rounds as ±1,000 does. -/
def fScale (rm : Rm) (v : FEnv) (bits : Nat) (a : Fv) (n : Int) : FEnv × Nat :=
  match a with
  | .nan s => (v.raiseIf s flINV, Fmt.f32.nan)
  | .inf _ => (v, bits)
  | .fin neg m e => if m = 0 then (v, bits) else Fmt.f32.round rm false false v { neg, m, e := e + max (-1000) (min 1000 n) }

/-- MSCL's quotient S × N / n for n not 0 (06 R157). -/
def fMscl (rm : Rm) (v : FEnv) (s : Fv) (num den : Nat) : FEnv × Nat :=
  let f := Fmt.f32
  match s with
  | .nan g => (v.raiseIf g flINV, f.nan)
  | .inf k => if num = 0 then (v.raise flINV, f.nan) else (v, f.infBits k)
  | .fin k m e => if m * num = 0 then (v, f.sgn k) else f.round rm false false v (exDiv k (m * num) e den 0)

/-- FROUND (05 R131): an integral value of the same format; R86 does not apply. An inexact subnormal raises NX alone, as R131 says, and
not the UF of 03 R87 (DEDUCED, log 26). -/
def Fmt.roundInt (f : Fmt) (rm : Rm) (v : FEnv) (a : Fv) : FEnv × Nat :=
  match a with
  | .nan s => (v.raiseIf s flINV, f.nan)
  | .inf n => (v, f.infBits n)
  | .fin neg m e =>
    let (v1, r, inexact) := roundAt rm v { neg, m, e } 0
    let w := f.round .rne false false { v1 with fl := 0 } { neg, m := r, e := 0 }
    ({ v1 with fl := v1.fl ||| (if inexact then flNX else 0) }, w.2)

/-! ### Comparison, minimum and class (02 R56; 05 R132 to R134) -/

/-- Order of two finite values or infinities: -1, 0 or 1. -/
def Fv.cmp (a b : Fv) : Int :=
  let key := fun (x y : Fv) => match x with
    | .inf n => if n then (-2 : Int) else 2
    | .fin n m e =>
      (match y with
        | .fin k d g =>
          let q := min e g
          let i : Int := ((m * 2 ^ (e - q).toNat : Nat) : Int)
          let j : Int := ((d * 2 ^ (g - q).toNat : Nat) : Int)
          let si := if n then -i else i
          let sj := if k then -j else j
          if si < sj then -1 else if sj < si then 1 else 0
        | _ => 0)
    | .nan _ => 0
  let p := key a b
  let q := key b a
  if p < q then -1 else if q < p then 1 else 0

/-- A floating relation (02 R56). -/
def fRel (rel : Nat) (a b : Fv) : Bool :=
  let un := a.isNan || b.isNan
  let c := a.cmp b
  match rel with
  | 0 => !un && c == 0
  | 1 => un || c != 0
  | 2 => !un && c < 0
  | 3 => !un && c ≤ 0
  | 4 => !un && c > 0
  | 5 => !un && c ≥ 0
  | 10 => !un
  | _ => un

/-- Does FCMP set INV (05 R133)? -/
def fRelInv (rel : Nat) (a b : Fv) : Bool :=
  if 2 ≤ rel && rel ≤ 5 then a.isNan || b.isNan else a.isSnan || b.isSnan

/-- FMIN and FMAX over encodings (05 R132); a BF16 subnormal encoding returns as its zero. -/
def Fmt.minmax (f : Fmt) (mx : Bool) (v : FEnv) (x y : Nat) : FEnv × Nat :=
  let a := f.read x
  let b := f.read y
  let out := fun (n : Nat) (z : Fv) => if z.isZero then f.sgn z.neg? else n
  let v1 := v.raiseIf (a.isSnan || b.isSnan) flINV
  if a.isNan && b.isNan then (v1, f.nan)
  else if a.isNan then (v1, out y b)
  else if b.isNan then (v1, out x a)
  else
    let c := a.cmp b
    let aLess := c < 0 || (c == 0 && a.neg? && !b.neg?)
    if aLess != mx then (v1, out x a) else (v1, out y b)

/-- FCLASS's mask of one element (05 R134). -/
def Fmt.classOf (f : Fmt) (x : Nat) : Nat :=
  match f.read x with
  | .nan s => if s then 2 ^ 8 else 2 ^ 9
  | .inf n => if n then 1 else 2 ^ 7
  | .fin n m e =>
    if m = 0 then (if n then 2 ^ 3 else 2 ^ 4)
    else if e = f.emin - f.fw && decide (m < 2 ^ f.fw) then (if n then 2 ^ 2 else 2 ^ 5)
    else if n then 2 else 2 ^ 6

/-- The .abs and .neg modifiers on one element of w bits: sign cleared, then flipped (02 R54). -/
def modBits (w : Nat) (ab ng : Bool) (x : Nat) : Nat :=
  let y := if ab then x % 2 ^ (w - 1) else x
  if ng then y ^^^ 2 ^ (w - 1) else y

/-! ### Conversions (03 R87, R91; 05 R138 to R141) -/

/-- Into a float format (03 R78, R91). -/
def Fmt.convert (f : Fmt) (rm : Rm) (sat : Bool) (v : FEnv) (a : Fv) : FEnv × Nat :=
  match a with
  | .nan s => (v.raiseIf s flINV, f.nan)
  | .inf n =>
    if f.inf then (v, f.infBits n)
    else if sat then (v, f.maxBits n)
    else (v.raise flINV, f.nan)
  | .fin neg m e => f.round rm sat false v { neg, m, e }

/-- Least and largest integer of an integer type of w bits (03 R73). -/
def intMin (signed : Bool) (w : Nat) : Int := if signed then -((2 ^ (w - 1) : Nat) : Int) else 0
def intMax (signed : Bool) (w : Nat) : Int := if signed then ((2 ^ (w - 1) : Nat) : Int) - 1 else ((2 ^ w : Nat) : Int) - 1
def clampInt (signed : Bool) (w : Nat) (i : Int) : Int := max (intMin signed w) (min (intMax signed w) i)

/-- Into an integer type (03 R87): the rounded integer is judged. -/
def fToInt (rm : Rm) (signed : Bool) (w : Nat) (v : FEnv) (a : Fv) : FEnv × Nat :=
  match a with
  | .nan _ => (v.raise flINV, 0)
  | .inf n => (v.raise flINV, modW w (if n then intMin signed w else intMax signed w))
  | .fin neg m e =>
    let (v1, r, inexact) := roundAt rm v { neg, m, e } 0
    let i : Int := if neg then -(r : Int) else (r : Int)
    let c := clampInt signed w i
    if c = i then (v1.raiseIf inexact flNX, modW w i) else (v1.raise flINV, modW w c)

/-- From an integer into a float format. -/
def Fmt.ofInt (f : Fmt) (rm : Rm) (v : FEnv) (i : Int) : FEnv × Nat :=
  f.round rm false false v { neg := decide (i < 0), m := i.natAbs, e := 0 }

/-- Exactly into FP32 (03 R91): the NaN becomes canonical, with INV for a signalling one. -/
def toF32 (v : FEnv) (a : Fv) : FEnv × Nat := Fmt.f32.convert .rne false v a

/-! ### Block formats (03 R79 to R82) -/

/-- Shape of an element: bits, magnitude bits, M and q. -/
structure BxFmt where
  mb : Nat
  q : Int
  deriving DecidableEq, Repr

def BxFmt.bx8 : BxFmt := { mb := 6, q := 132 }
def BxFmt.bx4 : BxFmt := { mb := 2, q := 128 }
def BxFmt.mMax (f : BxFmt) : Nat := 2 ^ f.mb - 1

/-- An element's value under the two exponents (03 R79, R80). -/
def BxFmt.read (f : BxFmt) (e0 e1 el : Nat) : Fv :=
  let es := if el.testBit (f.mb + 1) then e1 else e0
  if es = 0xFF then .nan false
  else .fin (el.testBit f.mb) (el % 2 ^ f.mb) ((es : Int) - f.q)

/-- Is m × 2^e at most n × 2^g? -/
def magLe (m : Nat) (e : Int) (n : Nat) (g : Int) : Bool :=
  let q := min e g
  decide (m * 2 ^ (e - q).toNat ≤ n * 2 ^ (g - q).toNat)

/-- | m 2^e − n 2^g | as a magnitude with its exponent. -/
def magDiff (m : Nat) (e : Int) (n : Nat) (g : Int) : Nat × Int :=
  let q := min e g
  let a := m * 2 ^ (e - q).toNat
  let b := n * 2 ^ (g - q).toNat
  (a - b + (b - a), q)

/-- The smallest E of 0 to 254 with xmax ≤ M × 2^(E − q), 254 when there is none (03 R82). -/
def BxFmt.pickE (f : BxFmt) (m : Nat) (e : Int) : Nat :=
  ((List.range 255).find? (fun (k : Nat) => magLe m e f.mMax ((k : Int) - f.q))).getD 254

/-- E0 and E1 of a block of values with distance d; none when one of them is a NaN or an infinity (03 R82). -/
def BxFmt.exps (f : BxFmt) (d : Nat) (xs : List Fv) : Option (Nat × Nat) :=
  if xs.any (fun x => match x with | .fin _ _ _ => false | _ => true) then none
  else
    let mx := xs.foldl (fun (a : Nat × Int) x => match x with
      | .fin _ m e => if magLe m e a.1 a.2 then a else (m, e)
      | _ => a) (0, 0)
    let e1 := f.pickE mx.1 mx.2
    some (e1 - d, e1)

/-- |x| / 2^(E − q) rounded to an integer with RNE. -/
def bxRne (m : Nat) (e : Int) (es : Nat) (q : Int) : Nat :=
  (roundAt .rne { key := 0, ctr := 0, fl := 0 } { neg := false, m, e } ((es : Int) - q)).2.1

/-- One element of a block, rounded in its own lane (03 R82, R86): the mode rounds the magnitude, so the directed modes do not look at the
sign. -/
def BxFmt.element (f : BxFmt) (rm : Rm) (v : FEnv) (ex : Option (Nat × Nat)) (x : Fv) : FEnv × Nat :=
  match ex, x with
  | some (e0, e1), .fin neg m e =>
    let g0 : Int := (e0 : Int) - f.q
    let g1 : Int := (e1 : Int) - f.q
    let d1 := magDiff m e (bxRne m e e1 f.q) g1
    let d0 := magDiff m e (bxRne m e e0 f.q) g0
    let sel := if magLe m e f.mMax g0 then magLe d1.1 d1.2 d0.1 d0.2 else true
    let g := if sel then g1 else g0
    let t : FEnv × Nat × Bool :=
      if m = 0 then (v, 0, false)
      else if e + (Nat.log2 m : Int) < g then
        let (v1, u) := v.draw
        (v1.raise (flUF ||| flNX), (roundsAway .rsr neg 0 m (g - e).toNat false u).toNat, false)
      else roundAt rm v { neg := false, m, e } g
    let v2 := t.1.raiseIf t.2.2 flNX
    let hi := (if sel then 2 ^ (f.mb + 1) else 0) + (if neg then 2 ^ f.mb else 0)
    if f.mMax < t.2.1 then (v2.raise (flOF ||| flNX), hi + f.mMax) else (v2, hi + t.2.1)
  | _, x => (v.raiseIf (match x with | .fin _ _ _ => false | _ => true) flINV, 2 ^ (f.mb + 1))

/-! ### Approximated functions (05 R135, R136)

Each result is the stepping's choice where that lies inside the bound of R135, and the correctly truncated value otherwise,
so every value that the bound admits is a value of the model. The transcendental ones are evaluated in fixed point of 320
fraction bits, whose error is far below any bound. -/

def fxP : Nat := 320
def fxOne : Int := (2 ^ 320 : Nat)
def fxMul (a b : Int) : Int := a * b / fxOne

/-- Sum of a^k / k! for k from `k` on, `n` terms, `t` the term of k. -/
def fxExpAux : Nat → Int → Int → Nat → Int → Int
  | 0, _, _, _, s => s
  | n + 1, a, t, k, s => fxExpAux n a (fxMul t a / ((k : Int) + 1)) (k + 1) (s + t)
/-- e^a for |a| ≤ 32. -/
def fxExp (a : Int) : Int := fxExpAux 260 a fxOne 0 0

/-- Sum of sg^k a^(2k+1) / (2k+1): atanh for sg 1, atan for sg −1; p is the power. -/
def fxAtAux : Nat → Int → Int → Int → Nat → Int → Int
  | 0, _, _, _, _, s => s
  | n + 1, sg, a2, p, k, s => fxAtAux n sg a2 (sg * fxMul p a2) (k + 1) (s + p / (2 * (k : Int) + 1))
def fxAtanh (a : Int) : Int := fxAtAux 260 1 (fxMul a a) a 0 0
def fxAtan (a : Int) : Int := fxAtAux 260 (-1) (fxMul a a) a 0 0
def fxLn2 : Int := 2 * fxAtanh (fxOne / 3)
def fxPi : Int := 16 * fxAtan (fxOne / 5) - 4 * fxAtan (fxOne / 239)

/-- Sum of (−1)^j a^(2j + b) / (2j + b)!: cos for b 0, sin for b 1. -/
def fxSinAux : Nat → Int → Int → Nat → Int → Int
  | 0, _, _, _, s => s
  | n + 1, a2, t, k, s => fxSinAux n a2 (-(fxMul t a2 / (((k : Int) + 1) * ((k : Int) + 2)))) (k + 2) (s + t)
def fxSin (a : Int) : Int := fxSinAux 120 (fxMul a a) a 1 0
def fxCos (a : Int) : Int := fxSinAux 120 (fxMul a a) fxOne 0 0

/-- A finite value in fixed point. -/
def fxOf (neg : Bool) (m : Nat) (e : Int) : Int :=
  let y : Int := if e < -320 then ((m >>> (-320 - e).toNat : Nat) : Int) else ((m * 2 ^ (e + 320).toNat : Nat) : Int)
  if neg then -y else y

/-- A fixed-point number times 2^k, as an exact result. -/
def fxEx (i : Int) (k : Int) : Ex := { neg := decide (i < 0), m := i.natAbs, e := k - 320 }

/-- The real value of an approximated function of a finite non-zero operand: none where R135 bounds nothing. -/
def approxReal (fn : Config.Approx) (neg : Bool) (m : Nat) (e : Int) : Option Ex :=
  match fn with
  | .rcp => some (exDiv neg 1 0 m e)
  | .rsq => let r := exSqrt m e
            some { exDiv false 1 0 r.m r.e with st := true }
  | .exp2 =>
    let x := fxOf neg m (min e 40)
    let i := x / fxOne
    some (fxEx (fxExp (fxMul (x - i * fxOne) fxLn2)) (max i (-400)))
  | .log2 =>
    let k : Int := e + (Nat.log2 m : Int)
    let s : Int := ((m * 2 ^ 320 / 2 ^ (Nat.log2 m) : Nat) : Int)
    some (fxEx (2 * fxAtanh ((s - fxOne) * fxOne / (s + fxOne)) * fxOne / fxLn2 + k * fxOne) 0)
  | .sin | .cos =>
    if e + (Nat.log2 m : Int) < 10 ∨ magLe m e 1 10 then
      let x := fxOf neg m e
      let y := x - x / (2 * fxPi) * (2 * fxPi)
      some (fxEx (if fn = .sin then fxSin y else fxCos y) 0)
    else none
  | .tanh =>
    let x := fxExp (2 * fxOf neg m (min e 3))
    some (fxEx ((x - fxOne) * fxOne / (x + fxOne)) 0)

/-- Binary exponent of one ulp of FP32 at a value. -/
def ulpExp (x : Ex) : Int := if x.m = 0 then -149 else max x.lg (-126) - 23

/-- The bound of R135 at an operand, as a magnitude k × 2^g. -/
def approxBound (fn : Config.Approx) (neg : Bool) (m : Nat) (e : Int) (y : Ex) : Nat × Int :=
  match fn with
  | .rcp | .rsq => (1, ulpExp y)
  | .exp2 => if neg && !magLe m e 126 0 then (1, -149) else (2, ulpExp y)
  | .log2 => if magLe 1 (-1) m e && magLe m e 1 1 then (1, -22) else (2, ulpExp y)
  | .sin | .cos => if magLe 2 (ulpExp y) 1 (-24) then (1, -24) else (2, ulpExp y)
  | .tanh => (2, ulpExp y)

/-- Is a candidate inside the bound? +inf counts as 2^128, so that an overflow can be the nearest value. The slack of one
unit in the 300th place covers the evaluation. -/
def withinBound (c : Fv) (y : Ex) (b : Nat × Int) : Bool :=
  match (match c with | .inf n => some (n, 1, (128 : Int)) | .fin n m e => some (n, m, e) | .nan _ => none) with
  | none => false
  | some (n, m, e) =>
    let d : Nat × Int := if n = y.neg then magDiff m e y.m y.e else
      (let q := min e y.e; (m * 2 ^ (e - q).toNat + y.m * 2 ^ (y.e - q).toNat, q))
    let q := min b.2 (-300)
    magLe d.1 d.2 (b.1 * 2 ^ (b.2 - q).toNat + 1) q

/-- The result for a finite operand outside the exact column: flags NX, UF, OF (05 R135). -/
def approxPick (fn : Config.Approx) (v : FEnv) (bits : Word) (neg : Bool) (m : Nat) (e : Int) : FEnv × Nat :=
  let c := (Config.approx fn bits).toNat
  let r : Nat :=
    match approxReal fn neg m e with
    | some y => if withinBound (Fmt.f32.read c) y (approxBound fn neg m e y) then c
                else (Fmt.f32.round .rne false false { key := 0, ctr := 0, fl := 0 } y).2
    | none => (match Fmt.f32.read c with
        | .fin _ m' e' => if magLe m' e' 1 0 then c else 0
        | _ => 0)
  let tiny := match Fmt.f32.read r with | .fin _ m' e' => m' != 0 && !magLe 1 (-126) m' e' | _ => false
  let big := match Fmt.f32.read r with | .inf _ => true | _ => false
  (((v.raise flNX).raiseIf tiny flUF).raiseIf big flOF, r)

/-- Is m × 2^e a power of two? Its exponent. -/
def pow2? (m : Nat) (e : Int) : Option Int := if m = 2 ^ Nat.log2 m then some (e + (Nat.log2 m : Int)) else none

/-- An exact power of two in FP32. -/
def pow2Bits (neg : Bool) (k : Int) : Nat := (Fmt.f32.round .rne false false { key := 0, ctr := 0, fl := 0 } { neg, m := 1, e := k }).2

/-- The integer value of a finite operand, when it is one. -/
def intOf? (neg : Bool) (m : Nat) (e : Int) : Option Int :=
  if 0 ≤ e then (if e < 40 then some (if neg then -((m * 2 ^ e.toNat : Nat) : Int) else ((m * 2 ^ e.toNat : Nat) : Int)) else none)
  else if m % 2 ^ (-e).toNat = 0 then some (if neg then -((m / 2 ^ (-e).toNat : Nat) : Int) else ((m / 2 ^ (-e).toNat : Nat) : Int))
  else none

/-- An approximated function of an FP32 operand (05 R135). -/
def fApprox (fn : Config.Approx) (v : FEnv) (bits : Word) : FEnv × Nat :=
  let f := Fmt.f32
  let one := 0x3F800000
  match f.read bits.toNat with
  | .nan s => (v.raiseIf s flINV, f.nan)
  | .inf n =>
    (match fn with
      | .rcp => (v, f.sgn n)
      | .rsq => if n then (v.raise flINV, f.nan) else (v, 0)
      | .exp2 => if n then (v, 0) else (v, f.infBits false)
      | .log2 => if n then (v.raise flINV, f.nan) else (v, f.infBits false)
      | .sin | .cos => (v.raise flINV, f.nan)
      | .tanh => (v, f.sgn n + one))
  | .fin n m e =>
    if m = 0 then
      (match fn with
        | .rcp => (v.raise flDZ, f.infBits n)
        | .rsq => (v.raise flDZ, f.infBits n)
        | .exp2 => (v, one)
        | .log2 => (v.raise flDZ, f.infBits true)
        | .sin | .tanh => (v, f.sgn n)
        | .cos => (v, one))
    else
      (match fn with
        | .rcp =>
          if !magLe 1 (-128) m e then (v.raise (flOF ||| flNX), f.infBits n)
          else (match pow2? m e with
            | some k => if -127 ≤ k ∧ k ≤ 126 then (v, pow2Bits n (-k)) else approxPick fn v bits n m e
            | none => approxPick fn v bits n m e)
        | .rsq =>
          if n then (v.raise flINV, f.nan)
          else (match pow2? m e with
            | some k => if k % 2 = 0 then (v, pow2Bits false (-k / 2)) else approxPick fn v bits n m e
            | none => approxPick fn v bits n m e)
        | .exp2 =>
          if !n && magLe 128 0 m e then (v.raise (flOF ||| flNX), f.infBits false)
          else (match intOf? n m e with
            | some i => if -149 ≤ i then (v, pow2Bits false i) else approxPick fn v bits n m e
            | none => approxPick fn v bits n m e)
        | .log2 =>
          if n then (v.raise flINV, f.nan)
          else (match pow2? m e with
            | some k => Fmt.f32.ofInt .rne v k
            | none => approxPick fn v bits n m e)
        | .sin | .cos => approxPick fn v bits n m e
        | .tanh => if magLe 10 0 m e then (v, f.sgn n + one) else approxPick fn v bits n m e)

end Sys2Proof.Machine
end

