-- ==== Sys2Proof/Machine/Operands.lean ====
section
/-!
DEFINITION. Operands: what a source field supplies and how a destination is written (spec 02 R50 to R52; 01 R31; 04 R97, R98;
05 R120), with the tags that an open atomic region keeps (09 R212 to R214).
-/

namespace Sys2Proof.Machine

/-! ### Values of source fields -/

/-- A small integer in a floating type's word: both halves of a packed one. -/
def smallFloat (t : Ty) (i : Int) : Nat :=
  let v0 : FEnv := { key := 0, ctr := 0, fl := 0 }
  let b := ((fmtOf t).ofInt .rne v0 i).2
  match t with | .f16x2 | .bf16x2 => b + b * 2 ^ 16 | _ => b

/-- Inline constant 32 + k for an operand of type t and width w (02 R52). -/
def constBits (t : Ty) (w k : Nat) : Nat :=
  let typed := fun (i : Int) => if t.isInt then modW w i else smallFloat t i
  match k with
  | 0 => typed 0
  | 1 => typed 1
  | 2 => typed 2
  | 3 => typed 4
  | 4 => (match t with | .f16x2 => 0x38003800 | .bf16x2 => 0x3F003F00 | _ => 0x3F000000)
  | 5 => typed (-1)
  | 6 => 0x3F800000
  | 7 => 0x40000000
  | 8 => 0x3F000000
  | 9 => 0xBF800000
  | 10 => 0x7F800000
  | 11 => 0xFF800000
  | 12 => 0x7FC00000
  | 13 => 0x3FB8AA3B
  | 14 => 0x3F317218
  | _ => 0x40490FDB

/-- An imm8 for an operand of type t and width w (02 R51). -/
def immBits (t : Ty) (w : Nat) (v : BitVec 8) : Nat := if t.isInt then modW w v.toInt else smallFloat t v.toInt

/-- The value a source supplies to a lane (05 R120): w is 32 or 64. -/
def srcLane (G : Group) (i : Nat) (t : Ty) (w : Nat) : Src → Nat
  | .vreg n => (match G.lane? i with
      | some l => (l.vreg n.toNat).toNat + (if w = 64 then (l.vreg (n.toNat + 1)).toNat * 2 ^ 32 else 0)
      | none => 0)
  | .sreg n => (G.sreg n.toNat).toNat % 2 ^ w
  | .latch n => (match G.lane? i with | some l => (l.latch n.toNat).val.toNat % 2 ^ w | none => 0)
  | .const k => constBits t w k.toNat
  | .imm v => immBits t w v

/-- The value a source supplies to a scalar instruction: held per lane, it is the lowest-numbered active lane's (04 R98). -/
def srcScalar (x : Ctx) (t : Ty) (w : Nat) (a : Src) : Nat := srcLane x.G x.low t w a

/-- A 64-bit scalar, latch or immediate operand (10 R232). -/
def src64 (x : Ctx) (a : Src) : Nat := srcScalar x .n64 64 a

/-- Operand width of a type. -/
def tyW (t : Ty) : Nat := if t.is64 then 64 else 32

/-! ### What the checks need to know of the fields -/

/-- A source of an instruction noted, `wide` for a pair; a latch is taken per lane or from the lowest active lane. -/
def Meta.read (m : Meta) (perLane : Bool) (a : Src) (wide : Bool) : Meta :=
  match a with
  | .vreg n =>
    let ns := if wide then [n.toNat, n.toNat + 1] else [n.toNat]
    { m with vregs := m.vregs ++ ns, vrd := m.vrd ++ ns }
  | .sreg n => { m with srd := m.srd ++ [n.toNat] }
  | .latch n =>
    let m1 := { m with lats := m.lats ++ [n.toNat] }
    if perLane then { m1 with lrd := m.lrd ++ [n.toNat] } else { m1 with lrl := m.lrl ++ [n.toNat] }
  | _ => m

/-- A destination noted. -/
def Meta.write (m : Meta) (d : Dst) (wide : Bool) : Meta :=
  match d with
  | .vec _ n =>
    { m with vregs := m.vregs ++ (if wide then [n.toNat, n.toNat + 1] else [n.toNat]), dsts := m.dsts ++ [(d, wide)] }
  | .acc n => { m with accs := m.accs ++ [n.toNat] }
  | _ => { m with dsts := m.dsts ++ [(d, wide)] }

def Meta.reads (m : Meta) (perLane : Bool) (ss : List (Src × Bool)) : Meta :=
  ss.foldl (fun m a => m.read perLane a.1 a.2) m

/-! ### Destinations -/

/-- The tag of scalar register n set in an open region (09 R212). -/
def Group.setTag (G : Group) (n : Nat) (t : Option Tag) : Group :=
  { G with region := G.region.map (fun r => { r with tags := match t with | some t => r.tags.setAt n t | none => r.tags.remove n }) }

/-- The result written to the destination and the latches shifted in the whole issuing set (01 R31). A scalar result is that of
the lowest-numbered active lane; an inactive lane shifts in the destination's contents as they stand after the write (DESIGN CHOICE, log 85). -/
def putDst (x : Ctx) (G : Group) (d : Dst) (wide : Bool) (val : Nat → Nat) (psn : Nat → Bool) (tag : Option Tag) : Group :=
  let idle := x.iss.filter (fun i => !x.act.contains i)
  match d with
  | .vec nw n =>
    let G1 := G.updLanes x.act (fun i l =>
      let y := val i % 2 ^ (if wide then 64 else 32)
      let p := psn i
      let l1 := if nw then l else l.setV n.toNat (BitVec.ofNat 32 y) p
      let l2 := if nw || !wide then l1 else l1.setV (n.toNat + 1) (BitVec.ofNat 32 (y / 2 ^ 32)) p
      l2.shift (BitVec.ofNat 64 y) p)
    shiftLanes G1 idle d wide
  | .sca nw n =>
    let y : DWord := BitVec.ofNat 64 (val x.low)
    let p := psn x.low
    let G1 := if nw then G else (G.setS n.toNat y p).setTag n.toNat (if n = 0 then none else tag)
    let G2 := G1.updLanes x.act (fun _ l => l.shift y p)
    shiftTags (shiftLanes G2 idle d wide) tag
  | .pred nw n =>
    let G1 := G.updLanes x.act (fun i l =>
      let b := val i != 0
      let l1 := if nw then l else l.setPred n.toNat b
      l1.shift (if b then 1 else 0) false)
    shiftTags (shiftLanes G1 idle d wide) none
  | .acc _ => G

/-- A destination that no poison reaches. -/
def putPlain (x : Ctx) (G : Group) (d : Dst) (wide : Bool) (val : Nat → Nat) : Group := putDst x G d wide val (fun _ => false) none

/-- What an operation in a lane draws from (03 R89). -/
def envOf (G : Group) (l : Lane) : FEnv := { key := G.srseed, ctr := l.srctr, fl := 0 }

/-- Flags raised and the counter stepped in a lane (01 R39, 03 R89). -/
def Lane.settleF (l : Lane) (v : FEnv) : Lane := { l with fflags := l.fflags ||| v.fl, srctr := v.ctr }

/-- Results, flags and counters of the active lanes (05 R121). -/
def putLanes (x : Ctx) (G : Group) (d : Dst) (wide : Bool) (res : FMap (FEnv × Nat)) : Group :=
  let G1 := G.updLanes x.act (fun i l => match res.look i with | some r => l.settleF r.1 | none => l)
  putPlain x G1 d wide (fun i => match res.look i with | some r => r.2 | none => 0)

/-! ### The shapes that most instructions have -/

/-- A vector instruction whose lanes compute independently (05 R121): sources with their widths, a destination. -/
def laneOp (c : Ctl) (d : Dst) (wide : Bool) (srcs : List (Src × Bool)) (s : State)
    (f : Ctx → Nat → FEnv → FEnv × Nat) : Host.Outcome State Fault Refusal :=
  issueWord c ((({} : Meta).reads true srcs).write d wide) s (fun x s =>
    let res := x.act.map (fun i => (i, match x.G.lane? i with
      | some l => f x i (envOf x.G l)
      | none => ({ key := 0, ctr := 0, fl := 0 }, 0)))
    .done (s.setGroup x.g (putLanes x x.G d wide res)) [])

/-- The tag of a source in an open region, and whether it is a latch (09 R212, R214). -/
def srcTag (G : Group) (a : Src) : Option Tag :=
  match G.region with
  | none => none
  | some r => match a with
    | .sreg n => if n = 0 then none else r.tags.look n.toNat
    | .latch n => r.ltags.getD n.toNat none
    | _ => none

/-- Input k pinned (09 R214). -/
def Group.pin (G : Group) (k : Nat) : Group :=
  { G with region := G.region.map (fun r => { r with inputs := r.inputs.modify k (fun i => { i with pinned := true }) }) }

/-- The inputs of every tagged operand pinned. -/
def pinAll (G : Group) (srcs : List Src) : Group :=
  srcs.foldl (fun G a => match srcTag G a with | some t => G.pin t.k | none => G) G

/-- A scalar instruction (04 R98): executed once for the group; tagged operands pin their inputs (09 R214). -/
def scalarOp (c : Ctl) (d : Dst) (srcs : List Src) (s : State) (f : Ctx → Nat) : Host.Outcome State Fault Refusal :=
  issueWord c { (({} : Meta).reads false (srcs.map (fun a => (a, false)))).write d false with allow := .yes } s (fun x s =>
    .done (s.setGroup x.g (putPlain x (pinAll x.G srcs) d false (fun _ => f x))) [])

end Sys2Proof.Machine
end

