-- ==== Sys2Proof/Machine/Flags.lean ====
section
/-!
DEFINITION. Integer results and relations shared by the scalar and the vector instructions (spec 02 R56; 04 R101 to R104;
05 R124, R125), and the floating-point results per element that raise the flags of 03 R87 (05 R130).
-/

namespace Sys2Proof.Machine

/-! ### Integer results, modulo 2^w -/

def iAdd (w a b : Nat) : Nat := (a + b) % 2 ^ w
def iSub (w a b : Nat) : Nat := (a + 2 ^ w - b % 2 ^ w) % 2 ^ w
def iMul (w a b : Nat) : Nat := (a * b) % 2 ^ w
/-- floor(val(a) × val(b) / 2^w). -/
def iMulh (sg : Bool) (w a b : Nat) : Nat := modW w ((valOf sg w a * valOf sg w b) / ((2 ^ w : Nat) : Int))
/-- 04 R101, R102: truncation toward zero, fixed corner results. -/
def iDiv (sg : Bool) (w a b : Nat) : Nat :=
  if b % 2 ^ w = 0 then 2 ^ w - 1 else modW w (Int.tdiv (valOf sg w a) (valOf sg w b))
def iRem (sg : Bool) (w a b : Nat) : Nat :=
  if b % 2 ^ w = 0 then a % 2 ^ w else modW w (Int.tmod (valOf sg w a) (valOf sg w b))
def iAnd (a b : Nat) : Nat := a &&& b
def iOr (a b : Nat) : Nat := a ||| b
def iXor (a b : Nat) : Nat := a ^^^ b
def iNot (w a : Nat) : Nat := 2 ^ w - 1 - a % 2 ^ w
def iAndn (w a b : Nat) : Nat := a &&& iNot w b
def iShl (w a k : Nat) : Nat := (a <<< (k % w)) % 2 ^ w
def iShr (w a k : Nat) : Nat := (a % 2 ^ w) >>> (k % w)
def iSar (w a k : Nat) : Nat := modW w (valOf true w a / ((2 ^ (k % w) : Nat) : Int))
/-- Bit i moves to bit (i + k) mod w. -/
def iRot (w a k : Nat) : Nat := (iShl w a k) ||| ((a % 2 ^ w) >>> (w - k % w))
def iMin (sg : Bool) (w a b : Nat) : Nat := if valOf sg w a ≤ valOf sg w b then a else b
def iMax (sg : Bool) (w a b : Nat) : Nat := if valOf sg w a ≤ valOf sg w b then b else a
/-- Zero bits above the most significant one bit. -/
def iClz (w a : Nat) : Nat := let y := a % 2 ^ w; if y = 0 then w else w - 1 - Nat.log2 y
def iPopc (w a : Nat) : Nat := ((List.range w).filter (fun i => a.testBit i)).length
/-- Bit i of the result is bit w − 1 − i of a. -/
def iBrev (w a : Nat) : Nat := (List.range w).foldl (fun t i => if a.testBit (w - 1 - i) then t + 2 ^ i else t) 0
/-- Field extract (04 R104, 05 R125): bits beyond w − 1 read as 0. -/
def iExt (sg : Bool) (w a pos len : Nat) : Nat :=
  let f := ((a % 2 ^ w) >>> (pos % w)) % 2 ^ len
  if sg then sextN len w f else f
/-- Field insert: bits beyond w − 1 are dropped. -/
def iIns (w a b pos len : Nat) : Nat :=
  let p := pos % w
  let mask := (2 ^ len - 1) <<< p % 2 ^ w
  (a % 2 ^ w &&& iNot w mask) ||| ((b % 2 ^ len) <<< p % 2 ^ w)
/-- abs(val(a)) mod 2^w. -/
def iAbs (w a : Nat) : Nat := modW w ((valOf true w a).natAbs : Int)
/-- The truth table T8 applied bit by bit (05 R124). -/
def iLop3 (t8 a b c : Nat) : Nat :=
  (List.range 32).foldl (fun r i =>
    if t8.testBit ((a.testBit i).toNat + 2 * (b.testBit i).toNat + 4 * (c.testBit i).toNat) then r + 2 ^ i else r) 0
/-- Saturating add and subtract (05 R124). -/
def iAddSat (sg : Bool) (w a b : Nat) : Nat := modW w (clampInt sg w (valOf sg w a + valOf sg w b))
def iSubSat (sg : Bool) (w a b : Nat) : Nat := modW w (clampInt sg w (valOf sg w a - valOf sg w b))
/-- Four-way byte dot product (05 R127). -/
def iDot4 (sg sat : Bool) (a b c : Nat) : Nat :=
  let byte := fun (x k : Nat) => valOf sg 8 (x >>> (8 * k))
  let s := (List.range 4).foldl (fun (t : Int) k => t + byte a k * byte b k) (valOf sg 32 c)
  modW 32 (if sat then clampInt sg 32 s else s)

/-- Relation of two integers (02 R56): codes 0 to 5. -/
def iRel (rel : Nat) (a b : Int) : Bool :=
  match rel with
  | 0 => a == b
  | 1 => a != b
  | 2 => decide (a < b)
  | 3 => decide (a ≤ b)
  | 4 => decide (b < a)
  | _ => decide (b ≤ a)

/-- The w-bit result extended to the 64-bit scalar destination (04 R97). -/
def extS (t : Ty) (y : Nat) : Nat := if t.signed then sextN (tyW t) 64 y else y % 2 ^ tyW t

/-! ### Floating-point results per element -/

def isPacked : Ty → Bool | .f16x2 | .bf16x2 => true | _ => false

/-- Elements of a 32-bit word: one, or the two halves of a packed one (03 R75). -/
def elems (t : Ty) (x : Nat) : List Nat := if isPacked t then [x % 2 ^ 16, x / 2 ^ 16 % 2 ^ 16] else [x % 2 ^ 32]

/-- A per-element operation over the elements, element 0 first (03 R90). -/
def mapElems (t : Ty) (v : FEnv) (xs : List Nat) (f : FEnv → Nat → FEnv × Nat) : FEnv × Nat :=
  let r := xs.foldl (fun (a : FEnv × Nat × Nat) x =>
    let y := f a.1 x
    (y.1, a.2.1 + y.2 * 2 ^ a.2.2, a.2.2 + (if isPacked t then 16 else 32))) (v, 0, 0)
  (r.1, r.2.1)

/-- Element e of a word of type t with its modifiers. -/
def elemOf (t : Ty) (e x : Nat) (ab ng : Bool) : Nat := modBits (fmtOf t).width ab ng ((elems t x).getD e 0)

/-- Numbers of the elements of a type. -/
def elemNos (t : Ty) : List Nat := if isPacked t then [0, 1] else [0]

end Sys2Proof.Machine
end

