-- ==== Sys2Proof/Machine/Scalar.lean ====
section
/-!
DEFINITION. Scalar integer, address, special-register and predicate instructions (spec 04 R96 to R118).
-/

namespace Sys2Proof.Machine

/-! ### OP 0x00 (04 R100 to R106) -/

/-- A source reduced to the operation width (04 R97). -/
def sA (x : Ctx) (o : OpA) : Nat := srcScalar x o.ty (tyW o.ty) o.a
def sB (x : Ctx) (o : OpA) : Nat := srcScalar x o.ty (tyW o.ty) o.b
def sC (x : Ctx) (o : OpA) : Nat := srcScalar x o.ty (tyW o.ty) o.c

/-- A two-operand form: f takes signedness, width, a and b. -/
def scalar2 (c : Ctl) (o : OpA) (s : State) (f : Bool → Nat → Nat → Nat → Nat) : Host.Outcome State Fault Refusal :=
  scalarOp c o.dst [o.a, o.b] s (fun x => extS o.ty (f o.ty.signed (tyW o.ty) (sA x o) (sB x o)))
/-- A one-operand form. -/
def scalar1 (c : Ctl) (o : OpA) (s : State) (f : Nat → Nat → Nat) : Host.Outcome State Fault Refusal :=
  scalarOp c o.dst [o.a] s (fun x => extS o.ty (f (tyW o.ty) (sA x o)))

def isLatch : Src → Bool | .latch _ => true | _ => false

/-- The tag that SADD or SSUB keeps in a 64-bit form (09 R214): one tagged register and an untagged register, immediate or constant. A
latch, tagged or not, is no operand of R214's table, so the tagged register pins. -/
def sumTag (x : Ctx) (o : OpA) (sub : Bool) : Option Tag :=
  if !o.ty.is64 || isLatch o.a || isLatch o.b then none
  else
    match srcTag x.G o.a, srcTag x.G o.b with
    | some t, none =>
        some { t with c := if sub then t.c - BitVec.ofNat 64 (sB x o) else t.c + BitVec.ofNat 64 (sB x o) }
    | none, some t => if sub then none else some { t with c := t.c + BitVec.ofNat 64 (sA x o) }
    | _, _ => none

/-- SADD and SSUB: the value of the two-operand form, and the tag kept or the inputs pinned (09 R214). -/
def scalarSum (c : Ctl) (o : OpA) (s : State) (sub : Bool) : Host.Outcome State Fault Refusal :=
  let m := { (({} : Meta).reads false [(o.a, false), (o.b, false)]).write o.dst false with allow := .yes }
  issueWord c m s (fun x s =>
    let w := tyW o.ty
    let y := extS o.ty (if sub then iSub w (sA x o) (sB x o) else iAdd w (sA x o) (sB x o))
    let t := sumTag x o sub
    let G := if t.isSome then x.G else pinAll x.G [o.a, o.b]
    .done (s.setGroup x.g (putDst x G o.dst false (fun _ => y) (fun _ => false) t)) [])

/-- SADD (04 R101). -/
def execSadd (c : Ctl) (o : OpA) (s : State) : Host.Outcome State Fault Refusal := scalarSum c o s false
/-- SSUB (04 R101). -/
def execSsub (c : Ctl) (o : OpA) (s : State) : Host.Outcome State Fault Refusal := scalarSum c o s true
/-- SMUL (04 R101). -/
def execSmul (c : Ctl) (o : OpA) (s : State) : Host.Outcome State Fault Refusal := scalar2 c o s (fun _ w a b => iMul w a b)
/-- SMULH (04 R101). -/
def execSmulh (c : Ctl) (o : OpA) (s : State) : Host.Outcome State Fault Refusal := scalar2 c o s iMulh
/-- SDIV (04 R101, R102). -/
def execSdiv (c : Ctl) (o : OpA) (s : State) : Host.Outcome State Fault Refusal := scalar2 c o s iDiv
/-- SREM (04 R101, R102). -/
def execSrem (c : Ctl) (o : OpA) (s : State) : Host.Outcome State Fault Refusal := scalar2 c o s iRem
/-- SAND (04 R101). -/
def execSand (c : Ctl) (o : OpA) (s : State) : Host.Outcome State Fault Refusal := scalar2 c o s (fun _ _ a b => iAnd a b)
/-- SOR (04 R101). -/
def execSor (c : Ctl) (o : OpA) (s : State) : Host.Outcome State Fault Refusal := scalar2 c o s (fun _ _ a b => iOr a b)
/-- SXOR (04 R101). -/
def execSxor (c : Ctl) (o : OpA) (s : State) : Host.Outcome State Fault Refusal := scalar2 c o s (fun _ _ a b => iXor a b)
/-- SANDN (04 R101). -/
def execSandn (c : Ctl) (o : OpA) (s : State) : Host.Outcome State Fault Refusal := scalar2 c o s (fun _ w a b => iAndn w a b)
/-- SSHL (04 R101). -/
def execSshl (c : Ctl) (o : OpA) (s : State) : Host.Outcome State Fault Refusal := scalar2 c o s (fun _ w a b => iShl w a b)
/-- SSHR (04 R101). -/
def execSshr (c : Ctl) (o : OpA) (s : State) : Host.Outcome State Fault Refusal := scalar2 c o s (fun _ w a b => iShr w a b)
/-- SSAR (04 R101). -/
def execSsar (c : Ctl) (o : OpA) (s : State) : Host.Outcome State Fault Refusal := scalar2 c o s (fun _ w a b => iSar w a b)
/-- SROT (04 R101). -/
def execSrot (c : Ctl) (o : OpA) (s : State) : Host.Outcome State Fault Refusal := scalar2 c o s (fun _ w a b => iRot w a b)
/-- SMIN (04 R101). -/
def execSmin (c : Ctl) (o : OpA) (s : State) : Host.Outcome State Fault Refusal := scalar2 c o s iMin
/-- SMAX (04 R101). -/
def execSmax (c : Ctl) (o : OpA) (s : State) : Host.Outcome State Fault Refusal := scalar2 c o s iMax
/-- SCLZ (04 R101). -/
def execSclz (c : Ctl) (o : OpA) (s : State) : Host.Outcome State Fault Refusal := scalar1 c o s iClz
/-- SPOPC (04 R101). -/
def execSpopc (c : Ctl) (o : OpA) (s : State) : Host.Outcome State Fault Refusal := scalar1 c o s iPopc
/-- SBREV (04 R101). -/
def execSbrev (c : Ctl) (o : OpA) (s : State) : Host.Outcome State Fault Refusal := scalar1 c o s iBrev
/-- SEXT (04 R104): AUX holds the length minus one. -/
def execSext (c : Ctl) (o : OpA) (s : State) : Host.Outcome State Fault Refusal :=
  scalar2 c o s (fun sg w a b => iExt sg w a b (o.aux.toNat + 1))
/-- SINS (04 R104): the position is SRC. -/
def execSins (c : Ctl) (o : OpA) (s : State) : Host.Outcome State Fault Refusal :=
  scalarOp c o.dst [o.a, o.b, o.c] s (fun x => iIns 64 (sA x o) (sB x o) (sC x o) (o.aux.toNat + 1))
/-- SSEL (04 R105): the selector is the lowest-numbered active lane's. -/
def execSsel (c : Ctl) (o : OpA) (s : State) : Host.Outcome State Fault Refusal :=
  scalarOp c o.dst [o.a, o.b] s (fun x =>
    extS o.ty (if x.G.laneTest x.low (fun l => l.pred (o.aux.toNat % 16)) then sA x o else sB x o))

/-- The relation as seen from the other operand (09 R215). -/
def mirrorRel : Nat → Nat
  | 2 => 4
  | 3 => 5
  | 4 => 2
  | 5 => 3
  | r => r

/-- SCMP's entry in the constraint buffer, or the pins that stand for it (09 R214, R215). -/
def recordCons (x : Ctx) (a b : Src) (t : Ty) (rel : Nat) (va vb : Int) (out : Bool) : Group :=
  let full := match x.G.region with | some r => decide (16 ≤ r.cons.length) | none => true
  let one : Option (Tag × Nat × Int) :=
    if isLatch a || isLatch b then none
    else match srcTag x.G a, srcTag x.G b with
    | some g, none => some (g, rel, vb)
    | none, some g => some (g, mirrorRel rel, va)
    | _, _ => none
  match one with
  | some (g, r, rhs) =>
    if full then pinAll x.G [a, b]
    else { x.G with region := x.G.region.map (fun q =>
      { q with cons := q.cons ++ [{ k := g.k, c := g.c, rel := r, rhs, ty := t, out }] }) }
  | none => pinAll x.G [a, b]

/-- A scalar comparison of type t (04 R106). -/
def scalarCmp (c : Ctl) (d : Dst) (a b : Src) (t : Ty) (rel : Nat) (s : State) : Host.Outcome State Fault Refusal :=
  let m := { (({} : Meta).reads false [(a, false), (b, false)]).write d false with allow := .yes }
  issueWord c m s (fun x s =>
    let w := tyW t
    let va := valOf t.signed w (srcScalar x t w a)
    let vb := valOf t.signed w (srcScalar x t w b)
    let out := iRel rel va vb
    .done (s.setGroup x.g (putPlain x (recordCons x a b t rel va vb out) d false (fun _ => out.toNat))) [])

/-- SCMP (04 R106). -/
def execScmp (c : Ctl) (o : OpA) (s : State) : Host.Outcome State Fault Refusal :=
  scalarCmp c o.dst o.a o.b o.ty (o.aux.toNat % 16) s

/-! ### Constants and addresses (04 R107, R108) -/

/-- SMOVI (04 R107). -/
def execSmovi (c : Ctl) (o : OpE) (s : State) : Host.Outcome State Fault Refusal :=
  scalarOp c o.dst [] s (fun _ => sextN 32 64 o.imm.toNat)
/-- SMOVH (04 R107). -/
def execSmovh (c : Ctl) (o : OpE) (s : State) : Host.Outcome State Fault Refusal :=
  scalarOp c o.dst [o.a] s (fun x => o.imm.toNat * 2 ^ 32 + src64 x o.a % 2 ^ 32)

/-- base + (index << SCL) + sext(offset) modulo 2^64 (04 R108). -/
def effAddr (base idx scl off : Nat) : Nat := (base + idx * 2 ^ scl + sextN 24 64 off) % 2 ^ 64

/-- Sources of an M layout: the index is absent when its field and SCL are zero (02 R55). -/
def mSrcs (o : OpM) : List Src := if o.noIdx then [o.base] else [o.base, o.idx]

/-- SLEA (04 R108). -/
def execSlea (c : Ctl) (o : OpM) (s : State) : Host.Outcome State Fault Refusal :=
  scalarOp c o.dst (mSrcs o) s (fun x =>
    effAddr (src64 x o.base) (if o.noIdx then 0 else src64 x o.idx) o.scl.toNat o.off.toNat)

/-! ### Special registers (01 R38, R39; 04 R109 to R113; 12 R274) -/

/-- sr.acnt (01 R39). -/
def acntOf (G : Group) : Nat :=
  G.counter 0 + G.counter 1 * 2 ^ 6 + G.counter 2 * 2 ^ 12 + G.counter 3 * 2 ^ 18

/-- sr.lrver: HI and LO are 1 (16 R345). -/
def lrver : Nat := 0x10001

/-- The number of a tile's partition-local index (01 R27). -/
def localIndex (p : Part) (tile : Nat) : Nat := p.tiles.findIdx (· == tile)

/-- Is the register held per lane (01 R38)? -/
def srLane (n : Nat) : Bool := n == 0x000 || (0x010 ≤ n && n ≤ 0x017) || n == 0x030 || n == 0x032

/-- A special register as lane i of group g reads it. -/
def srRead (s : State) (G : Group) (i n : Nat) : Nat :=
  let L := s.launchOf G
  let P := s.partOf G
  let r := L.map Launch.rc
  match n with
  | 0x000 => i
  | 0x001 => G.w
  | 0x002 => G.number
  | 0x003 => G.core
  | 0x004 => G.tile
  | 0x005 => G.tile % 30
  | 0x006 => G.tile / 30
  | 0x007 => (match P with | some p => localIndex p G.tile | none => 0)
  | 0x008 => (match P with | some p => p.tiles.length | none => 0)
  | 0x009 => s.waferid
  | 0x010 | 0x011 | 0x012 | 0x013 | 0x014 | 0x015 | 0x016 | 0x017 =>
    (match r with | some r => r.idx (n - 0x010) (G.lin + i) | none => 0)
  | 0x018 | 0x019 | 0x01A | 0x01B | 0x01C | 0x01D | 0x01E | 0x01F =>
    (match r with | some r => r.ext (n - 0x018) | none => 0)
  | 0x020 => s.clock % 2 ^ 64
  | 0x021 => (match L, P with
      | some l, some p => modW 64 (p.queues.lookD Queue.reset l.q).budget
      | _, _ => 0)
  | 0x022 => lrver
  | 0x023 => G.priv.toNat
  | 0x030 => (match G.lane? i with | some l => l.fflags.toNat | none => 0)
  | 0x031 => G.srseed.toNat
  | 0x032 => (match G.lane? i with | some l => l.srctr.toNat | none => 0)
  | 0x033 => G.arstat.toNat
  | 0x034 => acntOf G
  | 0x100 => (match P with | some p => p.tvec | none => 0)
  | 0x101 => G.epc.toNat
  | 0x102 => G.ecause.toNat
  | 0x103 => G.eaddr.toNat
  | 0x104 => G.emask.toNat
  | 0x105 => G.einsl.toNat
  | 0x106 => G.einsh.toNat
  | 0x107 => G.escr0.toNat
  | 0x108 => G.escr1.toNat
  | 0x109 => (match P with | some p => 2 ^ p.wdlog | none => 0)
  | 0x110 => (match P with | some p => p.s1root | none => 0)
  | _ => (match P with | some p => p.s1ctl | none => 0)

/-- Width of a register, in either range. -/
def srBits (n : Nat) : Nat := if srSonly n then (srWidthS n).getD 64 else (srWidth n).getD 32

/-- An S-only number that is not assigned raises 0x01 at S (01 R38); so does an odd pair or a 64-bit vector (04 R110). -/
def srdIllegal (d : Dst) (n : Nat) : Bool :=
  srSonly n && ((srWidthS n).isNone || (srBits n == 64 && !(d.isSca || d.isEvenVec)))

/-- SRD of register n (04 R110). -/
def readSr (c : Ctl) (d : Dst) (n : Nat) (s : State) : Host.Outcome State Fault Refusal :=
  let wide := srBits n == 64 && d.isVec
  let m := { (({} : Meta).write d wide) with
    sOnly := srSonly n, badS := srdIllegal d n, allow := if d.isSca then .yes else .no }
  issueWord c m s (fun x s =>
    .done (s.setGroup x.g (putPlain x x.G d wide (fun i =>
      srRead s x.G (if srLane n then (if d.isVec then i else x.low) else 0) n))) [])

/-- SRD (04 R110). -/
def execSrd (c : Ctl) (o : OpE) (s : State) : Host.Outcome State Fault Refusal := readSr c o.dst o.imm.toNat s

/-- The S-only registers that SWR writes (12 R274). -/
def swrOk (n : Nat) : Bool :=
  n == 0x100 || n == 0x101 || n == 0x107 || n == 0x108 || n == 0x110 || n == 0x111

/-- The writable bits of sr.s1root, and of sr.s1ctl with QSZ clamped to 8 (15 R331). -/
def s1rootOf (y : Nat) : Nat := bitsN y 47 12 * 2 ^ 12
def s1ctlOf (y : Nat) : Nat := bitsN y 47 12 * 2 ^ 12 + min 8 (bitsN y 11 8) * 2 ^ 8 + y % 2

/-- An SWR's write of a register wider than a lane. -/
def srWrite (s : State) (G : Group) (g n y : Nat) : State :=
  let q := BitVec.ofNat 64 y
  match n with
  | 0x031 => s.setGroup g { G with srseed := q }
  | 0x100 => s.updPart (s.partNo G) (fun p => { p with tvec := y / 4 * 4 })
  | 0x101 => s.setGroup g { G with epc := q }
  | 0x107 => s.setGroup g { G with escr0 := q }
  | 0x108 => s.setGroup g { G with escr1 := q }
  | 0x110 => s.updPart (s.partNo G) (fun p => { p with s1root := s1rootOf y })
  | 0x111 => s.updPart (s.partNo G) (fun p => { p with s1ctl := s1ctlOf y })
  | _ => s

/-- The registers of a whole partition (12 R274, R276). -/
def srPart (n : Nat) : Bool := srSonly n && (n == 0x100 || 0x110 ≤ n)

/-- SWR (04 R111). To a partition-scope register it is a release and waits for the side log, so CHN may not be set (12 R276; 01 R33). -/
def execSwr (c : Ctl) (o : OpE) (s : State) : Host.Outcome State Fault Refusal :=
  let n := o.imm.toNat
  let lane := n == 0x030 || n == 0x032
  let m := { (({} : Meta).read false o.a false) with sOnly := srSonly n, badS := srSonly n && (!swrOk n || o.a.isOf [.v]), chnOk := !srPart n }
  issueWord c m s (fun x s =>
    if lane then
      .done (s.updGroup x.g (fun G => G.updLanes x.act (fun i l =>
        let y := srcLane x.G (match o.a with | .vreg _ => i | _ => x.low) .n32 32 o.a
        if n = 0x030 then { l with fflags := BitVec.ofNat 6 y } else { l with srctr := BitVec.ofNat 32 y }))) []
    else match (if srPart n then relStop s x x.act false else none) with
      | some r => r
      | none => .done (srWrite s x.G x.g n (srcScalar x .n64 64 o.a)) [])

/-! ### Predicates (04 R114) -/

/-- Bit (pa + 2 × pb) of a truth table. -/
def truth2 (t : Nat) (pa pb : Bool) : Bool := t.testBit (pa.toNat + 2 * pb.toNat)

/-- A predicate-number field. -/
def predNo : Src → Nat | .vreg n => n.toNat % 16 | _ => 0

/-- PLOP (04 R114). -/
def execPlop (c : Ctl) (o : OpA) (s : State) : Host.Outcome State Fault Refusal :=
  issueWord c { (({} : Meta).write o.dst false) with allow := .yes } s (fun x s =>
    .done (s.setGroup x.g (putPlain x x.G o.dst false (fun i =>
      (x.G.laneTest i (fun l => truth2 (o.aux.toNat % 16) (l.pred (predNo o.a)) (l.pred (predNo o.b)))).toNat))) [])

end Sys2Proof.Machine
end

