-- ==== Sys2Proof/Machine/Vector.lean ====
section
/-!
DEFINITION. Vector integer instructions (spec 05 R119 to R128): each active lane computes on its own.
-/

namespace Sys2Proof.Machine

/-- The operands of a lane at the width of the type (05 R120). -/
def vA (x : Ctx) (i : Nat) (o : OpA) : Nat := srcLane x.G i o.ty (tyW o.ty) o.a
def vB (x : Ctx) (i : Nat) (o : OpA) : Nat := srcLane x.G i o.ty (tyW o.ty) o.b
def vC (x : Ctx) (i : Nat) (o : OpA) : Nat := srcLane x.G i o.ty (tyW o.ty) o.c
/-- A 32-bit amount, position or count (05 R123). -/
def vN (x : Ctx) (i : Nat) (a : Src) : Nat := srcLane x.G i .n32 32 a

/-- A result that raises no flag and draws nothing (05 R128). -/
def pureLane (f : Ctx → Nat → Nat) (x : Ctx) (i : Nat) (v : FEnv) : FEnv × Nat := (v, f x i)

/-- One, two and three operands of the type's width. f takes signedness, width and the operands. -/
def vec1 (c : Ctl) (o : OpA) (s : State) (f : Nat → Nat → Nat) : Host.Outcome State Fault Refusal :=
  laneOp c o.dst o.ty.is64 [(o.a, o.ty.is64)] s (pureLane (fun x i => f (tyW o.ty) (vA x i o)))
def vec2 (c : Ctl) (o : OpA) (s : State) (f : Bool → Nat → Nat → Nat → Nat) : Host.Outcome State Fault Refusal :=
  laneOp c o.dst o.ty.is64 [(o.a, o.ty.is64), (o.b, o.ty.is64)] s
    (pureLane (fun x i => f o.ty.signed (tyW o.ty) (vA x i o) (vB x i o)))
def vec3 (c : Ctl) (o : OpA) (s : State) (f : Nat → Nat → Nat → Nat) : Host.Outcome State Fault Refusal :=
  laneOp c o.dst false [(o.a, false), (o.b, false), (o.c, false)] s (pureLane (fun x i => f (vA x i o) (vB x i o) (vC x i o)))
/-- A shift: the amount is a 32-bit operand. -/
def vecShift (c : Ctl) (o : OpA) (s : State) (f : Nat → Nat → Nat → Nat) : Host.Outcome State Fault Refusal :=
  laneOp c o.dst o.ty.is64 [(o.a, o.ty.is64), (o.b, false)] s (pureLane (fun x i => f (tyW o.ty) (vA x i o) (vN x i o.b)))

/-- VADD (05 R124). -/
def execVadd (c : Ctl) (o : OpA) (s : State) : Host.Outcome State Fault Refusal :=
  vec2 c o s (fun sg w a b => if o.sat then iAddSat sg w a b else iAdd w a b)

/-- VSUB (05 R124). -/
def execVsub (c : Ctl) (o : OpA) (s : State) : Host.Outcome State Fault Refusal :=
  vec2 c o s (fun sg w a b => if o.sat then iSubSat sg w a b else iSub w a b)

/-- VMUL (05 R124). -/
def execVmul (c : Ctl) (o : OpA) (s : State) : Host.Outcome State Fault Refusal :=
  vec2 c o s (fun _ w a b => iMul w a b)

/-- VMULH (05 R124). -/
def execVmulh (c : Ctl) (o : OpA) (s : State) : Host.Outcome State Fault Refusal :=
  vec2 c o s iMulh

/-- VMAD (05 R124). -/
def execVmad (c : Ctl) (o : OpA) (s : State) : Host.Outcome State Fault Refusal :=
  vec3 c o s (fun a b e => iAdd 32 (iMul 32 a b) e)

/-- VAND (05 R124). -/
def execVand (c : Ctl) (o : OpA) (s : State) : Host.Outcome State Fault Refusal :=
  vec2 c o s (fun _ _ a b => iAnd a b)

/-- VOR (05 R124). -/
def execVor (c : Ctl) (o : OpA) (s : State) : Host.Outcome State Fault Refusal :=
  vec2 c o s (fun _ _ a b => iOr a b)

/-- VXOR (05 R124). -/
def execVxor (c : Ctl) (o : OpA) (s : State) : Host.Outcome State Fault Refusal :=
  vec2 c o s (fun _ _ a b => iXor a b)

/-- VLOP3 (05 R124). -/
def execVlop3 (c : Ctl) (o : OpA) (s : State) : Host.Outcome State Fault Refusal :=
  vec3 c o s (iLop3 o.aux.toNat)

/-- VSHL (05 R124). -/
def execVshl (c : Ctl) (o : OpA) (s : State) : Host.Outcome State Fault Refusal :=
  vecShift c o s iShl

/-- VSHR (05 R124). -/
def execVshr (c : Ctl) (o : OpA) (s : State) : Host.Outcome State Fault Refusal :=
  vecShift c o s iShr

/-- VSAR (05 R124). -/
def execVsar (c : Ctl) (o : OpA) (s : State) : Host.Outcome State Fault Refusal :=
  vecShift c o s iSar

/-- VMIN (05 R124). -/
def execVmin (c : Ctl) (o : OpA) (s : State) : Host.Outcome State Fault Refusal :=
  vec2 c o s iMin

/-- VMAX (05 R124). -/
def execVmax (c : Ctl) (o : OpA) (s : State) : Host.Outcome State Fault Refusal :=
  vec2 c o s iMax

/-- VABS (05 R124). -/
def execVabs (c : Ctl) (o : OpA) (s : State) : Host.Outcome State Fault Refusal :=
  vec1 c o s iAbs

/-- VCLZ (05 R124). -/
def execVclz (c : Ctl) (o : OpA) (s : State) : Host.Outcome State Fault Refusal :=
  vec1 c o s iClz

/-- VPOPC (05 R124). -/
def execVpopc (c : Ctl) (o : OpA) (s : State) : Host.Outcome State Fault Refusal :=
  vec1 c o s iPopc

/-- VEXT (05 R125). -/
def execVext (c : Ctl) (o : OpA) (s : State) : Host.Outcome State Fault Refusal :=
  vec2 c o s (fun sg _ a b => iExt sg 32 a b (o.aux.toNat % 32 + 1))

/-- VINS (05 R125). -/
def execVins (c : Ctl) (o : OpA) (s : State) : Host.Outcome State Fault Refusal :=
  vec3 c o s (fun a b e => iIns 32 a b e (o.aux.toNat % 32 + 1))

/-- VSEL (05 R124). -/
def execVsel (c : Ctl) (o : OpA) (s : State) : Host.Outcome State Fault Refusal :=
  laneOp c o.dst o.ty.is64 [(o.a, o.ty.is64), (o.b, o.ty.is64)] s (pureLane (fun x i =>
    if x.G.laneTest i (fun l => l.pred (o.aux.toNat % 16)) then vA x i o else vB x i o))

/-- VCMP (05 R126). -/
def execVcmp (c : Ctl) (o : OpA) (s : State) : Host.Outcome State Fault Refusal :=
  laneOp c o.dst false [(o.a, o.ty.is64), (o.b, o.ty.is64)] s (pureLane (fun x i =>
    (iRel (o.aux.toNat % 16) (valOf o.ty.signed (tyW o.ty) (vA x i o)) (valOf o.ty.signed (tyW o.ty) (vB x i o))).toNat))

/-- VMOV (05 R124). -/
def execVmov (c : Ctl) (o : OpA) (s : State) : Host.Outcome State Fault Refusal :=
  vec1 c o s (fun _ a => a)

/-- VMOVI (05 R124). -/
def execVmovi (c : Ctl) (o : OpE) (s : State) : Host.Outcome State Fault Refusal :=
  laneOp c o.dst false [] s (pureLane (fun _ _ => o.imm.toNat))

/-- VDOT4 (05 R127). -/
def execVdot4 (c : Ctl) (o : OpA) (s : State) : Host.Outcome State Fault Refusal :=
  vec3 c o s (iDot4 o.ty.signed o.sat)

end Sys2Proof.Machine
end

