-- ==== Sys2Proof/Machine/Fp.lean ====
section
/-!
DEFINITION. Vector floating-point instructions (spec 05 R129 to R136).
-/

namespace Sys2Proof.Machine

/-- Operands of a lane as words, before modifiers. -/
def fWord (x : Ctx) (i : Nat) (o : OpA) (a : Src) : Nat := srcLane x.G i o.ty 32 a
/-- Element e of each source with its modifiers, as an encoding and as a value. -/
def fA (x : Ctx) (i : Nat) (o : OpA) (e : Nat) : Nat := elemOf o.ty e (fWord x i o o.a) o.aba o.nga
def fB (x : Ctx) (i : Nat) (o : OpA) (e : Nat) : Nat := elemOf o.ty e (fWord x i o o.b) o.abb o.ngb
def fC (x : Ctx) (i : Nat) (o : OpA) (e : Nat) : Nat := elemOf o.ty e (fWord x i o o.c) o.abc o.ngc
def fvA (x : Ctx) (i : Nat) (o : OpA) (e : Nat) : Fv := (fmtOf o.ty).read (fA x i o e)
def fvB (x : Ctx) (i : Nat) (o : OpA) (e : Nat) : Fv := (fmtOf o.ty).read (fB x i o e)
def fvC (x : Ctx) (i : Nat) (o : OpA) (e : Nat) : Fv := (fmtOf o.ty).read (fC x i o e)

/-- A form that computes element by element, element 0 first (05 R130); f takes the lane and the element number. -/
def fpOp (c : Ctl) (o : OpA) (srcs : List Src) (s : State) (f : Ctx → Nat → FEnv → Nat → FEnv × Nat) :
    Host.Outcome State Fault Refusal :=
  laneOp c o.dst false (srcs.map (fun a => (a, false))) s (fun x i v => mapElems o.ty v (elemNos o.ty) (f x i))

/-- A sum of products and addends in the type's format (05 R130). -/
def fpSum (c : Ctl) (o : OpA) (srcs : List Src) (s : State) (f : Ctx → Nat → Nat → List (Fv × Fv) × List Fv) :
    Host.Outcome State Fault Refusal :=
  fpOp c o srcs s (fun x i v e => let t := f x i e; (fmtOf o.ty).sum o.rm false v t.1 t.2)

/-- An approximated function (05 R135). -/
def fpApprox (fn : Config.Approx) (c : Ctl) (o : OpA) (s : State) : Host.Outcome State Fault Refusal :=
  fpOp c o [o.a] s (fun x i v e => fApprox fn v (BitVec.ofNat 32 (fA x i o e)))

/-- FADD (05 R130). -/
def execFadd (c : Ctl) (o : OpA) (s : State) : Host.Outcome State Fault Refusal :=
  fpSum c o [o.a, o.b] s (fun x i e => ([], [fvA x i o e, fvB x i o e]))

/-- FSUB (05 R130). -/
def execFsub (c : Ctl) (o : OpA) (s : State) : Host.Outcome State Fault Refusal :=
  fpSum c o [o.a, o.b] s (fun x i e => ([], [fvA x i o e, (fvB x i o e).negate]))

/-- FMUL (05 R130). -/
def execFmul (c : Ctl) (o : OpA) (s : State) : Host.Outcome State Fault Refusal :=
  fpSum c o [o.a, o.b] s (fun x i e => ([(fvA x i o e, fvB x i o e)], []))

/-- FFMA (05 R130). -/
def execFfma (c : Ctl) (o : OpA) (s : State) : Host.Outcome State Fault Refusal :=
  fpSum c o [o.a, o.b, o.c] s (fun x i e => ([(fvA x i o e, fvB x i o e)], [fvC x i o e]))

/-- FMIN (05 R132). -/
def execFmin (c : Ctl) (o : OpA) (s : State) : Host.Outcome State Fault Refusal :=
  fpOp c o [o.a, o.b] s (fun x i v e => (fmtOf o.ty).minmax false v (fA x i o e) (fB x i o e))

/-- FMAX (05 R132). -/
def execFmax (c : Ctl) (o : OpA) (s : State) : Host.Outcome State Fault Refusal :=
  fpOp c o [o.a, o.b] s (fun x i v e => (fmtOf o.ty).minmax true v (fA x i o e) (fB x i o e))

/-- FCMP (05 R133). -/
def execFcmp (c : Ctl) (o : OpA) (s : State) : Host.Outcome State Fault Refusal :=
  fpOp c o [o.a, o.b] s (fun x i v e =>
    let rel := o.aux.toNat % 16
    (v.raiseIf (fRelInv rel (fvA x i o e) (fvB x i o e)) flINV, (fRel rel (fvA x i o e) (fvB x i o e)).toNat))

/-- FCLASS (05 R134). -/
def execFclass (c : Ctl) (o : OpA) (s : State) : Host.Outcome State Fault Refusal :=
  fpOp c o [o.a] s (fun x i v e => (v, (fmtOf o.ty).classOf (fA x i o e)))

/-- FDIV (05 R130). -/
def execFdiv (c : Ctl) (o : OpA) (s : State) : Host.Outcome State Fault Refusal :=
  fpOp c o [o.a, o.b] s (fun x i v e => fDiv o.rm v (fvA x i o e) (fvB x i o e))

/-- FSQRT (05 R130). -/
def execFsqrt (c : Ctl) (o : OpA) (s : State) : Host.Outcome State Fault Refusal :=
  fpOp c o [o.a] s (fun x i v e => fSqrt o.rm v (fvA x i o e))

/-- FRCP (05 R135). -/
def execFrcp (c : Ctl) (o : OpA) (s : State) : Host.Outcome State Fault Refusal :=
  fpApprox .rcp c o s

/-- FRSQ (05 R135). -/
def execFrsq (c : Ctl) (o : OpA) (s : State) : Host.Outcome State Fault Refusal :=
  fpApprox .rsq c o s

/-- FEXP2 (05 R135). -/
def execFexp2 (c : Ctl) (o : OpA) (s : State) : Host.Outcome State Fault Refusal :=
  fpApprox .exp2 c o s

/-- FLOG2 (05 R135). -/
def execFlog2 (c : Ctl) (o : OpA) (s : State) : Host.Outcome State Fault Refusal :=
  fpApprox .log2 c o s

/-- FSIN (05 R135). -/
def execFsin (c : Ctl) (o : OpA) (s : State) : Host.Outcome State Fault Refusal :=
  fpApprox .sin c o s

/-- FCOS (05 R135). -/
def execFcos (c : Ctl) (o : OpA) (s : State) : Host.Outcome State Fault Refusal :=
  fpApprox .cos c o s

/-- FTANH (05 R135). -/
def execFtanh (c : Ctl) (o : OpA) (s : State) : Host.Outcome State Fault Refusal :=
  fpApprox .tanh c o s

/-- FROUND (05 R131). -/
def execFround (c : Ctl) (o : OpA) (s : State) : Host.Outcome State Fault Refusal :=
  fpOp c o [o.a] s (fun x i v e => (fmtOf o.ty).roundInt o.rm v (fvA x i o e))

/-- FSCALE (05 R130). -/
def execFscale (c : Ctl) (o : OpA) (s : State) : Host.Outcome State Fault Refusal :=
  fpOp c o [o.a, o.b] s (fun x i v e =>
    fScale o.rm v (fA x i o e) (fvA x i o e) (valOf true 32 (srcLane x.G i .i32 32 o.b)))

/-- FDOT2 (05 R130). -/
def execFdot2 (c : Ctl) (o : OpA) (s : State) : Host.Outcome State Fault Refusal :=
  laneOp c o.dst false [(o.a, false), (o.b, false), (o.c, false)] s (fun x i v =>
    let z := modBits 32 o.abc o.ngc (srcLane x.G i .f32 32 o.c)
    Fmt.f32.sum o.rm false v [(fvA x i o 0, fvB x i o 0), (fvA x i o 1, fvB x i o 1)] [Fmt.f32.read z])

end Sys2Proof.Machine
end

