-- ==== Sys2Proof/Machine/Convert.lean ====
section
/-!
DEFINITION. Conversions between types, the block-format encoder and decoder, and RND (spec 05 R137 to R142).
-/

namespace Sys2Proof.Machine

/-- Source type of a conversion. -/
def srcTyOf (o : OpA) : Ty := o.srcTy.getD .f32

/-- Width in bits of an integer type. -/
def intWidth : Ty → Nat
  | .i8 | .n8 => 8
  | .i16 | .n16 => 16
  | .i64 | .n64 => 64
  | _ => 32

/-- An integer read per its type and extended to the register word or the pair (05 R138). -/
def extInt (t : Ty) (i : Int) : Nat :=
  let y := modW (intWidth t) i
  modW (tyW t) (valOf t.signed (intWidth t) y)

/-- One lane of CVT (05 R138): w is the source's bits. -/
def cvtLane (dt st : Ty) (rm : Rm) (sat : Bool) (esel : Nat) (ab ng : Bool) (v : FEnv) (w : Nat) : FEnv × Nat :=
  if dt.isInt && st.isInt then
    let i := valOf st.signed (tyW st) w
    (v, extInt dt (if sat then clampInt dt.signed (intWidth dt) i else i))
  else if dt.isInt then fToInt rm dt.signed (tyW dt) v (Fmt.f32.read (modBits 32 ab ng w))
  else if st.isInt then Fmt.f32.ofInt rm v (valOf st.signed (tyW st) w)
  else if dt == .f32 then toF32 v ((fmtOf st).read (elemOf st esel w ab ng))
  else mapElems dt v [0, 1] (fun v e => (fmtOf dt).convert rm false v ((fmtOf st).read (elemOf st e w ab ng)))

/-- CVT (05 R138). -/
def execCvt (c : Ctl) (o : OpA) (s : State) : Host.Outcome State Fault Refusal :=
  let st := srcTyOf o
  laneOp c o.dst o.ty.is64 [(o.a, st.is64)] s (fun x i v =>
    cvtLane o.ty st o.rm o.sat (o.aux.toNat % 2) o.aba o.nga v (srcLane x.G i st (tyW st) o.a))

/-- The block format of a type. -/
def bxOf (t : Ty) : BxFmt := if t == .bx4 then .bx4 else .bx8

/-- CVTBX (05 R141): each block of 32 lanes shares its exponents; inactive lanes contribute +0. -/
def execCvtbx (c : Ctl) (o : OpA) (s : State) : Host.Outcome State Fault Refusal :=
  let f := bxOf o.ty
  let val := fun (x : Ctx) (i : Nat) => Fmt.f32.read (modBits 32 o.aba o.nga (srcLane x.G i .f32 32 o.a))
  laneOp c o.dst false [(o.a, false)] s (fun x i v =>
    let ex := f.exps (o.aux.toNat % 16) ((x.act.filter (fun j => j / 32 == i / 32)).map (val x))
    let el := f.element o.rm v ex (val x i)
    let (e0, e1) := ex.getD (0xFF, 0xFF)
    (el.1, e1 * 2 ^ 16 + e0 * 2 ^ 8 + el.2))

/-- CVTXF (05 R141). -/
def execCvtxf (c : Ctl) (o : OpA) (s : State) : Host.Outcome State Fault Refusal :=
  laneOp c o.dst false [(o.a, false)] s (fun x i v =>
    let w := srcLane x.G i .n32 32 o.a
    let f := bxOf (srcTyOf o)
    let k := 2 ^ (f.mb + 1)
    toF32 v (f.read (bitsN w 15 8) (bitsN w 23 16) (w % 256 / k * k + modBits (f.mb + 1) o.aba o.nga (w % k))))

/-- CVTF8 (05 R140). -/
def execCvtf8 (c : Ctl) (o : OpA) (s : State) : Host.Outcome State Fault Refusal :=
  let k := o.aux.toNat % 4
  if o.ty == .f32 then
    laneOp c o.dst false [(o.a, false)] s (fun x i v =>
      toF32 v ((fmtOf (srcTyOf o)).read (modBits 8 o.aba o.nga (srcLane x.G i .n32 32 o.a / 2 ^ (8 * k) % 256))))
  else
    laneOp c o.dst false [(o.a, false), (o.b, false), (o.c, false)] s (fun x i v =>
      let f := fmtOf o.ty
      let h := k % 2
      let w := srcLane x.G i .n32 32 o.c
      let a := f.convert o.rm o.sat v (Fmt.f32.read (modBits 32 o.aba o.nga (srcLane x.G i .f32 32 o.a)))
      let b := f.convert o.rm o.sat a.1 (Fmt.f32.read (modBits 32 o.abb o.ngb (srcLane x.G i .f32 32 o.b)))
      let y := a.2 + b.2 * 2 ^ 8
      (b.1, if h = 0 then w / 2 ^ 16 * 2 ^ 16 + y else y * 2 ^ 16 + w % 2 ^ 16))

/-- CVTPK (05 R139). -/
def execCvtpk (c : Ctl) (o : OpA) (s : State) : Host.Outcome State Fault Refusal :=
  laneOp c o.dst false [(o.a, false), (o.b, false)] s (fun x i v =>
    let f := fmtOf o.ty
    let a := f.convert o.rm false v (Fmt.f32.read (modBits 32 o.aba o.nga (srcLane x.G i .f32 32 o.a)))
    let b := f.convert o.rm false a.1 (Fmt.f32.read (modBits 32 o.abb o.ngb (srcLane x.G i .f32 32 o.b)))
    (b.1, a.2 + b.2 * 2 ^ 16))

/-- RND (05 R142): the key is a scalar register, or the lane's own latch. -/
def execRnd (c : Ctl) (o : OpA) (s : State) : Host.Outcome State Fault Refusal :=
  laneOp c o.dst false [(o.a, false), (o.b, false)] s (pureLane (fun x i =>
    (rnd (BitVec.ofNat 64 (srcLane x.G i .n64 64 o.a)) (BitVec.ofNat 32 (vN x i o.b))).toNat))

end Sys2Proof.Machine
end

