-- ==== Sys2Proof/Machine/LaneOps.lean ====
section
/-!
DEFINITION. Exchange between the lanes of a group, ballots, votes, reductions, scans and validity counts (spec 06 R144 to R157).
MCNT stands with the loads.
-/

namespace Sys2Proof.Machine

/-- A register of another lane, with its poison mark (06 R145). -/
def otherLane (G : Group) (wide : Bool) (a : Src) (j : Nat) : Nat × Bool :=
  match a, G.lane? j with
  | .vreg n, some l =>
    ((l.vreg n.toNat).toNat + (if wide then (l.vreg (n.toNat + 1)).toNat * 2 ^ 32 else 0),
      l.vpsn n.toNat || (wide && l.vpsn (n.toNat + 1)))
  | _, _ => (0, false)

/-- Registers of a source that the checks see and poison does not (06 R148): the instruction says itself which lanes it reads. -/
def Meta.named (m : Meta) (a : Src) (wide : Bool) : Meta :=
  match a with
  | .vreg n => { m with vregs := m.vregs ++ (if wide then [n.toNat, n.toNat + 1] else [n.toNat]) }
  | _ => m

/-- The lane that SHFL reads (06 R149). -/
def shflSrc (w mode k i b : Nat) : Nat :=
  let S := min (2 ^ k) w
  let j := i % S
  let base := i - j
  match mode with
  | 0 => base + b % S
  | 1 => if b ≤ j then i - b else i
  | 2 => if j + b < S then i + b else i
  | _ => base + (j ^^^ b) % S

/-- SHFL (06 R149). -/
def execShfl (c : Ctl) (o : OpA) (s : State) : Host.Outcome State Fault Refusal :=
  let wide := o.ty.is64
  issueWord c ((((({} : Meta).named o.a wide).read true o.b false)).write o.dst wide) s (fun x s =>
    let src := fun i => shflSrc x.G.w (o.aux.toNat % 4) (o.aux.toNat / 4 % 8) i (vN x i o.b)
    if x.act.any (fun i => (otherLane x.G wide o.a (src i)).2) then .trap { code := 0x0B }
    else .done (s.setGroup x.g (putPlain x x.G o.dst wide (fun i => (otherLane x.G wide o.a (src i)).1))) [])

/-- BCAST (06 R150). -/
def execBcast (c : Ctl) (o : OpA) (s : State) : Host.Outcome State Fault Refusal :=
  let wide := o.ty.is64
  issueWord c (((({} : Meta).named o.a wide).read false o.b false).write o.dst (wide && o.dst.isVec)) s (fun x s =>
    let y := otherLane x.G wide o.a (srcScalar x .n32 32 o.b % x.G.w)
    if y.2 then .trap { code := 0x0B }
    else .done (s.setGroup x.g (putPlain x x.G o.dst (wide && o.dst.isVec) (fun _ => y.1))) [])

/-- BALLOT (06 R151). -/
def execBallot (c : Ctl) (o : OpA) (s : State) : Host.Outcome State Fault Refusal :=
  issueWord c (({} : Meta).write o.dst false) s (fun x s =>
    let m := (laneMask (x.act.filter (fun j => x.G.laneTest j (fun l => l.pred (predNo o.a))))).toNat
    .done (s.setGroup x.g (putPlain x x.G o.dst false (fun _ => m))) [])

/-- The value of a vote of t among m (06 R151). -/
def voteOf (mode m t : Nat) : Bool :=
  match mode with
  | 0 => t == m
  | 1 => decide (1 ≤ t)
  | 2 => t == 0 || t == m
  | _ => decide (m < 2 * t)

/-- VOTE (06 R151). -/
def execVote (c : Ctl) (o : OpA) (s : State) : Host.Outcome State Fault Refusal :=
  issueWord c (({} : Meta).write o.dst false) s (fun x s =>
    let t := (x.act.filter (fun j => x.G.laneTest j (fun l => l.pred (predNo o.a)))).length
    .done (s.setGroup x.g (putPlain x x.G o.dst false (fun _ => (voteOf (o.aux.toNat % 4) x.act.length t).toNat))) [])

/-- MATCH (06 R151). -/
def execMatch (c : Ctl) (o : OpA) (s : State) : Host.Outcome State Fault Refusal :=
  let wide := o.ty.is64
  issueWord c (((({} : Meta).read true o.a wide)).write o.dst true) s (fun x s =>
    let val := fun j => (otherLane x.G wide o.a j).1
    .done (s.setGroup x.g (putPlain x x.G o.dst true (fun i => (laneMask (x.act.filter (fun j => val j == val i))).toNat))) [])

/-! ### Reductions and scans (03 R93, R94; 06 R146, R152 to R154) -/

/-- One combination (06 R146): flags are collected in the environment. -/
def combine (op : Nat) (t : Ty) (rm : Rm) (v : FEnv) (a b : Nat) : FEnv × Nat :=
  let w := tyW t
  match op with
  | 0 => (v, iAdd w a b)
  | 1 => Fmt.f32.sum rm false v [] [Fmt.f32.read a, Fmt.f32.read b]
  | 2 => (v, iMin t.signed w a b)
  | 3 => (v, iMax t.signed w a b)
  | 4 => (v, iAnd a b)
  | 5 => (v, iOr a b)
  | 6 => (v, iXor a b)
  | 7 => Fmt.f32.minmax false v a b
  | _ => Fmt.f32.minmax true v a b

/-- An identity that an exclusive scan starts from (06 R146). -/
def identityOf (op : Nat) (t : Ty) : Nat :=
  let w := tyW t
  match op with
  | 2 => modW w (intMax t.signed w)
  | 3 => modW w (intMin t.signed w)
  | 4 => 2 ^ w - 1
  | 7 => 0x7F800000
  | 8 => 0xFF800000
  | _ => 0

/-- A floating contribution: a NaN becomes the canonical one and a signalling NaN raises INV (03 R93). -/
def contribution (t : Ty) (v : FEnv) (a : Nat) : FEnv × Nat :=
  if t.isInt then (v, a)
  else match Fmt.f32.read a with
    | .nan sg => (v.raiseIf sg flINV, Fmt.f32.nan)
    | _ => (v, a)

/-- comb of 03 R93: an absent operand passes the other through. -/
def combOpt (op : Nat) (t : Ty) (rm : Rm) (v : FEnv) (a b : Option Nat) : FEnv × Option Nat :=
  match a, b with
  | none, b => (v, b)
  | a, none => (v, a)
  | some a, some b => let r := combine op t rm v a b; (r.1, some r.2)

/-- One level of the tree: x_i with x_(i + h). -/
def treeLevel (op : Nat) (t : Ty) (rm : Rm) (v : FEnv) : List (Option Nat) → List (Option Nat) → FEnv × List (Option Nat)
  | a :: as, b :: bs =>
    let r := combOpt op t rm v a b
    let q := treeLevel op t rm r.1 as bs
    (q.1, r.2 :: q.2)
  | _, _ => (v, [])

/-- The tree of 03 R93 over 2^k values. -/
def treeReduce (op : Nat) (t : Ty) (rm : Rm) : Nat → FEnv → List (Option Nat) → FEnv × Option Nat
  | 0, v, xs => (v, xs.headD none)
  | k + 1, v, xs =>
    let h := xs.length / 2
    let r := treeLevel op t rm v (xs.take h) (xs.drop h)
    treeReduce op t rm k r.1 r.2

/-- The value of a group reduction over the contributing lanes (06 R152), with the flags it raises. -/
def reduceGroup (x : Ctx) (op : Nat) (t : Ty) (rm : Rm) (a : Src) (lanes : List Nat) : FEnv × Option Nat :=
  let v0 : FEnv := { key := 0, ctr := 0, fl := 0 }
  let ins := (List.range x.G.w).map (fun j =>
    if lanes.contains j then some (contribution t v0 (srcLane x.G j t (tyW t) a)) else none)
  let fl := ins.foldl (fun f y => match y with | some p => f ||| p.1.fl | none => f) (0 : BitVec 6)
  treeReduce op t rm (Nat.log2 x.G.w) { v0 with fl } (ins.map (fun y => y.map Prod.snd))

/-- Flags raised in every active lane. -/
def raiseAll (x : Ctx) (G : Group) (f : BitVec 6) : Group := G.updLanes x.act (fun _ l => { l with fflags := l.fflags ||| f })

/-- GRED (06 R152). -/
def execGred (c : Ctl) (o : OpA) (s : State) : Host.Outcome State Fault Refusal :=
  let wide := o.ty.is64
  let op := o.aux.toNat % 16
  issueWord c ((({} : Meta).read true o.a wide).write o.dst (wide && o.dst.isVec)) s (fun x s =>
    let r := reduceGroup x op o.ty o.rm o.a x.act
    let y := r.2.getD 0
    .done (s.setGroup x.g (putPlain x (raiseAll x x.G r.1.fl) o.dst (wide && o.dst.isVec)
      (fun _ => if o.dst.isSca then extS o.ty y else y))) [])

/-- The serial scan of the active lanes in order (06 R153): results with their flags, by lane. -/
def scanLanes (x : Ctx) (op : Nat) (t : Ty) (rm : Rm) (excl : Bool) (a : Src) : Option Nat → List Nat → FMap (FEnv × Nat)
  | _, [] => []
  | run, i :: is =>
    let v := match x.G.lane? i with | some l => envOf x.G l | none => { key := 0, ctr := 0, fl := 0 }
    let e := contribution t v (srcLane x.G i t (tyW t) a)
    let r := combOpt op t rm e.1 run (some e.2)
    let out := if excl then run.getD (identityOf op t) else r.2.getD 0
    (i, (r.1, out)) :: scanLanes x op t rm excl a r.2 is

/-- GSCAN (06 R153). -/
def execGscan (c : Ctl) (o : OpA) (s : State) : Host.Outcome State Fault Refusal :=
  let wide := o.ty.is64
  issueWord c ((({} : Meta).read true o.a wide).write o.dst wide) s (fun x s =>
    let res := scanLanes x (o.aux.toNat % 16) o.ty o.rm (bitN o.aux.toNat 4) o.a none x.act
    .done (s.setGroup x.g (putLanes x x.G o.dst wide res)) [])

/-- GREDM (06 R154): the value of a lane whose count is zero is not read. -/
def execGredm (c : Ctl) (o : OpA) (s : State) : Host.Outcome State Fault Refusal :=
  issueWord c (((({} : Meta).named o.a false).read true o.b false).write o.dst true) s (fun x s =>
    let lanes := x.act.filter (fun i => vN x i o.b != 0)
    if lanes.any (fun i => (otherLane x.G false o.a i).2) then .trap { code := 0x0B }
    else
      let r := reduceGroup x (o.aux.toNat % 16) o.ty o.rm o.a lanes
      let n := lanes.foldl (fun n i => n + vN x i o.b) 0 % 2 ^ 32
      let fl := if lanes.isEmpty then flNVC else r.1.fl
      .done (s.setGroup x.g (putPlain x (raiseAll x x.G fl) o.dst true (fun _ => r.2.getD 0 + n * 2 ^ 32))) [])

/-- MSCL (06 R157): the predicate is named in AUX. S's poison mark is read in every active lane, whatever n is (DEDUCED, log 25). -/
def execMscl (c : Ctl) (o : OpA) (s : State) : Host.Outcome State Fault Refusal :=
  issueWord c ((({} : Meta).reads true [(o.a, false), (o.b, false), (o.c, false)]).write o.dst false) s (fun x s =>
    let n := fun i => vN x i o.b
    let res := x.act.map (fun i =>
      let v := match x.G.lane? i with | some l => envOf x.G l | none => { key := 0, ctr := 0, fl := 0 }
      let S := Fmt.f32.read (modBits 32 o.aba o.nga (srcLane x.G i .f32 32 o.a))
      (i, if n i = 0 then (v.raise flNVC, 0) else fMscl o.rm v S (vN x i o.c) (n i)))
    let G1 := x.G.updLanes x.act (fun i l => l.setPred (o.aux.toNat % 16) (n i == 0))
    .done (s.setGroup x.g (putLanes x G1 o.dst false res)) [])

end Sys2Proof.Machine
end

