-- ==== Sys2Proof/Machine/Store.lean ====
section
/-!
DEFINITION. What launches and groups hold: the unified store, issue slots, accumulators, TM and barriers, and the placement of
a launch (spec 01 R24 to R28; 14 R304 to R307; 16 R354, R355).
-/

namespace Sys2Proof.Machine

/-! ### Runs of the unified store (14 R304; 16 R354) -/

def storeSize : Nat := 1572864
def l1Least : Nat := 131072
def page4 (n : Nat) : Nat := roundUp n 4096

def Group.winSize (G : Group) : Nat := page4 (G.v * G.w * 4)

/-- Do n bytes at a lie in an area and clear of what is taken? -/
def runFree (lo hi : Nat) (taken : List (Nat × Nat)) (a n : Nat) : Bool :=
  decide (lo ≤ a) && decide (a + n ≤ hi) && taken.all (fun t => decide (t.2 = 0) || decide (a + n ≤ t.1) || decide (t.1 + t.2 ≤ a))

/-- The lowest free run of n bytes. -/
def firstFit (lo hi : Nat) (taken : List (Nat × Nat)) (n : Nat) : Option Nat :=
  ((lo :: taken.map (fun t => t.1 + t.2)).filter (fun a => runFree lo hi taken a n)).foldl (fun (b : Option Nat) a =>
    match b with | some c => some (min a c) | none => some a) none

/-- The part of the store that windows and scratch share, or the reserve, under a carve-out. -/
def storeArea (carve : Nat × Nat × Nat) (reserve : Bool) : Nat × Nat :=
  let r := storeSize - carve.1 * 16384
  if reserve then (r, storeSize) else (0, r - l1Least)

def Launch.onCore (L : Launch) (tile core : Nat) : List (Nat × Nat) :=
  (L.scr.filter (fun a => a.tile == tile && a.core == core)).map (fun a => (a.base, a.size))

/-- Scratch runs of the launches on a core. -/
def scratchTaken (s : State) (tile core : Nat) : List (Nat × Nat) := s.launches.flatMap (fun e => e.2.onCore tile core)
/-- What ended groups of resident launches held on a core: a launch holds its resources for its whole life (16 R354). -/
def endedOn (s : State) (tile core : Nat) : List (Nat × Nat × Nat) :=
  s.launches.flatMap (fun e => (e.2.ended.filter (fun q => q.1 == tile && q.2.1 == core)).map (fun q => q.2.2))
/-- Windows of the groups of a core, but for those of `skip`, and those of its ended groups. -/
def windowsTaken (s : State) (tile core : Nat) (skip : List Nat) : List (Nat × Nat) :=
  (s.groups.filter (fun e => e.2.tile == tile && e.2.core == core && !skip.contains e.1)).map (fun e => (e.2.win, e.2.winSize)) ++
  (endedOn s tile core).map (fun q => (q.1, q.2.1))

/-- Does a group run in the reserve? -/
def inReserve (s : State) (G : Group) : Bool := match s.launchOf G with | some L => L.reserve | none => false

def areaOf (s : State) (G : Group) : Nat × Nat := storeArea (s.tileAt G.tile).carve (inReserve s G)

/-! ### Gated banks of the store (14 R325, R326) -/

def meets (a n b m : Nat) : Bool := decide (a < b + m) && decide (b < a + n) && decide (0 < n) && decide (0 < m)

/-- Is a unit a bank of a core's store? -/
def bankOf (u : GateUnit) (core : Nat) : Bool := match u with | .storeBank c _ => c == core | _ => false
/-- Does a bank of a core's store hold a byte of some runs? -/
def bankUnder (u : GateUnit) (core : Nat) (runs : List (Nat × Nat)) : Bool :=
  match u with | .storeBank c b => c == core && runs.any (fun q => meets q.1 q.2 (b * 65536) 65536) | _ => false

/-- Bytes of a core's store that windows, scratch and the reserve occupy. -/
def storeUsed (s : State) (tile core : Nat) : Nat :=
  sumOf ((scratchTaken s tile core ++ windowsTaken s tile core []).map Prod.snd) + (s.tileAt tile).carve.1 * 16384

/-- An allocation of runs of a core's store, `extra` bytes more than are in use: gated banks under it begin to wake, and every gated bank of
the core where the L1 would be left less than 128 KiB; whether it may go on at once (14 R304, R326). -/
def wakeStore (s : State) (tile core : Nat) (runs : List (Nat × Nat)) (extra : Nat) : State × Bool :=
  let t := s.tileAt tile
  let gone := 65536 * (t.gated.filter (fun u => bankOf u core)).length
  let short := decide (storeSize < storeUsed s tile core + extra + gone + l1Least)
  let wake := t.gated.filter (fun u => bankUnder u core runs || (short && bankOf u core))
  if wake.isEmpty then (s, !t.waking.any (fun u => bankOf u core))
  else (s.updTile tile (fun t => { t with gated := t.gated.filter (fun u => !wake.contains u), waking := t.waking ++ wake }), false)

/-! ### Resources of a core and a tile (16 R354) -/

structure CoreRes where
  lo : Nat
  hi : Nat
  taken : List (Nat × Nat)
  slots : List Nat
  /-- scratch in use, and its limit -/
  scr : Nat
  scrMax : Nat
  acc : Nat
  bars : Nat
  /-- groups of the launch placed here, and the slots they fill -/
  mine : Nat
  used : List Nat
  /-- a GROW is pending (16 R353) -/
  grow : Bool
  deriving DecidableEq, Repr

structure TileRes where
  cap : Nat
  taken : List (Nat × Nat)
  bars : Nat
  deriving DecidableEq, Repr

def emptyCore (carve : Nat × Nat × Nat) (reserve : Bool) : CoreRes :=
  let a := storeArea carve reserve
  { lo := a.1, hi := a.2, taken := [], slots := List.range 16, scr := 0, scrMax := carve.2.2 * 16384, acc := 0, bars := 0, mine := 0,
    used := [], grow := false }

def emptyTile (carve : Nat × Nat × Nat) : TileRes := { cap := carve.2.1 * 2 ^ 18, taken := [], bars := 0 }


/-- Slots of a core that launches hold. -/
def heldSlots (s : State) (tile core : Nat) : List Nat :=
  s.launches.flatMap (fun e => (e.2.slots.filter (fun x => x.1 == tile && x.2.1 == core)).map (fun x => x.2.2))

/-- What a core has left. -/
def coreRes (s : State) (tile core : Nat) (reserve : Bool) : CoreRes :=
  let held := heldSlots s tile core
  let gs := s.groups.filter (fun e => e.2.tile == tile && e.2.core == core)
  let free := (List.range 16).filter (fun x => !held.contains x)
  { (emptyCore (s.tileAt tile).carve reserve) with
    taken := scratchTaken s tile core ++ windowsTaken s tile core []
    slots := free
    scr := sumOf ((scratchTaken s tile core).map Prod.snd)
    acc := sumOf (gs.map (fun e => e.2.t * e.2.w * 128)) + sumOf ((endedOn s tile core).map (fun q => q.2.2))
    bars := sumOf (s.launches.flatMap (fun e => (e.2.cbars.filter (fun x => x.1 == tile && x.2.1 == core)).map (fun x => x.2.2)))
    grow := gs.any (fun e => e.2.grow.isSome) }

def tileRes (s : State) (tile : Nat) : TileRes :=
  { (emptyTile (s.tileAt tile).carve) with
    taken := s.launches.flatMap (fun e => (e.2.tm.filter (fun a => a.tile == tile)).map (fun a => (a.base, a.size)))
    bars := sumOf (s.launches.flatMap (fun e => (e.2.tbars.filter (fun x => x.1 == tile)).map Prod.snd)) }

/-- Bytes of a core's area that nothing holds. -/
def CoreRes.free (c : CoreRes) : Nat :=
  (c.hi - c.lo) - sumOf ((c.taken.filter (fun t => decide (c.lo ≤ t.1) && decide (t.1 < c.hi))).map Prod.snd)

/-! ### Placement (16 R355) -/

/-- Where a group is placed. -/
structure Spot where
  lin : Nat
  tile : Nat
  core : Nat
  slot : Nat
  pos : Nat
  win : Nat
  deriving DecidableEq, Repr

structure Plan where
  cores : FMap CoreRes
  tiles : FMap TileRes
  groups : List Spot
  tm : List Alloc
  scr : List Alloc
  cbars : List (Nat × Nat × Nat)
  tbars : List (Nat × Nat)
  /-- placement units whose tile barriers are counted -/
  units : List Nat
  deriving DecidableEq, Repr

/-- What a placement depends on: the tiles, the record, its map, the first linear position of this wafer's part, and the
resources that are free. -/
structure PlanCtx where
  tiles : List Nat
  rc : Rec
  pmap : Option (List Nat)
  lin0 : Nat
  coreOf : Nat → Nat → CoreRes
  tileOf : Nat → TileRes

def Plan.core (x : PlanCtx) (p : Plan) (tile core : Nat) : CoreRes := p.cores.lookD (x.coreOf tile core) (4 * tile + core)
def Plan.tile (x : PlanCtx) (p : Plan) (tile : Nat) : TileRes := p.tiles.lookD (x.tileOf tile) tile

/-- Groups and scratch units of one unit placed whole on a core. -/
def PlanCtx.gu (x : PlanCtx) : Nat := match x.rc.highest 2 with | some i => x.rc.lanesOf i / x.rc.w | none => 1
def PlanCtx.su (x : PlanCtx) : Nat :=
  match x.rc.highest 2, x.rc.lowest 2 with | some i, some j => x.rc.lanesOf i / x.rc.lanesOf j | _, _ => 1

/-- n runs of z bytes, each the lowest free one. -/
def fitRuns (lo hi z : Nat) : Nat → List (Nat × Nat) → Option (List Nat × List (Nat × Nat))
  | 0, taken => some ([], taken)
  | n + 1, taken =>
    match firstFit lo hi taken z with
    | none => none
    | some a =>
      match fitRuns lo hi z n (taken ++ [(a, z)]) with
      | none => none
      | some (as, t) => some (a :: as, t)

/-- Slots that groups mine to mine + n − 1 of the launch fill, with the free list that is left. -/
def takeSlots (gps : Nat) : Nat → Nat → List Nat → List Nat → Option (List (Nat × Nat) × List Nat × List Nat)
  | 0, _, used, free => some ([], used, free)
  | n + 1, k, used, free =>
    if k % gps = 0 then
      match free with
      | [] => none
      | f :: fs =>
        (match takeSlots gps n (k + 1) (used ++ [f]) fs with
          | some (l, u, q) => some ((f, 0) :: l, u, q)
          | none => none)
    else
      (match takeSlots gps n (k + 1) used free with
        | some (l, u, q) => some ((used.getLastD 0, k % gps) :: l, u, q)
        | none => none)

/-- A unit put on a core: scratch bases, window bases, slots and positions, and what the core has left; none where it does
not fit. -/
def CoreRes.put (x : PlanCtx) (c : CoreRes) : Option (List Nat × List Nat × List (Nat × Nat) × CoreRes) :=
  let r := x.rc
  let z := page4 r.scr
  let cb := if (r.highest 2).isSome then r.bars.getD 0 0 else 0
  if c.grow || decide (c.scrMax < c.scr + x.su * z) || decide (65536 < c.acc + x.gu * (r.t * r.w * 128)) || decide (16 < c.bars + cb) then none
  else
    match takeSlots (64 / r.w) x.gu c.mine c.used c.slots, fitRuns c.lo c.hi z (if z = 0 then 0 else x.su) c.taken with
    | some (sl, used, free), some (sb, t1) =>
      (match fitRuns c.lo c.hi (page4 (r.v * r.w * 4)) x.gu t1 with
        | some (wb, t2) =>
          some (sb, wb, sl, { c with taken := t2, slots := free, used, mine := c.mine + x.gu, scr := c.scr + x.su * z,
                                     acc := c.acc + x.gu * (r.t * r.w * 128), bars := c.bars + cb })
        | none => none)
    | _, _ => none

/-- Cores of a tile that can hold a unit: the most free slots, then the lower core. -/
def pickCore (x : PlanCtx) (p : Plan) (tile : Nat) : Option (Nat × List Nat × List Nat × List (Nat × Nat) × CoreRes) :=
  (List.range 4).foldl (fun (b : Option (Nat × List Nat × List Nat × List (Nat × Nat) × CoreRes)) k =>
    let c := p.core x tile k
    match c.put x with
    | none => b
    | some q =>
      match b with
      | none => some (k, q)
      | some o => if (p.core x tile o.1).slots.length < c.slots.length then some (k, q) else b) none

/-- The tile of a unit without a tile-domain level: the greatest free store on one core. -/
def pickTile (x : PlanCtx) (p : Plan) : Option Nat :=
  (x.tiles.foldl (fun (b : Option (Nat × Nat)) t =>
    if (pickCore x p t).isNone then b
    else
      let f := maxOf ((List.range 4).map (fun k => (p.core x t k).free))
      match b with
      | none => some (f, t)
      | some o => if o.1 < f then some (f, t) else b) none).map Prod.snd

/-- The tile of a unit, with TM and tile barriers taken there. -/
def planTile (x : PlanCtx) (p : Plan) (lin : Nat) : Option (Nat × Plan) :=
  match x.rc.highest 3, x.rc.lowest 3 with
  | some h, some l =>
    let n := (lin - x.lin0) / x.rc.lanesOf h
    let k := match x.pmap with | some m => m[n]? | none => some n
    (match k.bind (fun k => x.tiles[k]?) with
      | none => none
      | some t =>
        let new := !p.units.contains n
        let tb := x.rc.bars.getD 1 0
        let c0 := p.tile x t
        if new && decide (16 < c0.bars + tb) then none
        else
          let p1 := if new then
              { p with units := n :: p.units, tbars := p.tbars ++ [(t, tb)], tiles := p.tiles.setAt t { c0 with bars := c0.bars + tb } }
            else p
          let q := x.rc.unitOf l lin
          let z := page4 x.rc.tmb
          if z = 0 || p1.tm.any (fun a => a.unit == q) then some (t, p1)
          else
            let c1 := p1.tile x t
            match firstFit 0 c1.cap c1.taken z with
            | none => none
            | some a =>
              some (t, { p1 with tm := p1.tm ++ [{ unit := q, tile := t, core := 0, base := a, size := z }],
                                 tiles := p1.tiles.setAt t { c1 with taken := c1.taken ++ [(a, z)] } }))
  | _, _ => if x.rc.tmb != 0 then none else (pickTile x p).map (fun t => (t, p))

/-- One unit placed. -/
def planUnit (x : PlanCtx) (p0 : Plan) (u : Nat) : Option Plan :=
  let lin := x.lin0 + u * x.gu * x.rc.w
  match planTile x p0 lin with
  | none => none
  | some (t, p) =>
    match pickCore x p t with
    | none => none
    | some (k, sb, wb, sl, c) =>
      let z := page4 x.rc.scr
      let sn := match x.rc.lowest 2 with | some j => x.rc.lanesOf j | none => x.rc.w
      let scr := sb.mapIdx (fun i b => ({ unit := x.rc.scrUnit (lin + i * sn), tile := t, core := k, base := b, size := z } : Alloc))
      let gs := wb.mapIdx (fun i b =>
        let q := sl.getD i (0, 0)
        ({ lin := lin + i * x.rc.w, tile := t, core := k, slot := q.1, pos := q.2, win := b } : Spot))
      let cb := if (x.rc.highest 2).isSome then x.rc.bars.getD 0 0 else 0
      some { p with cores := p.cores.setAt (4 * t + k) c, groups := p.groups ++ gs, scr := p.scr ++ scr,
                    cbars := p.cbars ++ [(t, k, cb)] }

def planUnits (x : PlanCtx) : List Nat → Plan → Option Plan
  | [], p => some p
  | u :: us, p => match planUnit x p u with | some q => planUnits x us q | none => none

/-- Lanes of the launch on this wafer. -/
def Rec.localLanes (r : Rec) : Nat :=
  if (r.levels.getLast?.map Level.dom) == some 5 then r.lanesOf (r.levels.length - 1) else r.lanesOf r.levels.length

/-- A placement of the whole launch, or none; a core's 16 slots hold 1,024 lanes. -/
def planAll (x : PlanCtx) : Option Plan :=
  if 4096 * x.tiles.length < x.rc.localLanes then none
  else planUnits x (List.range (x.rc.localLanes / (x.gu * x.rc.w)))
    { cores := [], tiles := [], groups := [], tm := [], scr := [], cbars := [], tbars := [], units := [] }

/-! ### The hierarchy checks (01 R24; 19 R406) -/

def fjobEn (P : Part) : Bool := bitN P.fjob.toNat 0
def fjobMem (P : Part) : Nat := bitsN P.fjob.toNat 22 16
def fjobRank (P : Part) : Nat := bitsN P.fjob.toNat 13 8

def productOf (l : List Nat) : Nat := l.foldl (· * ·) 1

/-- Checks 1 to 6, where this wafer needs no route to itself (log 14): status 5 or 6, none when all pass. L is the record's level count. -/
def hierFail (s : State) (P : Part) (l : Nat) (r : Rec) : Option Nat :=
  let lv := r.levels
  let fab := lv.any (fun x => x.dom == 5)
  let dropd := lv.drop 1
  if l < 2 || 8 < l || (lv.head?.map Level.dom) != some 0 || lv.any (fun x => decide (5 < x.dom) || decide (5 < x.scope)) then some 5
  else if (lv.zip dropd).any (fun q => decide (q.2.dom < q.1.dom)) || lv.any (fun x => x.ext == 0) then some 5
  else if lv.any (fun x => decide (x.scope < x.dom - 1)) then some 5
  else if productOf ((lv.filter (fun x => x.dom == 0)).map Level.ext) != r.w ||
      (List.range lv.length).any (fun i => (lv[i]?.map Level.dom) == some 1 && r.lanesOf i != r.w) then some 5
  else if fab && ((lv.filter (fun x => x.dom == 5)).length != 1 || !fjobEn P || decide (fjobMem P ≤ fjobRank P) ||
      r.ext (lv.length - 1) != fjobMem P ||
      (List.range (fjobMem P)).any (fun m => m != fjobRank P && !bitN (s.routes.lookD 0 (bitsN (P.members.lookD 0 m).toNat 13 8)).toNat 15)) then some 5
  else if [(2, 0, 16), (3, 1, 16), (4, 2, 8), (5, 3, 4)].any (fun q =>
      r.bars.getD q.2.1 0 != 0 && (!(lv.any (fun x => x.dom == q.1)) || decide (q.2.2 < r.bars.getD q.2.1 0))) then some 6
  else none

/-- Check 7 of R24 apart from placement: the sizes of units. -/
def unitsFit (r : Rec) : Bool :=
  (List.range r.levels.length).all (fun i =>
    match r.levels[i]? with
    | some x => (x.dom != 2 || decide (r.lanesOf i ≤ 1024)) && (x.dom != 3 || decide (r.lanesOf i ≤ 4096))
    | none => true)

/-- The record's first linear position on this wafer. -/
def linBase (P : Part) (r : Rec) : Nat :=
  if (r.levels.getLast?.map Level.dom) == some 5 then fjobRank P * r.lanesOf (r.levels.length - 1) else 0

def planCtx (P : Part) (r : Rec) (pmap : Option (List Nat)) (cf : Nat → Nat → CoreRes) (tf : Nat → TileRes) : PlanCtx :=
  { tiles := P.tiles, rc := r, pmap, lin0 := linBase P r, coreOf := cf, tileOf := tf }

/-- The placement in the partition as though it were empty, under the carve-out in effect on each tile (14 R306). -/
def planEmpty (s : State) (P : Part) (r : Rec) (pmap : Option (List Nat)) : Option Plan :=
  planAll (planCtx P r pmap (fun t _ => emptyCore (s.tileAt t).carve false) (fun t => emptyTile (s.tileAt t).carve))

/-- Barriers of the partition and of the fabric job that resident launches hold. -/
def partBars (s : State) (p i : Nat) : Nat :=
  sumOf ((s.launches.filter (fun e => e.2.part == p)).map (fun e => e.2.rc.bars.getD i 0))

/-- The placement in what other launches leave free. -/
def planNow (s : State) (p : Nat) (P : Part) (r : Rec) (pmap : Option (List Nat)) (reserve : Bool) : Option Plan :=
  if 8 < partBars s p 2 + r.bars.getD 2 0 || 4 < partBars s p 3 + r.bars.getD 3 0 then none
  else planAll (planCtx P r pmap (fun t k => coreRes s t k reserve) (tileRes s))

end Sys2Proof.Machine
end

