-- ==== Sys2Proof/Machine/Access.lean ====
section
/-!
DEFINITION. Memory as agents reach it: homes, the write queue, granule classes and the directory, region marks, and the reads
and writes that every unit makes (spec 09 R217; 14 R309 to R322; 15 R342; 17 R371; 07 R175, R179, R180).

The bytes of a line stand once, in State.mem: caches change no value (14), so of a cache the state keeps which lines it holds and
which of them are dirty. A line that a MAPS entry holds stands in that core's scratch (14 R322).
-/

namespace Sys2Proof.Machine

def granBytes : Nat := 65536
def granOf (pa : Nat) : Nat := pa / granBytes
/-- Space of a physical address (01 R43): 0 HBM, 1 TM, 2 fabric, 3 host. -/
def spaceOf (pa : Nat) : Nat := pa / 2 ^ 45
def tmTile (pa : Nat) : Nat := bitsN pa 33 24
def tmOff (pa : Nat) : Nat := pa / 2 ^ 34 % 2 * 2 ^ 24 + pa % 2 ^ 24

/-- The scratch location of a byte of a line in directory state M (14 R322). -/
def mapsLoc (s : State) (tile core entry pa : Nat) : Nat :=
  match (s.coreAt tile core).maps.look entry with
  | none => pa
  | some m =>
    match m.pas.find? (fun q => q.2 == pa / granBytes * granBytes) with
    | some q => m.loc + (q.1 + pa % granBytes - m.va)
    | none => pa

/-- Location of the byte at a physical address. -/
def locOf (s : State) (pa : Nat) : Nat :=
  if spaceOf pa = 3 then hostLoc (pa % 2 ^ 45)
  else match s.dir.look (lineOf pa) with
    | some d => (match d.st with | .m t c e => mapsLoc s t c e pa | _ => pa)
    | none => pa

/-- Is a line held by a MAPS entry? -/
def mapped (s : State) (pa : Nat) : Bool :=
  match s.dir.look (lineOf pa) with
  | some d => (match d.st with | .m _ _ _ => true | _ => false)
  | none => false

/-- Home tile of a line of partition p (14 R309, R310): none where the map has no entry or names a tile outside it. -/
def homeTile (s : State) (p pa : Nat) : Option Nat :=
  match s.parts.look p with
  | none => none
  | some P =>
    if spaceOf pa = 1 then (if P.tiles.contains (tmTile pa) then some (tmTile pa) else none)
    else match P.homes.look (granOf pa % 4096) with
      | some t => if P.tiles.contains t then some t else none
      | none => none

/-! ### Atomic operations (07 R175) -/

/-- The new value of a word: op 0 add, 1 fadd, 2 min, 3 max, 4 and, 5 or, 6 xor, 7 exchange. -/
def atomOp (op : Nat) (t : Ty) (old b : Nat) : Nat :=
  let w := tyW t
  match op with
  | 0 => iAdd w old b
  | 1 => (Fmt.f32.sum .rne true { key := 0, ctr := 0, fl := 0 } [] [Fmt.f32.read old, Fmt.f32.read b]).2
  | 2 => iMin t.signed w old b
  | 3 => iMax t.signed w old b
  | 4 => iAnd old b
  | 5 => iOr old b
  | 6 => iXor old b
  | _ => b

/-! ### Marks of regions, waiters and the dirty log -/

/-- Inputs on a line marked conflicted, but for the writer's own region (09 R217). -/
def markLine (s : State) (writer : Option Nat) (line : Nat) : State :=
  { s with groups := s.groups.mapV (fun g G =>
      if writer == some g then G
      else { G with region := G.region.map (fun r => { r with
        inputs := r.inputs.map (fun i => if lineOf i.pa = line then { i with conflicted := true } else i) }) }) }

/-- Inputs on a granule marked conflicted by a reclassification or migration (09 R217). -/
def markGranule (s : State) (gr : Nat) : State :=
  { s with groups := s.groups.mapV (fun _ G =>
      { G with region := G.region.map (fun r => { r with
        inputs := r.inputs.map (fun i => if granOf i.pa = gr then { i with conflicted := true } else i) }) }) }

/-- Lanes that a WAITA holds complete with pd (07 R178): pd, l0 and the wake; pc has moved on already. -/
def releaseWaita (s : State) (g : Nat) (sel : Nat → Bool) (res : Bool) : State :=
  s.updGroup g (fun G => { G with lanes := G.lanes.map (fun l =>
    match l.block with
    | .waita _ pa pd => if sel pa then { ((l.setPred pd.toNat res).shift (if res then 1 else 0) false) with block := .free } else l
    | _ => l) })

/-- The waiters of a tile that `sel` picks are released with pd = 1. -/
def wakeWaiters (s : State) (tile : Nat) (sel : Nat → Bool) : State :=
  let ws := (s.tileAt tile).waiters.filter (fun w => sel w.pa)
  let s1 := ws.foldl (fun s w => if 2 ^ 40 ≤ w.g then s.reply (.value 1) else releaseWaita s w.g sel true) s
  s1.updTile tile (fun x => { x with waiters := x.waiters.filter (fun w => !sel w.pa) })

/-- The waiters on a granule released at every tile (07 R178; 14 R314). -/
def wakeGranule (s : State) (gr : Nat) : State :=
  s.tiles.foldl (fun s t => if t.2.waiters.isEmpty then s else wakeWaiters s t.1 (fun pa => granOf pa == gr)) s

/-- An HBM frame that a write reaches while the dirty log is on (17 R371). -/
def markDirty (s : State) (p pa : Nat) : State :=
  if spaceOf pa = 0 then
    s.updPart p (fun P => if P.dirtyOn then { P with dirty := setAdd P.dirty (granOf pa) } else P)
  else s

/-- Does an L1 or an RDC hold a line dirty? -/
def heldDirty (s : State) (line : Nat) : Bool :=
  s.cores.any (fun e => e.2.l1.look line == some true) || s.tiles.any (fun e => e.2.rdc.look line == some true)

/-- A write whose line then stands dirty in a cache reaches its frame with the line's write-back only (17 R371; 27 R454). -/
def noteWrite (s : State) (p pa : Nat) : State := if heldDirty s (lineOf pa) then s else markDirty s p pa

/-- The partition that holds a tile; 64 when none does. -/
def partOfTile (s : State) (tile : Nat) : Nat :=
  match s.parts.find? (fun p => p.2.tiles.contains tile) with | some p => p.1 | none => 64

/-- An access to a managed frame refreshes its age, which counts in units of 2^20 cycles (15 R341). -/
def touchFrame (s : State) (pa : Nat) : State :=
  if spaceOf pa != 0 then s
  else match s.frames.look (granOf pa) with
    | some f => { s with frames := s.frames.setAt (granOf pa) { f with age := s.clock / 2 ^ 20 } }
    | none => s

/-! ### The write queue (14 R320, R321) -/

/-- An entry's valid words applied to memory; a poisoned line stays unchanged (07 R180). The drain is a write of the line by
no region (09 R217). -/
def applyEnt (tile : Nat) (s : State) (e : WqEnt) : State :=
  let s0 := touchFrame (markDirty (markLine s none e.line) (partOfTile s tile) (e.line * lineBytes)) (e.line * lineBytes)
  e.parts.foldl (fun s q =>
    let loc := locOf s (e.line * lineBytes + q.1)
    let n := tyW e.ty / 8
    if s.isPoisoned loc then s else s.writeN loc n (atomOp e.op e.ty (s.readN loc n) q.2.toNat)) s0

/-- The entries of a line drained, at whichever tile holds one. -/
def drainLine (s : State) (line : Nat) : State :=
  s.tiles.foldl (fun s t =>
    t.2.wq.foldl (fun s e =>
      if e.line = line then (applyEnt t.1 s e).updTile t.1 (fun x => { x with wq := x.wq.filter (fun y => y.line != line) }) else s) s) s

/-- Every entry of a tile drained. -/
def drainTile (s : State) (tile : Nat) : State :=
  ((s.tileAt tile).wq.foldl (applyEnt tile) s).updTile tile (fun x => { x with wq := [] })

/-- A word merged into the home's queue: an entry of another op or type drains first, and a full queue drains its oldest
(14 R320, R321; 03 R95). -/
def mergeRed (s0 : State) (tile pa op : Nat) (t : Ty) (v : Nat) : State :=
  let s := touchFrame s0 pa
  let line := lineOf pa
  let off := pa % lineBytes
  match (s.tileAt tile).wq.find? (fun e => e.line == line) with
  | some e =>
    if e.op = op ∧ e.ty = t then
      let v' := match e.parts.look off with | some p => atomOp op t p.toNat v | none => v
      s.updTile tile (fun x => { x with wq := x.wq.map (fun e =>
        if e.line = line then { e with parts := e.parts.setAt off (BitVec.ofNat 64 v') } else e) })
    else
      (drainLine s line).updTile tile (fun x => { x with
        wq := x.wq ++ [{ line, op, ty := t, since := s.clock, parts := [(off, BitVec.ofNat 64 v)] }] })
  | none =>
    let s1 := match (s.tileAt tile).wq with
      | e :: _ => if 64 ≤ (s.tileAt tile).wq.length then drainLine s e.line else s
      | [] => s
    s1.updTile tile (fun x => { x with
      wq := x.wq ++ [{ line, op, ty := t, since := s.clock, parts := [(off, BitVec.ofNat 64 v)] }] })

/-! ### Granule classes and the directory (14 R312 to R317) -/

def Cls.tile? : Cls → Option Nat
  | .prv t _ => some t
  | .prt t => some t
  | _ => none

/-- The transition of R313: the new class, the new WR, and whether a flush is involved. -/
def classStep (c : ClassEnt) (tile core : Nat) (write : Bool) : Cls × Bool × Bool :=
  match c.cls with
  | .prv t k =>
    if t = tile then (if k = core then (.prv t k, c.wr || write, false) else (.prt t, c.wr || write, true))
    else if write || c.wr then (.sh, c.wr || write, true)
    else (.ro, c.wr, true)
  | .prt t =>
    if t = tile then (.prt t, c.wr || write, false)
    else if write || c.wr then (.sh, c.wr || write, true)
    else (.ro, c.wr, true)
  | .ro => if write then (.sh, true, true) else (.ro, c.wr, false)
  | .sh => (.sh, c.wr || write, false)

def DirEnt.reset : DirEnt := { st := .i, owner := 0, ptrs := [], bc := false, acks := [], pend := none, chan := none }

/-- A read miss from tile U (14 R316): an owner's line becomes shared. -/
def dirRead (d : DirEnt) (u : Nat) : DirEnt :=
  let d1 := match d.st with | .o => { d with st := .s } | .i => { d with st := .s } | _ => d
  if d1.ptrs.contains u then d1
  else if d1.bc then d1
  else if d1.ptrs.length < 4 then { d1 with ptrs := d1.ptrs ++ [u] }
  else { d1 with bc := true, ptrs := [] }

/-- Does a tile own the line, so that its own accesses reach no directory (14 R316, R317)? -/
def DirEnt.ownedBy (d : DirEnt) (u : Nat) : Bool := d.st == .o && d.owner == u

/-- The tiles that an ownership request or an RMW at the home invalidates (14 R316). -/
def invalTargets (tiles : List Nat) (d : DirEnt) (u : Nat) : List Nat :=
  if d.bc then tiles else d.ptrs.filter (· != u)

/-- The entry once every acknowledgement has arrived: a store by U takes ownership, an RMW leaves the line at the home. -/
def dirOwn (d : DirEnt) (u : Nat) (rmw : Bool) : DirEnt :=
  if rmw then { d with st := .i, bc := false, ptrs := [], acks := [], pend := none, chan := none }
  else { d with st := .o, owner := u, bc := false, ptrs := [u], acks := [], pend := none, chan := none }

/-- A directory entry of a line, changed by f; lines of a MAPS entry stay as they are (14 R322). -/
def updDir (s : State) (line : Nat) (f : DirEnt → DirEnt) : State :=
  let d := s.dir.lookD DirEnt.reset line
  match d.st with
  | .m _ _ _ => s
  | _ => { s with dir := s.dir.putD DirEnt.reset line (f d) }

/-! ### Copies in the L1s, the RDCs and the L2 (14 R307, R311, R312)

A cache's line holds no value of its own: what the state keeps is which lines a cache holds and whether they are dirty. -/

/-- Lines that the caches of the tiles that `on` picks hold dirty, each with its tile. -/
def dirtyIn (s : State) (on sel : Nat → Bool) : List (Nat × Nat) :=
  s.cores.flatMap (fun e => if on (e.1 / 4) then (e.2.l1.filter (fun q => q.2 && sel q.1)).map (fun q => (e.1 / 4, q.1)) else []) ++
  s.tiles.flatMap (fun e => if on e.1 then (e.2.rdc.filter (fun q => q.2 && sel q.1)).map (fun q => (e.1, q.1)) else [])

/-- Dirty lines that reach their home (17 R371). -/
def noteBack (s : State) (ls : List (Nat × Nat)) : State :=
  if s.parts.any (fun e => e.2.dirtyOn) then ls.foldl (fun s q => markDirty s (partOfTile s q.1) (q.2 * lineBytes)) s else s

/-- Chosen lines written back and invalidated in the caches of the tiles that `on` picks. -/
def dropLines (s0 : State) (on sel : Nat → Bool) : State :=
  let s := noteBack s0 (dirtyIn s0 on sel)
  { s with
    cores := s.cores.mapV (fun k c => if on (k / 4) then { c with l1 := c.l1.keep (fun l _ => !sel l) } else c)
    tiles := s.tiles.mapV (fun t x => if on t then { x with rdc := x.rdc.keep (fun l _ => !sel l) } else x) }

/-- Chosen lines clean in every copy. -/
def madeClean (s : State) (on sel : Nat → Bool) : State :=
  { s with
    cores := s.cores.mapV (fun k c => if on (k / 4) then { c with l1 := c.l1.mapV (fun l d => d && !sel l) } else c)
    tiles := s.tiles.mapV (fun t x => if on t then { x with rdc := x.rdc.mapV (fun l d => d && !sel l) } else x) }

/-- Chosen lines written back, their copies kept clean. -/
def cleanLines (s : State) (on sel : Nat → Bool) : State := madeClean (noteBack s (dirtyIn s on sel)) on sel

/-- Is the line one of an SH granule? -/
def lineShared (s : State) (line : Nat) : Bool := match s.classes.look (line / 1024) with | some c => c.cls == .sh | none => false

/-- A line leaves the L2 of its home: pending reductions drain, and every copy of a line of an SH granule is invalidated, its dirty copy
collected; another granule's copies stay with their owners (14 R318, R321). -/
def evictL2 (s : State) (line : Nat) : State :=
  if (s.dir.look line).any (fun d => d.pend.isSome) then s
  else
    let s1 := drainLine s line
    let s2 := if lineShared s1 line then updDir (dropLines s1 (fun _ => true) (· == line)) line (fun _ => DirEnt.reset) else s1
    { s2 with tiles := s2.tiles.mapV (fun _ t => { t with l2 := t.l2.remove line }) }

/-- Sets of a tile's L2: what the TM region leaves of the slice of 24 MiB, in 16 ways of 64-byte lines (14 R306, R307). -/
def l2Sets (x : Tile) : Nat := (96 - x.carve.2.1) * 256
/-- Sets of the RDC: 4 MiB in 16 ways (00 R7; 14 R311). -/
def rdcSets : Nat := 4096

/-- A line of HBM held by the L2 of its home: in a way of its set that is free and not gated, else in place of the set's lowest line that
may leave (DESIGN CHOICE, log 76). -/
def fillL2 (s : State) (home line : Nat) : State :=
  let x := s.tileAt home
  let n := l2Sets x
  let set := x.l2.filter (fun e => e.1 % n == line % n)
  let open_ := (List.range 16).filter (fun w => !(x.gated ++ x.waking).contains (.l2Way w))
  let put := fun (s : State) (w : Nat) => s.updTile home (fun x => { x with l2 := x.l2.setAt line w })
  if (x.l2.look line).isSome then s
  else match open_.find? (fun w => !set.any (fun e => e.2 == w)) with
    | some w => put s w
    | none =>
      match set.find? (fun e => open_.contains e.2 && !(s.dir.look e.1).any (fun d => d.pend.isSome)) with
      | some e => put (evictL2 s e.1) e.2
      | none => s

/-- A line leaves an RDC, and the L1s of its tile: an O line is written back, and its state becomes I; an S line is dropped silently
(14 R316). -/
def evictRdc (s : State) (tile line : Nat) : State :=
  updDir (dropLines s (· == tile) (· == line)) line (fun d => if d.st = .o ∧ d.owner = tile then { d with st := .i, ptrs := [] } else d)

/-- A line enters an RDC, where a full set gives up its lowest line (DESIGN CHOICE, log 76). -/
def fillRdc (s0 : State) (tile line : Nat) (dirty : Bool) : State :=
  let x := s0.tileAt tile
  let set := x.rdc.filter (fun e => e.1 % rdcSets == line % rdcSets && e.1 != line)
  let s := match set with
    | e :: _ => if 16 ≤ set.length then evictRdc s0 tile e.1 else s0
    | [] => s0
  s.updTile tile (fun x => { x with rdc := x.rdc.setAt line (x.rdc.lookD false line || dirty) })

/-- Bytes of a core's store that are left to its L1: what no window, scratch, reserve or gated bank holds (14 R304). -/
def l1Bytes (s : State) (tile core : Nat) : Nat :=
  storeSize - storeUsed s tile core - 65536 * (((s.tileAt tile).gated ++ (s.tileAt tile).waking).filter (fun u => bankOf u core)).length

/-- A line leaves an L1: a dirty one is then dirty in the RDC, or has reached its home. -/
def evictL1 (s : State) (tile core line : Nat) : State :=
  let dirty := (s.coreAt tile core).l1.look line == some true
  let s1 := s.updCore tile core (fun c => { c with l1 := c.l1.remove line })
  if !dirty then s1
  else if ((s1.tileAt tile).rdc.look line).isSome then s1.updTile tile (fun x => { x with rdc := x.rdc.setAt line true })
  else noteBack s1 [(tile, line)]

/-- A line enters an L1, which gives up its lowest line when it is full; it always holds 2,048 (14 R304; DESIGN CHOICE, log 76). -/
def fillL1 (s : State) (tile core line : Nat) (dirty : Bool) : State :=
  let l1 := (s.coreAt tile core).l1
  let s1 := match l1 with
    | e :: _ => if 2048 ≤ l1.length ∧ (l1.look line).isNone ∧ l1Bytes s tile core < (l1.length + 1) * lineBytes then evictL1 s tile core e.1 else s
    | [] => s
  s1.updCore tile core (fun c => { c with l1 := c.l1.setAt line (c.l1.lookD false line || dirty) })

/-- Is a line dirty in an L1 of the tile other than one core's? -/
def dirtyBeside (s : State) (tile core line : Nat) : Bool :=
  (List.range 4).any (fun k => k != core && (s.coreAt tile k).l1.look line == some true)

/-- The copies that an access by a core of a tile leaves: its own L1's line, dirty once written, and none dirty beside it; the RDC's,
where another tile is the line's home. An RMW is performed at the home and leaves no copy with the tile. -/
def fillLine (s : State) (tile core pa : Nat) (write rmw : Bool) : State :=
  let line := lineOf pa
  let home := homeTile s (partOfTile s tile) pa
  let s1 := match home with | some h => if spaceOf pa = 0 then fillL2 s h line else s | none => s
  if 960 ≤ tile then s1
  else if rmw then dropLines s1 (· == tile) (· == line)
  else
    let beside := dirtyBeside s1 tile core line
    let s2 := { s1 with cores := s1.cores.mapV (fun k c =>
      if k / 4 = tile ∧ k % 4 ≠ core then
        { c with l1 := if write then c.l1.remove line else c.l1.mapV (fun l d => d && l != line) }
      else c) }
    let s3 := if core < 4 then fillL1 s2 tile core line write else s2
    if home = some tile then (if beside && !write then noteBack s3 [(tile, line)] else s3)
    else fillRdc s3 tile line (beside || (write && decide (4 ≤ core)))

/-! ### What holds an access at its home -/

/-- A waking or gated TM bank holds the access; a gated one begins to wake (14 R326). -/
def gateHold (s : State) (pa : Nat) : State × Option Block :=
  if spaceOf pa != 1 then (s, none)
  else
    let t := tmTile pa
    let u := GateUnit.tmBank (tmOff pa / 2 ^ 19)
    let x := s.tileAt t
    if x.gated.contains u then
      (s.updTile t (fun x => { x with gated := x.gated.filter (· != u), waking := x.waking ++ [u] }), some (.wake t u))
    else if x.waking.contains u then (s, some (.wake t u))
    else (s, none)

/-- Tiles that a broadcast invalidation for a requester reaches: those of its partition; of every partition, for a requester that is
no tile. -/
def treeTiles (s : State) (tile : Nat) : List Nat :=
  match s.parts.look (partOfTile s tile) with | some P => P.tiles | none => s.parts.flatMap (fun e => e.2.tiles)

/-- A channel of the Rowan tree of a partition, 8 to 23, that no broadcast invalidation holds (18 R388, R389). -/
def freeChannel (s : State) (p : Nat) : Option Nat :=
  ((List.range 16).map (· + 8)).find? (fun c =>
    !s.dir.any (fun e => e.2.chan == some c && (match e.2.pend with | some q => partOfTile s q.1 == p | none => false)))

/-- An access to a line of an SH granule (14 R316, R317): it goes on, or waits for acknowledgements. A requester that is no tile holds no
copy: it is no sharer, and its write is performed at the home (log 70). -/
def dirClaim (s : State) (tile core pa : Nat) (write rmw0 : Bool) : State × Option Block :=
  let line := lineOf pa
  let rmw := rmw0 || (write && decide (960 ≤ tile))
  let d := s.dir.lookD DirEnt.reset line
  match d.st with
  | .m _ _ _ => (s, none)
  | _ =>
    if d.pend.isSome then (s, some (.acks line))
    else if write then
      if !rmw && d.ownedBy tile then (fillLine s tile core pa write rmw, none)
      else
        let ts := invalTargets (treeTiles s tile) d tile
        if ts.isEmpty then (fillLine (updDir s line (fun d => dirOwn d tile rmw)) tile core pa write rmw, none)
        else if d.bc && (freeChannel s (partOfTile s tile)).isNone then (s, some (.acks line))
        else (updDir s line (fun d => { d with
          acks := ts, pend := some (tile, rmw), chan := if d.bc then freeChannel s (partOfTile s tile) else none }), some (.acks line))
    else if d.ownedBy tile then (fillLine s tile core pa write rmw, none)
    else
      let s1 := if d.st = .o then cleanLines s (· == d.owner) (· == line) else s
      (fillLine (updDir s1 line (fun d => if 960 ≤ tile then { d with st := if d.st = .o then .s else d.st } else dirRead d tile))
        tile core pa write rmw, none)

/-- An access at the class table (14 R313, R314): core 4 stands for a unit of the tile that is no core, tile 1024 for the host and 1023 for
the dispatcher, which are no tile: they give a granule no owner, and count as a tile other than it. One that needs a flush begins it and
waits. -/
def classClaim (s : State) (tile core pa : Nat) (write rmw : Bool) : State × Option Block :=
  let gr := granOf pa
  match s.classes.look gr with
  | none =>
    if 960 ≤ tile then (s, none)
    else (fillLine { s with classes := s.classes.setAt gr { cls := .prv tile core, wr := write, flush := none } } tile core pa write rmw, none)
  | some c =>
    if c.flush.isSome then (s, some (.flush gr))
    else
      let (k, wr, fl) := classStep c tile core write
      if fl then ({ s with classes := s.classes.setAt gr { c with flush := some (k, wr) } }, some (.flush gr))
      else
        let s1 := { s with classes := s.classes.setAt gr { c with cls := k, wr := wr } }
        if k = .sh then dirClaim s1 tile core pa write rmw else (fillLine s1 tile core pa write rmw, none)

/-- The egress port to a wafer: none when it is not in the connected group (19 R397). -/
def routePort (s : State) (w : Nat) : Option Nat :=
  let e := (s.routes.lookD 0 w).toNat
  if bitN e 15 then some (bitsN e 13 10) else none

/-- The group of an access that lanes make. -/
def Asker.group : Asker → Option Nat
  | .lanes g => some g
  | _ => none

/-- What may hold an access at its home until a flush, an invalidation or a wake has ended. -/
def placesOf (pa : Nat) : List Block :=
  [.flush (granOf pa), .acks (lineOf pa)] ++ if spaceOf pa = 1 then [.wake (tmTile pa) (.tmBank (tmOff pa / 2 ^ 19))] else []

/-- An access arrives: a line that a serialised region holds, a gate, a flush, a pending invalidation (09 R223; 14 R314, R317, R326), an
access that has waited for one of these longer, or a full replay buffer (19 R404) holds it. -/
def claim (s : State) (me : Asker) (tile core pa : Nat) (write rmw : Bool) : State × Option Block :=
  if spaceOf pa = 2 then
    match routePort s (bitsN pa 44 39) with
    | some k => (s, if write && !portRoom s k then some (.port k) else none)
    | none => (s, none)
  else if 2 ≤ spaceOf pa then (s, none)
  else if s.lockedFor me.group (lineOf pa) then (s, some (.locked (lineOf pa)))
  else
    match (placesOf pa).find? (ahead s me) with
    | some b => (s.queueUp me b, some b)
    | none =>
      match gateHold s pa with
      | (s1, some b) => (s1.queueUp me b, some b)
      | (s1, none) =>
        match classClaim s1 tile core pa write rmw with
        | (s2, some b) => (s2.queueUp me b, some b)
        | (s2, none) => (s2.served me (placesOf pa), none)

/-- An access by a unit that is no lane: whether it may go on. -/
def claimUnit (s : State) (me : Asker) (tile pa : Nat) (write rmw : Bool) : State × Bool :=
  let r := claim s me tile 4 pa write rmw
  (r.1, r.2.isNone)

/-- The lines of a range of n bytes claimed one after the other, until one must wait. -/
def claimRange (s : State) (me : Asker) (tile pa n : Nat) (write rmw : Bool) : State × Bool :=
  let lines := (List.range (n / lineBytes + 2)).filter (fun i => decide ((pa / lineBytes + i) * lineBytes < pa + n))
  lines.foldl (fun r i => if r.2 then claimUnit r.1 me tile ((pa / lineBytes + i) * lineBytes) write rmw else r) (s, true)

/-- Pending reductions to the lines of a granule drained (14 R321). -/
def drainGranule (s : State) (gr : Nat) : State :=
  (s.tiles.flatMap (fun t => (t.2.wq.filter (fun e => e.line / 1024 == gr)).map WqEnt.line)).foldl drainLine s

/-- The copies that a flush to a class ends (14 R313): one core's, or every copy of the granule. -/
def flushCopies (s : State) (gr : Nat) (old new : Cls) : State :=
  match old, new with
  | .prv t k, .prt _ => if k < 4 then s.updCore t k (fun c => { c with l1 := c.l1.keep (fun l _ => l / 1024 != gr) }) else s
  | _, _ => dropLines s (fun _ => true) (fun l => l / 1024 == gr)

/-- A flush completed: the write queue's entries drained, copies written back and invalidated, the new class, the marks and the wakes
(14 R314, R321). -/
def endFlush (s : State) (gr : Nat) : State :=
  match s.classes.look gr with
  | none => s
  | some c =>
    match c.flush with
    | none => s
    | some (k, wr) =>
      let s0 := flushCopies (drainGranule s gr) gr c.cls k
      let s1 := { s0 with classes := s0.classes.setAt gr { cls := k, wr := wr, flush := none } }
      wakeGranule (markGranule s1 gr) gr

/-- A granule returned to NONE: its copies written back and invalidated, those of a stable page too, and its lines out of the L2
(14 R315; 13 R302). -/
def classReset (s : State) (gr : Nat) : State :=
  let s1 := dropLines (drainGranule s gr) (fun _ => true) (fun l => l / 1024 == gr)
  let s2 := { s1 with
    classes := s1.classes.remove gr, dir := s1.dir.keep (fun l _ => l / 1024 != gr)
    tiles := s1.tiles.mapV (fun _ t => { t with
      l2 := t.l2.keep (fun l _ => l / 1024 != gr), stable := t.stable.keep (fun l _ => l / 1024 != gr) }) }
  wakeGranule (markGranule s2 gr) gr

/-- PCARVE's values take effect on a tile: under a TM region of another size the L2 has other sets, so its lines leave; gated banks that the
reserve now covers, that the L1 needs, or that do not lie in the TM region are re-enabled (14 R304, R306, R325). -/
def setCarve (s : State) (tile : Nat) (carve : Nat × Nat × Nat) : State :=
  let x := s.tileAt tile
  if x.carve = carve then s
  else
    let s1 := if x.carve.2.1 = carve.2.1 then s else x.l2.keys.foldl evictL2 s
    let s2 := s1.updTile tile (fun x =>
      let out := x.gated.filter (fun u => match u with | .tmBank i => decide (carve.2.1 * 2 ^ 18 < (i + 1) * 524288) | _ => false)
      { x with carve, gated := x.gated.filter (fun u => !out.contains u), waking := x.waking ++ out })
    let r := storeArea carve true
    (List.range 4).foldl (fun s k => (wakeStore s tile k [(r.1, r.2 - r.1)] 0).1) s2

/-- PCARVE's values as last written take effect on those of some tiles of a partition on which no launch is resident (14 R306). -/
def carveIdle (s : State) (p : Nat) (tiles : List Nat) : State :=
  match s.parts.look p with
  | none => s
  | some P => tiles.foldl (fun s t =>
      if P.tiles.contains t && !s.launches.any (fun e => e.2.slots.any (fun q => q.1 == t)) then setCarve s t P.pcarve else s) s

/-! ### Reads and writes at the home -/

/-- n bytes at a physical address as an access reads them: the line's pending reductions drain first (14 R321). -/
def readPa (s : State) (pa n : Nat) : State × Nat :=
  let s1 := drainLine (touchFrame s pa) (lineOf pa)
  (s1, s1.readN (locOf s1 pa) n)

def poisonedPa (s : State) (pa : Nat) : Bool := s.isPoisoned (locOf s pa)

/-- Is a loss of light detected whose replay has not ended? -/
def Port.mending (x : Port) (now : Nat) : Bool := x.loss.any (fun l => l.seen && l.ends.all (fun t => decide (now < t)))
/-- How many flits at the end of the replay buffer have never been sent: those that the mesh has still to bring, one in a cycle (18 R378), and
those that wait for a detected failure's replay (26 R449). -/
def Port.waiting (x : Port) (now : Nat) : Nat := max (x.feedAt - now) (if x.mending now then x.unsent else 0)

/-- n exact flits towards the wafer of a fabric address: they reach its port one in a cycle, and are kept there until they are acknowledged
(18 R378; 19 R404). -/
def sendFlits (s : State) (pa n : Nat) : State :=
  match routePort s (bitsN pa 44 39) with
  | none => s
  | some k =>
    let P := s.ports.lookD Port.reset k
    { s with ports := s.ports.setAt k { P with
        unsent := if P.mending s.clock then P.unsent + n else 0, feedAt := max P.feedAt s.clock + n,
        nextTx := (P.nextTx + n) % 2 ^ 32, replayBuf := P.replayBuf ++ (List.range n).map (fun i => (P.nextTx + i) % 2 ^ 32) } }

/-- The access whose flits were sent last towards a fabric address owes an acknowledgement (19 R402). -/
def owe (s : State) (pa n va launch : Nat) (who : Owner) : State :=
  match routePort s (bitsN pa 44 39) with
  | none => s
  | some k =>
    let P := s.ports.lookD Port.reset k
    { s with ports := s.ports.setAt k { P with
        owed := P.owed ++ [{ seq := (P.nextTx + (2 ^ 32 - 1)) % 2 ^ 32, va, n, wafer := bitsN pa 44 39, launch, who }] } }

/-- A lane's write or reduction at a fabric address, just performed, owes its acknowledgement. -/
def oweLane (s : State) (g i pa va : Nat) : State :=
  if spaceOf pa != 2 then s
  else match s.groups.look g with
    | some G => owe s pa 2 va G.launch (.lane g i)
    | none => s

/-- Room at the port of a fabric address for n exact flits. -/
def flitRoom (s : State) (pa n : Nat) : Bool :=
  match routePort s (bitsN pa 44 39) with
  | none => true
  | some k => decide ((s.ports.lookD Port.reset k).replayBuf.length + n ≤ 8192)

/-- Flits of the write packets of some fabric bytes: one packet for each 1 KiB-aligned kilobyte, of a header flit and one
payload flit per 128 bytes (26 R448). Addresses are those of n-byte pieces. -/
def writeFlits (n : Nat) (pas : List Nat) : List (Nat × Nat) :=
  ((pas.map (· / 1024)).dedup).map (fun k => (1024 * k, 1 + (n * (pas.filter (fun a => a / 1024 == k)).length + 127) / 128))

/-- Payload bytes that a partition has sent to the fabric, and that were delivered to it (20 R422). -/
def countTx (s : State) (p pa n : Nat) : State := if spaceOf pa = 2 then s.updPart p (fun P => { P with fabtx := P.fabtx + n }) else s
def countRx (s : State) (p pa n : Nat) : State := if spaceOf pa = 2 then s.updPart p (fun P => { P with fabrx := P.fabrx + n }) else s

/-- n bytes written at a physical address by `writer` (a group, or a unit): pending reductions drain, other regions' inputs
are marked, the dirty log notes the frame, and a write to another wafer is counted; a group's is one packet. -/
def writePa (s : State) (writer : Option Nat) (p pa n v : Nat) : State :=
  let s1 := drainLine (touchFrame s pa) (lineOf pa)
  let s2 := noteWrite (markLine s1 writer (lineOf pa)) p pa
  let s3 := countTx s2 p pa n
  let s4 := if spaceOf pa = 2 ∧ writer.isSome then sendFlits s3 pa 2 else s3
  s4.writeN (locOf s4 pa) n v

/-- Bytes written one line at a time. -/
def writePaBytes (s : State) (writer : Option Nat) (p pa : Nat) : List Byte → State
  | [] => s
  | b :: bs => writePaBytes (writePa s writer p pa 1 b.toNat) writer p (pa + 1) bs

/-- Bytes read one at a time, with whether some line is poisoned. -/
def readPaBytes (s : State) (pa : Nat) : Nat → State × List Byte × Bool
  | 0 => (s, [], false)
  | n + 1 =>
    let (s1, v) := readPa s pa 1
    let (s2, bs, p) := readPaBytes s1 (pa + 1) n
    (s2, BitVec.ofNat 8 v :: bs, p || poisonedPa s1 pa)

/-- An exact-class engine write that covers whole lines clears their poison (07 R180). -/
def clearCovered (s : State) (pa n : Nat) : State :=
  (List.range (n / lineBytes + 1)).foldl (fun s i =>
    let l := (pa + lineBytes - 1) / lineBytes + i
    if (l + 1) * lineBytes ≤ pa + n then s.clearPoison (lineOf (locOf s (l * lineBytes))) else s) s

/-- A line poisoned (07 R180). -/
def poisonPa (s : State) (pa : Nat) : State := s.setPoison (lineOf (locOf s pa))

/-- An atomic applied to a word, without merging: old value, the new state; a poisoned line is unchanged (07 R180). -/
def atomicPa (s : State) (writer : Option Nat) (p pa : Nat) (t : Ty) (f : Nat → Nat) : State × Nat × Bool :=
  let n := tyW t / 8
  let (s1, old) := readPa s pa n
  if poisonedPa s1 pa then (s1, old, true) else (writePa s1 writer p pa n (f old), old, false)

end Sys2Proof.Machine
end

