-- ==== Sys2Proof/Machine/Translate.lean ====
section
/-!
DEFINITION. Two-stage translation, the TLBs and the outstanding faults (spec 15 R327 to R337; 19 R399).

A walk runs inside the access that misses, so no walk waits for one of the tile's 16 walkers (log 77). A core's L1 TLB, the tile's TLB
and its walk cache are lists, newest first.
-/

namespace Sys2Proof.Machine

/-! ### Table entries (15 R327 to R329) -/

/-- Address bits below the index of a level. -/
def lvlShift : Nat → Nat
  | 1 => 39
  | 2 => 30
  | 3 => 21
  | _ => 16
def lvlIndex (lvl a : Nat) : Nat := a / 2 ^ lvlShift lvl % (if lvl = 4 then 32 else 512)
/-- Alignment of the table that a pointer of a level names. -/
def nextAlign (lvl : Nat) : Nat := if lvl = 3 then 256 else 4096

def pteAddr (e : Nat) : Nat := bitsN e 47 8 * 256
def pteLeaf (e : Nat) : Bool := bitN e 1

/-- Largest installed HBM address (01 R43). -/
def hbmTop : Nat := 0x18000000000

/-- Is a valid entry malformed (15 R329)? -/
def pteBad (stage2 : Bool) (lvl e : Nat) : Bool :=
  bitsN e 58 56 != 0 || bitsN e 7 2 != 0 || (lvl == 1 && pteLeaf e) || (lvl == 4 && !pteLeaf e) ||
  pteAddr e % (if pteLeaf e then 2 ^ lvlShift lvl else nextAlign lvl) != 0 ||
  (!pteLeaf e && (bitsN e 63 60 != 0)) || (!stage2 && bitN e 59) ||
  (stage2 && pteLeaf e && bitN e 63 && lvl != 4) ||
  (stage2 && (spaceOf (pteAddr e) != 0 && spaceOf (pteAddr e) != 3 && !(pteLeaf e && spaceOf (pteAddr e) == 1))) ||
  (stage2 && spaceOf (pteAddr e) == 0 && decide (hbmTop ≤ pteAddr e))

/-- How a walk of one stage ends. -/
inductive WalkR where
  | leaf (base size addr : Nat) (e : Nat)
  | absent
  | malformed
  /-- an entry with BSY set -/
  | busy (e : Nat)
  deriving DecidableEq, Repr

/-- The address that a stage-2 leaf names; of a TM address only the tile id and the offset count (01 R43; log 74). -/
def leafAddr (e : Nat) : Nat := if spaceOf (pteAddr e) = 1 then 2 ^ 45 + pteAddr e % 2 ^ 34 else pteAddr e

/-- A stage-2 walk from a table at a physical address, k levels above the leaves; `seen` collects the pointers that it passes: level, and
the table that follows. -/
def s2Levels (s : State) (a : Nat) : Nat → Nat → List (Nat × Nat) → State × WalkR × List (Nat × Nat)
  | 0, _, seen => (s, .malformed, seen)
  | k + 1, tbl, seen =>
    let lvl := 4 - k
    if (spaceOf tbl != 0 && spaceOf tbl != 3) || (spaceOf tbl == 0 && decide (hbmTop ≤ tbl)) then (s, .malformed, seen)
    else
      let (s1, e) := readPa s (tbl + 8 * lvlIndex lvl a) 8
      if !bitN e 0 then (s1, .absent, seen)
      else if pteBad true lvl e then (s1, .malformed, seen)
      else if bitN e 59 then (s1, .busy e, seen)
      else if pteLeaf e then
        let z := 2 ^ lvlShift lvl
        (s1, .leaf (a / z * z) z (leafAddr e) e, seen)
      else s2Levels s1 a k (pteAddr e) ((lvl, pteAddr e) :: seen)

/-! ### The walk cache (15 R332, R334) -/

def WalkEnt.covers (e : WalkEnt) (a : Nat) : Bool := e.base ≤ a && a < e.base + 2 ^ lvlShift e.lvl

/-- The pointer of the lowest level that a tile's walk cache holds for an address; of stage 1, below the root that sr.s1root now gives
(12 R276). -/
def walkHit (s : State) (tile p stage root a : Nat) : Option WalkEnt :=
  ((s.tileAt tile).walks.filter (fun e => e.part == p && e.stage == stage && e.root == root && e.covers a)).foldl
    (fun (b : Option WalkEnt) e => match b with | some d => if d.lvl < e.lvl then some e else b | none => some e) none

/-- Pointers that a walk has read enter the tile's walk cache, which keeps the newest 256; `s2` gives the stage-2 pages that each stands
on. -/
def fillWalks (s : State) (tile p stage root a : Nat) (seen : List (Nat × Nat)) (s2 : Nat → List (Nat × Nat)) : State :=
  if seen.isEmpty then s
  else
    let new := seen.map (fun q => ({ part := p, stage, lvl := q.1, base := a / 2 ^ lvlShift q.1 * 2 ^ lvlShift q.1, table := q.2, s2 := s2 q.1, root } : WalkEnt))
    s.updTile tile (fun t => { t with
      walks := (new ++ t.walks.filter (fun e => !new.any (fun d =>
        d.part == e.part && d.stage == e.stage && d.lvl == e.lvl && d.base == e.base && d.root == e.root))).take 256 })

/-- Stage 2 of an IPA as R399 forms it: the fabric window needs no walk. -/
inductive S2R where
  | page (base size pa : Nat) (r w x mg : Bool)
  /-- what entries of the import table grant: a read, a write, and both in one entry -/
  | fabric (pa : Nat) (r w rw : Bool)
  | fault (reason : Nat)
  /-- a busy leaf with its permissions and whether it names TM, or a busy pointer, which denies nothing -/
  | busy (r w x tm : Bool)
  deriving DecidableEq, Repr

/-- Does the import table grant the access (19 R399)? -/
def importOk (P : Part) (wafer handle : Nat) (r w : Bool) : Bool :=
  P.imports.any (fun e =>
    let x := e.2.toNat
    bitN x 15 && bitsN x 11 6 == wafer && bitsN x 5 0 == handle && (!r || bitN x 14) && (!w || bitN x 13))

def inFwin (P : Part) (ipa : Nat) : Bool := bitN P.fwin.toNat 0 && bitsN P.fwin.toNat 47 45 == bitsN ipa 47 45

/-- What a stage-2 walk's end means for an access. -/
def WalkR.res : WalkR → S2R
  | .leaf b z a e => .page b z a (bitN e 60) (bitN e 61) (bitN e 62) (bitN e 63)
  | .absent => .fault 0
  | .malformed => .fault 1
  | .busy e => .busy (!pteLeaf e || bitN e 60) (!pteLeaf e || bitN e 61) (!pteLeaf e || bitN e 62) (pteLeaf e && spaceOf (pteAddr e) == 1)

/-- The fabric address of an IPA in the window, with what the import table grants. -/
def fabricLeaf (P : Part) (ipa : Nat) : S2R :=
  let pa := 2 ^ 46 + ipa % 2 ^ 45
  let wf := bitsN pa 44 39
  let h := bitsN pa 38 33
  .fabric pa (importOk P wf h true false) (importOk P wf h false true) (importOk P wf h true true)

/-- Stage 2 of partition P for an IPA, from the tables. -/
def stage2 (s : State) (P : Part) (ipa : Nat) : State × S2R :=
  if inFwin P ipa then (s, fabricLeaf P ipa)
  else
    let r := s2Levels s ipa 4 P.s2root []
    (r.1, r.2.1.res)

/-- Stage 2 as a tile walks it: from the lowest pointer that its walk cache holds, and filling that cache. -/
def stage2At (s : State) (tile p : Nat) (P : Part) (ipa : Nat) : State × S2R :=
  if inFwin P ipa then (s, fabricLeaf P ipa)
  else
    let r := match walkHit s tile p 2 0 ipa with
      | some e => s2Levels s ipa (4 - e.lvl) e.table []
      | none => s2Levels s ipa 4 P.s2root []
    (fillWalks r.1 tile p 2 0 ipa r.2.2 (fun l => [(ipa / 2 ^ lvlShift l * 2 ^ lvlShift l, 2 ^ lvlShift l)]), r.2.1.res)

/-! ### The nested walk and the checks of R330 -/

/-- What an access needs of a page. -/
inductive Need where
  | rd | wr | rmw | fetch
  /-- a near-memory packet, which the target refuses only when it executes (10 R228; 19 R401); `w`: of a kind that writes -/
  | packet (w : Bool)
  deriving DecidableEq, Repr

def Need.r : Need → Bool | .rd | .rmw | .packet _ => true | _ => false
def Need.w : Need → Bool | .wr | .rmw | .packet true => true | _ => false
/-- KIND of a fault record (15 R338). -/
def Need.kind : Need → Nat | .rd | .packet false => 0 | .wr => 1 | .rmw | .packet true => 2 | .fetch => 3

/-- A fault met by a walk: stage, KIND override for a table read, REASON and ADDR. -/
structure WFault where
  stage : Nat
  table : Bool
  reason : Nat
  addr : Nat
  deriving DecidableEq, Repr

/-- How a translation ends. -/
inductive Tr where
  | ok (e : TlbEnt) (pa : Nat)
  | trap (code : Nat)
  | fault (f : WFault)
  | busy (ipa : Nat)
  deriving DecidableEq, Repr

/-- How stage 1 ends; `used` are the stage-2 pages that its tables stand on. -/
inductive S1R where
  | page (base size ipa : Nat) (w x so stb : Bool) (used : List (Nat × Nat))
  | fault (f : WFault)
  | busy (ipa : Nat)
  deriving DecidableEq, Repr

/-- A line request to host space through a managed leaf counts for its 2 MiB region (15 R342). -/
def countHost (s : State) (p ipa pa : Nat) (mg : Bool) : State :=
  if mg && spaceOf pa == 3 then
    s.updPart p (fun P =>
      if P.acthr = 0 then P
      else
        let k := ipa / 2 ^ 21
        let a := P.act.lookD { count := 0, pending := false, note := none } k
        let n := min 0xFFFF (a.count + 1)
        let rises := !a.pending && decide (a.count < P.acthr) && decide (P.acthr ≤ n)
        { P with act := P.act.setAt k { a with count := n, note := if rises then some n else a.note } })
  else s

/-- A stage-1 walk: every table read passes stage 2, whose leaf may not name TM whatever its other bits (15 R327, R330). -/
def s1Levels (s : State) (tile p : Nat) (P : Part) (va : Nat) : Nat → Nat → List (Nat × Nat) → State × S1R
  | 0, _, _ => (s, .fault ⟨1, false, 1, va⟩)
  | k + 1, tbl, used =>
    let lvl := 4 - k
    let ea := tbl + 8 * lvlIndex lvl va
    match stage2At s tile p P ea with
    | (s1, .fabric _ _ _ _) => (s1, .fault ⟨1, false, 1, va⟩)
    | (s1, .fault r) => (s1, .fault ⟨2, true, r, ea⟩)
    | (s1, .busy r _ _ tm) =>
      if tm then (s1, .fault ⟨1, false, 1, va⟩) else if r then (s1, .busy ea) else (s1, .fault ⟨2, true, 2, ea⟩)
    | (s1, .page b z pa r _ _ mg) =>
      if spaceOf pa = 1 then (s1, .fault ⟨1, false, 1, va⟩)
      else if !r then (s1, .fault ⟨2, true, 2, ea⟩)
      else
        let (s2, e) := readPa (countHost s1 p ea pa mg) (pa + (ea - b)) 8
        let used' := (b, z) :: used
        if !bitN e 0 then (s2, .fault ⟨1, false, 0, va⟩)
        else if pteBad false lvl e then (s2, .fault ⟨1, false, 1, va⟩)
        else if pteLeaf e then
          let y := 2 ^ lvlShift lvl
          (s2, .page (va / y * y) y (pteAddr e) (bitN e 61) (bitN e 62) (bitN e 60) (bitN e 63) used')
        else s1Levels (fillWalks s2 tile p 1 P.s1root va [(lvl, pteAddr e)] (fun _ => used')) tile p P va k (pteAddr e) used'

/-- Stage 1 of a VA by a tile: with EN clear the IPA equals the VA. -/
def stage1 (s : State) (tile p : Nat) (P : Part) (va : Nat) : State × S1R :=
  if bitN P.s1ctl 0 then
    match walkHit s tile p 1 P.s1root va with
    | some e => s1Levels s tile p P va (4 - e.lvl) e.table e.s2
    | none => s1Levels s tile p P va 4 P.s1root []
  else (s, .page 0 (2 ^ 48) 0 true true false false [])

/-- Stage-1 permission (15 R330 step 2). -/
def s1Denies (n : Need) (priv : Bool) (w x so stb : Bool) : Bool :=
  (n.w && (!w || stb)) || (n == .fetch && !x) || (so && !priv)

/-- Stage-2 permission (15 R330 step 4). -/
def s2Denies (n : Need) (r w x : Bool) : Bool := (n.r && !r) || (n.w && !w) || (n == .fetch && !x)

def Need.isPacket : Need → Bool | .packet _ => true | _ => false

/-- Checks on the physical address that stage 2 gave: the tile's TM region, the home map, the route table and the target's answer (14 R307,
R310; 19 R399, R401). -/
def paCheck (s : State) (p : Nat) (n : Need) (pa : Nat) : Option Nat :=
  match spaceOf pa with
  | 0 => if (homeTile s p pa).isNone then some 0x07 else none
  | 1 => if (homeTile s p pa).isNone || decide ((s.tileAt (tmTile pa)).carve.2.1 * 2 ^ 18 ≤ tmOff pa) then some 0x07 else none
  | 2 => if n == .fetch then some 0x07
         else if !bitN (s.routes.lookD 0 (bitsN pa 44 39)).toNat 15 then some 0x11
         else if !n.isPacket && Config.remoteRefuses s.clock pa then some 0x07 else none
  | _ => none

/-- The entry that serves a VA, when the tile holds one (15 R332). -/
def tlbHit (s : State) (tile p va : Nat) : Option TlbEnt :=
  (s.tileAt tile).tlb.find? (fun e => e.part == p && e.base ≤ va && va < e.base + e.size)

/-- Permission checks of an entry in the order of R330, then the physical address. -/
def tlbServe (s : State) (p : Nat) (n : Need) (priv : Bool) (va : Nat) (e : TlbEnt) : Tr :=
  if s1Denies n priv e.w1 e.x1 e.so e.stb then .trap 0x0A
  else if s2Denies n e.r e.wr e.x then .fault ⟨2, false, 2, e.ipa + (va - e.base)⟩
  else
    let pa := e.pa + (va - e.base)
    match paCheck s p n pa with
    | some c => .trap c
    | none => .ok e pa

/-- An entry filled into a tile's TLB of 4,096 entries in 16 ways; in its set the oldest gives way. The set is the page number modulo 256
(DESIGN CHOICE, log 76). -/
def fillTlb (x : Tile) (e : TlbEnt) : Tile :=
  let set := fun (d : TlbEnt) => d.base / granBytes % 256
  let same := x.tlb.filter (fun d => set d == set e)
  { x with tlb := e :: (match same.getLast? with | some d => if 16 ≤ same.length then x.tlb.erase d else x.tlb | none => x.tlb) }

/-- A stage-2 page that a walk has used. -/
def Part.saw (P : Part) (ipa pa size : Nat) : Part :=
  if P.seen.contains (ipa, pa, size) then P else { P with seen := (ipa, pa, size) :: P.seen }

/-- Stage 2 of the final address, and the entry that the walk fills. -/
def finishWalk (s : State) (tile p : Nat) (P : Part) (n : Need) (priv : Bool) (va : Nat)
    (b1 z1 i1 : Nat) (w1 x1 so stb : Bool) (used : List (Nat × Nat)) : State × Tr :=
  let ipa := i1 + (va - b1)
  if s1Denies n priv w1 x1 so stb then (s, .trap 0x0A)
  else
    match stage2At s tile p P ipa with
    | (s1, .fault r) => (s1, .fault ⟨2, false, r, ipa⟩)
    | (s1, .busy r w x _) => if s2Denies n r w x then (s1, .fault ⟨2, false, 2, ipa⟩) else (s1, .busy ipa)
    | (s1, .fabric pa r w rw) =>
      if n == .fetch then (s1, .trap 0x07)
      else if (if n.r && n.w then !rw else s2Denies n r w false) then (s1, .fault ⟨2, false, 2, ipa⟩)
      else match paCheck s1 p n pa with
        | some c => (s1, .trap c)
        | none => (s1, .ok { part := p, base := va, size := 0, pa, ipa, mg := false, r, wr := w, x := false, w1, x1, so, stb,
                             s1 := (b1, z1), s2 := [] } pa)
    | (s1, .page b2 z2 a2 r w x mg) =>
      let z := min z1 z2
      let base := va / z * z
      let e : TlbEnt := { part := p, base, size := z, pa := a2 + ((i1 + (base - b1)) - b2), ipa := i1 + (base - b1), mg, r, wr := w, x,
                          w1, x1, so, stb, s1 := (b1, z1), s2 := (b2, z2) :: used }
      match tlbServe s1 p n priv va e with
      | .ok _ pa => ((s1.updTile tile (fun t => fillTlb t e)).updPart p (fun P => P.saw b2 a2 z2), .ok e pa)
      | r => (s1, r)

/-- Translation of a global VA by a unit of a tile (15 R330, R332). -/
def translate (s : State) (tile p : Nat) (n : Need) (priv : Bool) (va : Nat) : State × Tr :=
  match s.parts.look p with
  | none => (s, .trap 0x07)
  | some P =>
    match tlbHit s tile p va with
    | some e => (s, tlbServe s p n priv va e)
    | none =>
      match stage1 s tile p P va with
      | (s1, .fault f) => (s1, .fault f)
      | (s1, .busy i) => (s1, .busy i)
      | (s1, .page b z i w x so stb used) => finishWalk s1 tile p P n priv va b z i w x so stb used

/-- Translation for a lane of a core: its L1 TLB of 256 entries first, then as the tile translates (15 R332). -/
def coreTranslate (s : State) (tile core p : Nat) (n : Need) (priv : Bool) (va : Nat) : State × Tr :=
  match (s.coreAt tile core).tlb.find? (fun e => e.part == p && e.base ≤ va && va < e.base + e.size) with
  | some e => (s, tlbServe s p n priv va e)
  | none =>
    match translate s tile p n priv va with
    | (s1, .ok e pa) => (if e.size = 0 then s1 else s1.updCore tile core (fun c => { c with tlb := (e :: c.tlb).take 256 }), .ok e pa)
    | r => r

/-! ### Outstanding faults (15 R336) -/

def faultKey (tile p : Nat) (f : WFault) : FaultKey := { tile, stage := f.stage, part := p, page := f.addr / granBytes }

/-- The tile number under which faults of dispatcher accesses stand (15 R338). -/
def dispTile : Nat := 1023

/-- A fault entered in the tile's unit: it joins an entry of its page; beyond 64 it waits unposted. A dispatcher access keeps its KIND 4
at a table read too (15 R338). -/
def raiseFault (s : State) (tile p core group : Nat) (kind va : Nat) (f : WFault) : State :=
  let k := faultKey tile p f
  if s.hasFault k || decide (64 ≤ (s.tileAt tile).faults.length) then s
  else s.updTile tile (fun t => { t with faults := t.faults ++ [{ key := k, kind := if f.table && tile != dispTile then 5 else kind, addr := f.addr, ova := va,
                                                                  reason := f.reason, core, group, posted := none }] })

/-- Entries of a partition's TLBs, and of its walk caches, dropped in every tile and core (15 R334; 12 R281). -/
def dropTlb (s : State) (p : Nat) (sel : TlbEnt → Bool) (ptr : WalkEnt → Bool) : State :=
  { s with
    cores := s.cores.mapV (fun _ c => { c with tlb := c.tlb.filter (fun e => !(e.part == p && sel e)) })
    tiles := s.tiles.mapV (fun _ t => { t with
      tlb := t.tlb.filter (fun e => !(e.part == p && sel e)), walks := t.walks.filter (fun e => !(e.part == p && ptr e)) }) }

def pageHas (a : Nat) (q : Nat × Nat) : Bool := q.1 ≤ a && a < q.1 + q.2

end Sys2Proof.Machine
end

