-- ==== Sys2Proof/Machine/Lanes.lean ====
section
/-!
DEFINITION. The accesses that lanes make: address checks in their order, translation, coherence, reads, writes and atomics of
one place, and the side log (spec 01 R30, R41, R42; 07 R161 to R164, R174 to R180; 12 R270; 15 R337).
-/

namespace Sys2Proof.Machine

/-! ### Address checks (01 R41, R42) -/

/-- What kind of instruction accesses. -/
inductive How where
  | load | store | atomic | waita
  /-- a near-memory packet's target, translated only; `w`: of a kind that writes -/
  | packet (w : Bool)
  deriving DecidableEq, Repr

def How.need : How → Need
  | .load => .rd
  | .store => .wr
  | .atomic => .rmw
  | .waita => .rd
  | .packet w => .packet w

/-- What an address names, checks 1 to 3 passed. -/
inductive Tgt where
  | rv (off : Nat)
  | scr (loc : Nat)
  | tm (pa : Nat)
  | cst (off : Nat)
  | glob (va : Nat)
  deriving DecidableEq, Repr

/-- Checks 1 to 4 of R42 that need no translation: an access of n bytes at ea. R42 does not say at which check an atomic, RED or WAITA
that names the register view, or a WAITA that names the constant window (07 R178), raises its 0x07: here before alignment (DESIGN CHOICE,
log 27). -/
def addrCheck (G : Group) (L : Launch) (how : How) (n ea : Nat) : Except Nat Tgt :=
  let hi := ea / 2 ^ 40
  let off := ea % 2 ^ 40
  let mis := ea % n != 0
  let upd := how == .atomic || how == .waita
  if hi / 256 = 0 then (if mis then .error 0x06 else .ok (.glob ea))
  else if hi = 0xFFFF80 then
    if off < 0x10000 then
      if upd then .error 0x07
      else if mis then .error 0x06
      else if G.v * G.w * 4 ≤ off then .error 0x03
      else .ok (.rv off)
    else if mis then .error 0x06
    else if L.rc.scr < off - 0x10000 + n then .error 0x05
    else .ok (.scr (storeLoc G.tile G.core (L.scrBase G.lin + (off - 0x10000))))
  else if hi = 0xFFFF81 then
    if mis then .error 0x06
    else if L.rc.tmb < off + n then .error 0x05
    else match L.tmOf G.lin with
      | some a => .ok (.tm (tmPa a.tile (a.base + off)))
      | none => .error 0x05
  else if hi = 0xFFFF82 then
    if how == .waita then .error 0x07
    else if mis then .error 0x06
    else if 0x10000 ≤ off then .error 0x07
    else if how == .load then .ok (.cst off) else .error 0x0A
  else .error 0x07

/-! ### Places -/

/-- Where an access lands, translated. `stb`: a stable page, served from the tile's copies. -/
inductive Place where
  | rv (off : Nat)
  | loc (l : Nat)
  | cst (off : Nat)
  | pa (a : Nat) (stb : Bool)
  deriving DecidableEq, Repr

/-- One lane's access. -/
structure LaneAcc where
  lane : Nat
  ea : Nat
  place : Place
  deriving DecidableEq, Repr

/-- What translation leaves: a trap, places, the lanes that faulted, and the line requests to count (IPA, PA, managed leaf). -/
structure Prep where
  s : State
  trap : Option TrapInfo
  ok : List LaneAcc
  bad : List (Nat × Nat × WFault)
  busy : Option (Nat × Nat)
  req : List (Nat × Nat × Bool)

/-- The fault that an earlier lane has met on the page of an address: the walk that found it serves this lane too (15 R332, R342). -/
def samePage (bad : List (Nat × Nat × WFault)) (va : Nat) : Option WFault :=
  (bad.find? (fun b => b.2.1 / granBytes == va / granBytes)).map (fun b =>
    if b.2.2.table then b.2.2 else { b.2.2 with addr := b.2.2.addr + va - b.2.1 })

/-- One lane resolved. -/
def resolveLane (G : Group) (L : Launch) (p : Nat) (how : How) (n : Nat) (r : Prep) (a : Nat × Nat) : Prep :=
  if r.trap.isSome then r
  else
    match addrCheck G L how n a.2 with
    | .error c => { r with trap := some { code := c, addr := a.2 } }
    | .ok (.rv o) => { r with ok := r.ok ++ [⟨a.1, a.2, .rv o⟩] }
    | .ok (.scr l) => { r with ok := r.ok ++ [⟨a.1, a.2, .loc l⟩] }
    | .ok (.tm q) => { r with ok := r.ok ++ [⟨a.1, a.2, .pa q false⟩] }
    | .ok (.cst o) => { r with ok := r.ok ++ [⟨a.1, a.2, .cst o⟩] }
    | .ok (.glob va) =>
      match samePage r.bad va with
      | some f => { r with bad := r.bad ++ [(a.1, va, f)] }
      | none =>
      match coreTranslate r.s G.tile G.core p how.need G.priv va with
      | (s1, .ok e pa) =>
        if spaceOf pa = 3 && (how == .atomic || how == .waita) then { r with s := s1, trap := some { code := 0x07, addr := va } }
        else { r with s := s1, ok := r.ok ++ [⟨a.1, va, .pa pa e.stb⟩], req := r.req ++ [(e.ipa + (va - e.base), pa, e.mg)] }
      | (s1, .trap c) => { r with s := s1, trap := some { code := c, addr := va } }
      | (s1, .fault f) => { r with s := s1, bad := r.bad ++ [(a.1, va, f)] }
      | (s1, .busy i) => { r with s := s1, busy := some (p, i) }

/-- Checks 1 to 5 over the lanes in increasing order: the lowest failing lane's first failing check traps (12 R270). -/
def resolveAll (s : State) (G : Group) (how : How) (n : Nat) (accs : List (Nat × Nat)) : Prep :=
  match s.launchOf G with
  | none => { s, trap := some { code := 0x07 }, ok := [], bad := [], busy := none, req := [] }
  | some L => accs.foldl (resolveLane G L L.part how n) { s, trap := none, ok := [], bad := [], busy := none, req := [] }

/-! ### What may hold an access -/

/-- Every access of an instruction: the first that must be held holds the lanes. -/
def holdAll (s : State) (g : Nat) (G : Group) (write rmw : Bool) (ps : List LaneAcc) : State × Option Block :=
  ps.foldl (fun r a =>
    match r.2 with
    | some _ => r
    | none =>
      match a.place with
      | .pa pa false => claim r.1 (.lanes g) G.tile G.core pa write rmw
      | _ => r) (s, none)

/-- The line requests of an instruction that goes on, one for each 64-byte line, counted (15 R342). -/
def countReqs (s : State) (p : Nat) (req : List (Nat × Nat × Bool)) : State :=
  (req.foldl (fun (r : State × List Nat) q =>
    if r.2.contains (q.2.1 / lineBytes) then r else (countHost r.1 p q.1 q.2.1 q.2.2, q.2.1 / lineBytes :: r.2)) (s, [])).1

/-- ORD of an access that is an acquire: 1, 3, 4 and 5 (02 R55; 07 R165). -/
def isAcq (ord : Nat) : Bool := ord == 1 || ord == 3 || ord == 4 || ord == 5

/-- Lanes with an entry of their own in the side log that holds their access: one that touches a byte of it (07 R163), and a pending
reduction, which is an RMW, before a write, or before any access when it is an acquire (13 R290). Each access stands with the lanes it
belongs to. -/
def ownPending (s : State) (g : Nat) (G : Group) (write : Bool) (n : Nat) (accs : List (List Nat × Nat)) : List Nat :=
  (accs.flatMap (fun a => a.1.filter (fun i => (s.coreAt G.tile G.core).slog.any (fun e => e.g == g &&
    e.accs.any (fun q => q.lanes.contains i &&
      ((decide (q.va < a.2 + n) && decide (a.2 < q.va + q.n)) || (e.op.isSome && (write || isAcq e.ord)))))))).dedup

/-- Faults of a load or a returning atomic hold its lanes (07 R162). -/
def holdFault (r : Prep) (G : Group) (p : Nat) (kind : Nat) : Option (Block × State) :=
  match r.bad with
  | [] => none
  | (_, va, f) :: more =>
    some (.fault (faultKey G.tile p f) va false (more.map (fun b => (faultKey G.tile p b.2.2, b.2.1))),
      r.bad.foldl (fun s b => raiseFault s G.tile p G.core G.number kind b.2.1 b.2.2) (raiseFault r.s G.tile p G.core G.number kind va f))

/-- The path of an access up to the point at which it may be performed. -/
inductive Ready where
  | res (r : Res)
  | go (s : State) (ps : List LaneAcc) (bad : List (Nat × Nat × WFault))

/-- Checks, translation and holds of an instruction's accesses. A store's or reduction's faulting lanes are left to the side log
(`posted`); an access of the whole group belongs to each of its active lanes (13 R287). -/
def prepare (x : Ctx) (s : State) (how : How) (posted whole : Bool) (n : Nat) (accs : List (Nat × Nat)) : Ready :=
  let r := resolveAll s x.G how n accs
  let p := s.partNo x.G
  match r.trap with
  | some t => .res (.trap t)
  | none =>
    match r.busy with
    | some (p, i) => .res (.hold (.busy p i) r.s)
    | none =>
      let own := ownPending s x.g x.G how.need.w n (accs.map (fun a => (if whole then x.act else [a.1], a.2)))
      if !own.isEmpty then .res (.wait (.slgOwn own))
      else
        match (if posted then none else holdFault r x.G p how.need.kind) with
        | some (b, s1) => .res (.hold b s1)
        | none =>
          match (if how.need.isPacket then (r.s, none) else holdAll r.s x.g x.G how.need.w (how == .atomic) r.ok) with
          | (s1, some b) => .res (.hold b s1)
          | (s1, none) => .go (countReqs s1 p r.req) r.ok r.bad

/-! ### The register view (01 R30) -/

def rvByte (G : Group) (o : Nat) : Nat × Bool :=
  match G.lane? (o / 4 % G.w) with
  | some l => ((l.vreg (o / (4 * G.w))).toNat / 2 ^ (8 * (o % 4)) % 256, l.vpsn (o / (4 * G.w)))
  | none => (0, false)

def rvRead (G : Group) (o : Nat) : Nat → Nat × Bool
  | 0 => (0, false)
  | n + 1 =>
    let b := rvByte G o
    let r := rvRead G (o + 1) n
    (b.1 + 256 * r.1, b.2 || r.2)

/-- A byte of the window written; a whole word written anew takes the mark of its data, a part keeps an older mark. -/
def rvWriteByte (G : Group) (o : Nat) (b : Nat) (psn whole : Bool) : Group :=
  let n := o / (4 * G.w)
  G.updLane (o / 4 % G.w) (fun l =>
    let w := (l.vreg n).toNat
    let k := 2 ^ (8 * (o % 4))
    l.setV n (BitVec.ofNat 32 (w - w / k % 256 * k + b % 256 * k)) (psn || (!whole && l.vpsn n)))

def rvWrite (G : Group) (o : Nat) (v : Nat) (psn whole : Bool) : Nat → Group
  | 0 => G
  | n + 1 => rvWrite (rvWriteByte G o v psn whole) (o + 1) (v / 256) psn whole n

/-! ### Reads, writes and atomics of one place -/

/-- A byte of a stable page as the tile's copy has it; a line not yet held is filled from the home (14 R319). -/
def stableRead (s : State) (tile pa n : Nat) : State × Nat :=
  let line := lineOf pa
  match (s.tileAt tile).stable.look line with
  | some bs => (s, ofLeBytes ((bs.drop (pa % lineBytes)).take n))
  | none =>
    let s1 := drainLine (touchFrame s pa) line
    let bs := s1.readBytes (locOf s1 (line * lineBytes)) lineBytes
    (s1.updTile tile (fun t => { t with stable := t.stable.setAt line bs }), ofLeBytes ((bs.drop (pa % lineBytes)).take n))

/-- n bytes of a place, with the poison mark they bear (07 R179). -/
def readPlace (s : State) (g tile : Nat) (n : Nat) : Place → State × Nat × Bool
  | .rv o => (s, match s.groups.look g with | some G => rvRead G o n | none => (0, false))
  | .loc l => (s, s.readN l n, s.isPoisoned l)
  | .cst o =>
    (s, match s.groups.look g with
      | some G => (match s.launchOf G with
          | some L => (ofLeBytes ((List.range n).map (fun i => L.args.getD (o + i) 0)), false)
          | none => (0, false))
      | none => (0, false))
  | .pa a stb =>
    if stb && spaceOf a != 3 then
      let r := stableRead s tile a n
      (r.1, r.2, poisonedPa r.1 a)
    else
      let p := match s.groups.look g with | some G => s.partNo G | none => 64
      let r := readPa (countRx s p a n) a n
      (r.1, r.2, poisonedPa r.1 a)

/-- n bytes written to a place. -/
def writePlace (s : State) (g p : Nat) (n v : Nat) (psn : Bool) : Place → State
  | .rv o => s.updGroup g (fun G => rvWrite G o v psn (4 ≤ n) n)
  | .loc l => let s1 := s.writeN l n v; if psn then s1.setPoison (lineOf l) else s1
  | .cst _ => s
  | .pa a _ => let s1 := writePa s (some g) p a n v; if psn then poisonPa s1 a else s1

/-- An atomic at a place: the old value and whether the line is poisoned (07 R175, R180). -/
def atomicPlace (s : State) (g p : Nat) (t : Ty) (f : Nat → Nat) : Place → State × Nat × Bool
  | .loc l =>
    let n := tyW t / 8
    let old := s.readN l n
    if s.isPoisoned l then (s, old, true) else (s.writeN l n (f old), old, false)
  | .pa a _ => atomicPa s (some g) p a t f
  | _ => (s, 0, false)

/-- The tile that holds the unit which performs accesses to a word, and the key of the word in its waiter table (07 R178): the home's; the
mapping core's for a line that a MAPS entry holds (14 R322). One table, 2048 + w, stands for those of all the homes of wafer w, which are
other modules' tiles (DESIGN CHOICE, log 84). -/
def waiterAt (s : State) (p tile : Nat) : Place → Nat × Nat
  | .pa a _ =>
    if spaceOf a < 2 then
      (match s.dir.look (lineOf a) with
        | some d => (match d.st with | .m t _ _ => (t, a) | _ => ((homeTile s p a).getD tile, a))
        | none => ((homeTile s p a).getD tile, a))
    else (2048 + bitsN a 44 39, a)
  | .loc l => (tile, l)
  | .rv o => (tile, o)
  | .cst o => (tile, o)

/-- Lines that one store covered wholly with unmarked data (07 R180). -/
def clearStored (s : State) (n : Nat) (ws : List (Nat × Bool)) : State :=
  let lines := (ws.map (fun w => lineOf w.1)).dedup
  lines.foldl (fun s line =>
    let on := ws.filter (fun w => lineOf w.1 == line)
    let full := (List.range lineBytes).all (fun i => on.any (fun w => w.1 ≤ line * lineBytes + i && line * lineBytes + i < w.1 + n))
    if full && on.all (fun w => !w.2) then s.clearPoison line else s) s

def placeLoc (s : State) : Place → Option Nat
  | .loc l => some l
  | .pa a _ => some (locOf s a)
  | _ => none

/-! ### The side log (15 R337) -/

/-- The entries that faulting lanes need: one for each page, in lane order. An access of the whole group belongs to its active lanes. -/
def slogEntries (g : Nat) (priv : Bool) (whole : Option (List Nat)) (n tile p : Nat) (op : Option Nat) (ty : Ty) (ord sc : Nat)
    (bad : List (Nat × Nat × WFault)) (val : Nat → Nat) (psn : Nat → Bool) : List SlgEnt :=
  let pages := (bad.map (fun b => b.2.1 / granBytes)).dedup
  pages.map (fun pg =>
    let on := bad.filter (fun b => b.2.1 / granBytes == pg)
    let key := match on.head? with | some b => faultKey tile p b.2.2 | none => ⟨0, 0, 0, 0⟩
    { g, page := pg, accs := on.map (fun b => { lanes := whole.getD [b.1], va := b.2.1, n, val := BitVec.ofNat 64 (val b.1), psn := psn b.1 }),
      op, ty, ord, sc, priv, key })

/-- Faulting lanes of a store or reduction retire into the side log: none when it lacks room. -/
def retireSlog (s : State) (x : Ctx) (whole : Bool) (n kind : Nat) (op : Option Nat) (ty : Ty) (ord sc : Nat)
    (bad : List (Nat × Nat × WFault)) (val : Nat → Nat) (psn : Nat → Bool) : Option State :=
  let es := slogEntries x.g x.G.priv (if whole then some x.act else none) n x.G.tile (s.partNo x.G) op ty ord sc bad val psn
  if bad.isEmpty then some s
  else if 256 < (s.coreAt x.G.tile x.G.core).slog.length + es.length then none
  else
    let s1 := bad.foldl (fun s b => raiseFault s x.G.tile (s.partNo x.G) x.G.core x.G.number kind b.2.1 b.2.2) s
    some (s1.updCore x.G.tile x.G.core (fun c => { c with slog := c.slog ++ es }))

/-- Room for the side-log entries of faulting lanes. -/
def slogRoom (s : State) (x : Ctx) (bad : List (Nat × Nat × WFault)) : Bool :=
  decide ((s.coreAt x.G.tile x.G.core).slog.length + ((bad.map (fun b => b.2.1 / granBytes)).dedup).length ≤ 256)

end Sys2Proof.Machine
end

