-- ==== Sys2Proof/Machine/Region.lean ====
section
/-!
DEFINITION. Atomic regions: tracked loads and stores, ARB, ARE, ARX and ARST (spec 09 R205 to R225).
-/

namespace Sys2Proof.Machine

/-- Bytes of a width code (02 R60). -/
def wBytes : Nat → Nat
  | 0 | 4 => 1
  | 1 | 5 => 2
  | 2 | 6 => 4
  | _ => 8

/-- A loaded value extended by its width code to 64 bits (02 R60; 07 R168). -/
def extCode (w v : Nat) : Nat := if 4 ≤ w then sextN (8 * wBytes w) 64 v else v % 2 ^ (8 * wBytes w)

/-- Does the entry at (q, qw) overlap the bytes of (pa, w) without matching it (09 R213, R216)? -/
def clashes (pa w q qw : Nat) : Bool :=
  !(q == pa && qw == w) && decide (q < pa + wBytes w) && decide (pa < q + wBytes qw)

def overlapsAny (r : Region) (pa w : Nat) : Bool :=
  r.inputs.any (fun i => clashes pa w i.pa i.w) || r.stores.any (fun e => clashes pa w e.pa e.w)

/-- The address of a tracked access translated (09 R213, R216, R221): a result, or a physical address. -/
def regionAddr (x : Ctx) (s : State) (r : Region) (n : Need) (w ea : Nat) : State × Except Res (Nat × Bool) :=
  match s.launchOf x.G with
  | none => (s, .error .illegal)
  | some L =>
    if 0xFFFF80 ≤ ea / 2 ^ 40 ∧ ea / 2 ^ 40 ≤ 0xFFFF82 then (s, .error .illegal)
    else match addrCheck x.G L (if n.w then .store else .load) (wBytes w) ea with
    | .error c => (s, .error (.trap { code := c, addr := ea }))
    | .ok (.glob va) =>
      (match coreTranslate s x.G.tile x.G.core L.part n x.G.priv va with
        | (s1, .trap c) => (s1, .error (.trap { code := c, addr := va }))
        | (s1, .busy i) => (s1, .error (.hold (.busy L.part i) s1))
        | (s1, .fault f) =>
          let s2 := raiseFault s1 x.G.tile L.part x.G.core x.G.number n.kind va f
          let b := Block.fault (faultKey x.G.tile L.part f) va false []
          if r.ser then (s2, .error (.hold b s2))
          else
            let s3 := abortRegion s2 x.g 5 0 (if f.stage = 1 then 0x08 else 0x09)
            (s3, .error (.gone (s3.updGroup x.g (fun G => G.updLanes r.lanes (fun _ l => { l with block := b })))))
        | (s1, .ok e pa) =>
          if 2 ≤ spaceOf pa || mapped s1 pa then (s1, .error .illegal) else (s1, .ok (pa, e.stb)))
    | .ok _ => (s, .error .illegal)

/-- A tracked load's result written (09 R213). -/
def regionPut (x : Ctx) (s : State) (d : Dst) (v : Nat) (psn : Bool) (t : Option Tag) : Res :=
  .done (s.updGroup x.g (fun G => putDst x G d false (fun _ => v) (fun _ => psn) t)) []

/-- SLD in a region (09 R213); base and index pin (09 R214). A load from memory first waits for the region lanes' own entries in the side
log (07 R163). -/
def regionLoad (x : Ctx) (s : State) (r : Region) (d : Dst) (w ea : Nat) (addrSrcs : List Src) : Res :=
  match regionAddr x s r .rd w ea with
  | (_, .error e) => e
  | (s1, .ok (pa, stb)) =>
    let s2 := s1.updGroup x.g (fun G => pinAll G addrSrcs)
    match r.stores.find? (fun e => e.pa == pa && e.w == w) with
    | some e =>
      (match e.tag with
        | some t =>
          let v := (r.inputs[t.k]?.map RInput.x).getD 0 + t.c
          if w = 3 then regionPut x s2 d v.toNat e.psn (some t)
          else regionPut x (s2.updGroup x.g (fun G => G.pin t.k)) d (extCode w v.toNat) e.psn none
        | none => regionPut x s2 d (extCode w e.val.toNat) e.psn none)
    | none =>
      match r.inputs.findIdx? (fun i => i.pa == pa && i.w == w) with
      | some k =>
        (match r.inputs[k]? with
          | some i => regionPut x s2 d i.x.toNat i.psn (some ⟨k, 0⟩)
          | none => .abort 4 0 0)
      | none =>
        let own := ownPending s1 x.g x.G false (wBytes w) [(r.lanes, ea)]
        if overlapsAny r pa w then .abort 4 0 0
        else if !own.isEmpty then .wait (.slgOwn own)
        else
          match (if stb then (s2, none) else claim s2 (.lanes x.g) x.G.tile x.G.core pa false false) with
          | (s3, some b) => .hold b s3
          | (s3, none) =>
            let q := readPlace s3 x.g x.G.tile (wBytes w) (.pa pa stb)
            let v := extCode w q.2.1
            if stb then regionPut x q.1 d v q.2.2 none
            else if 8 ≤ r.inputs.length then .abort 1 1 0
            else
              let k := r.inputs.length
              let s4 := q.1.updGroup x.g (fun G => { G with region := G.region.map (fun r => { r with
                inputs := r.inputs ++ [{ pa, w, x := BitVec.ofNat 64 v, psn := q.2.2, pinned := false, conflicted := false }] }) })
              regionPut x s4 d v q.2.2 (some ⟨k, 0⟩)

/-- SST in a region (09 R216). A new entry that overlaps another and finds 16 held is tested for the overlap first (DESIGN CHOICE, log 81). -/
def regionStore (x : Ctx) (s : State) (r : Region) (n : Nat) (w ea : Nat) (addrSrcs : List Src) : Res :=
  match regionAddr x s r .wr w ea with
  | (_, .error e) => e
  | (s1, .ok (pa, _)) =>
    if overlapsAny r pa w then .abort 4 0 0
    else if !(r.stores.any (fun e => e.pa == pa && e.w == w)) && decide (16 ≤ r.stores.length) then .abort 1 2 0
    else
      let data : Src := .sreg (BitVec.ofNat 6 n)
      let plain := addrSrcs.all (fun a => (srcTag x.G a).isNone)
      let tag := if plain then srcTag x.G data else none
      let e : RStore := { pa, w, val := x.G.sreg n, psn := x.G.spsn n, tag }
      .done (s1.updGroup x.g (fun G =>
        let G1 := if plain then G else pinAll G (data :: addrSrcs)
        { G1 with region := G1.region.map (fun r => { r with
            stores := r.stores.filter (fun q => !(q.pa == pa && q.w == w)) ++ [e] }) })) []

/-! ### ARB, ARE, ARX, ARST -/

/-- Fallback address of an ARB at pc (09 R205). -/
def arbFallback (pc : BitVec 64) (imm : BitVec 32) : BitVec 64 := pc + BitVec.ofNat 64 (sextN 32 64 (imm.toNat / 4 * 4))

/-- ARB (09 R207, R208). -/
def execArb (c : Ctl) (o : OpE) (s : State) : Host.Outcome State Fault Refusal :=
  issueWord c { chnOk := false } s (fun x s =>
    let grow := x.G.lanes.any (fun l => match l.block with | .grow _ => true | _ => false)
    if x.iss.length != x.act.length || grow then .trap { code := 0x12 }
    else
      let ser := o.imm.toNat.testBit 0
      let r : Region := {
        fb := arbFallback x.u.pc o.imm, ser, lanes := x.act, snapS := x.G.s, snapSPsn := x.G.sPsn,
        snapP := x.act.map (fun i => (i, match x.G.lane? i with | some l => l.p | none => 0)),
        cnt := arCnt x.G.arstat, tags := [], ltags := [none, none, none, none], inputs := [], stores := [], cons := [],
        start := s.clock, commit := false }
      let a := x.G.arstat.toNat
      let st := arstatOf (arCnt x.G.arstat) 1 (bitsN a 35 32) (bitsN a 23 16) ser true (bitsN a 3 0)
      let G1 := { x.G with region := some r, arstat := st }
      let free := match s.partOf x.G with | some p => p.token.isNone && p.tokenQ.isEmpty | none => true
      let s1 := s.setGroup x.g (if ser && !free then G1.updLanes x.act (fun _ l => { l with block := .token }) else G1)
      let s2 := if !ser then s1 else s1.updPart (s.partNo x.G) (fun p =>
        if free then { p with token := some x.g } else { p with tokenQ := p.tokenQ ++ [x.g] })
      .done s2 [])

/-- The fresh value of input k at the commit (09 R218 step 3): none when the re-read finds the line poisoned. -/
def freshInput (s : State) (i : RInput) : State × Option DWord :=
  if i.conflicted then
    let r := readPa s i.pa (wBytes i.w)
    if poisonedPa r.1 i.pa then (r.1, none) else (r.1, some (BitVec.ofNat 64 (extCode i.w r.2)))
  else (s, some i.x)

/-- The fresh values of every input. -/
def freshAll (s : State) : List RInput → State × Option (List DWord)
  | [] => (s, some [])
  | i :: is =>
    match freshInput s i with
    | (s1, none) => (s1, none)
    | (s1, some v) =>
      match freshAll s1 is with
      | (s2, some vs) => (s2, some (v :: vs))
      | (s2, none) => (s2, none)

/-- Step 4: the first pinned input whose value has changed. -/
def pinnedConflict (ins : List RInput) (xs : List DWord) : Option Nat :=
  (List.range ins.length).find? (fun k => match ins[k]?, xs[k]? with
    | some i, some x => i.pinned && x != i.x
    | _, _ => false)

/-- Does a constraint still give the recorded outcome (09 R218 step 5)? -/
def consHolds (xs : List DWord) (q : RCons) : Bool :=
  let v := (xs.getD q.k 0) + q.c
  iRel q.rel (valOf q.ty.signed (tyW q.ty) v.toNat) q.rhs == q.out

/-- Was input k re-read at the commit? Its old mark then no longer counts. -/
def reRead (r : Region) (k : Nat) : Bool := match r.inputs[k]? with | some i => i.conflicted | none => false

/-- A store entry written (09 R218 step 6). -/
def commitStore (x : Ctx) (p : Nat) (r : Region) (xs : List DWord) (s : State) (e : RStore) : State :=
  let v := match e.tag with | some t => xs.getD t.k 0 + t.c | none => e.val
  let s1 := writePa s (some x.g) p e.pa (wBytes e.w) v.toNat
  if e.psn && !(match e.tag with | some t => reRead r t.k | none => false) then poisonPa s1 e.pa else s1

/-- A tagged register recomputed (09 R218 step 7). -/
def commitReg (r : Region) (xs : List DWord) (G : Group) (e : Nat × Tag) : Group :=
  G.setS e.1 (xs.getD e.2.k 0 + e.2.c) (G.spsn e.1 && !reRead r e.2.k)

/-- The accesses of a commit claimed, stores after inputs, until one must wait (09 R218 step 2): a line that a serialised region holds, a
flush or a pending invalidation. -/
def commitClaims (x : Ctx) (r : Region) (s : State) : State × Option Block :=
  (r.inputs.map (fun i => (i.pa, false)) ++ r.stores.map (fun e => (e.pa, true))).foldl (fun q a =>
    match q.2 with
    | some _ => q
    | none => claim q.1 (.lanes x.g) x.G.tile x.G.core a.1 a.2 false) (s, none)

/-- Steps 3 to 8 of a commit whose lines are locked and drained (09 R218). -/
def commitLocked (x : Ctx) (s : State) (r : Region) : Res :=
  match freshAll s r.inputs with
  | (_, none) => .abort 5 0 0x0B
  | (s1, some xs) =>
    match pinnedConflict r.inputs xs with
    | some k => .abort 2 k 0
    | none =>
      match r.cons.findIdx? (fun q => !consHolds xs q) with
      | some j => .abort 3 j 0
      | none =>
        let s2 := r.stores.foldl (commitStore x (s.partNo x.G) r xs) s1
        let s3 := s2.updGroup x.g (fun G =>
          let G1 := r.tags.foldl (commitReg r xs) G
          Group.endWaits { G1 with region := none, arstat := arstatOf 0 (arIcnt G.arstat) 0 0 (arSer G.arstat) false 0 })
        .done (dropToken s3 x.g x.G) []

/-- The commit of a region (09 R218 steps 2 to 8). Where a line cannot be locked at once, every lock is released and step 2 restarts when
the line is free (09 R223). A write-queue entry that a home drains marks the inputs on its line. -/
def commitRegion (x : Ctx) (s : State) (r : Region) : Res :=
  match commitClaims x r s with
  | (s1, some b) => .pause b (s1.updGroup x.g (fun G => { G with region := G.region.map (fun r => { r with commit := true }) }))
  | (s1, none) =>
    let s2 := (r.inputs.map (fun i => lineOf i.pa) ++ r.stores.map (fun e => lineOf e.pa)).foldl drainLine s1
    match (s2.groups.look x.g).bind Group.region with
    | some r => commitLocked x s2 r
    | none => .gone s2

/-- ARE (09 R218): a release, so it first waits for the side log. -/
def execAre (c : Ctl) (_ : OpE) (s : State) : Host.Outcome State Fault Refusal :=
  issueWord c { chnOk := false, allow := .yes } s (fun x s =>
    match x.G.region with
    | none => .trap { code := 0x12 }
    | some r =>
      match relStop s x r.lanes false with
      | some e => e
      | none => commitRegion x s r)

/-- ARX (09 R220). -/
def execArx (c : Ctl) (o : OpE) (s : State) : Host.Outcome State Fault Refusal :=
  issueWord c { chnOk := false, allow := .yes } s (fun x _ =>
    match x.G.region with
    | none => .trap { code := 0x12 }
    | some _ => .abort 7 0 (o.imm.toNat % 256))

/-- ARST (09 R210). -/
def execArst (c : Ctl) (o : OpE) (s : State) : Host.Outcome State Fault Refusal :=
  issueWord c { (({} : Meta).write o.dst false) with allow := .yes } s (fun x s =>
    let G1 := putPlain x x.G o.dst false (fun _ => x.G.arstat.toNat)
    let a := G1.arstat.toNat
    .done (s.setGroup x.g (if o.imm.toNat.testBit 0 then
      { G1 with arstat := BitVec.ofNat 64 (a - bitsN a 55 48 * 2 ^ 48) } else G1)) [])

end Sys2Proof.Machine
end

