-- ==== Sys2Proof/Machine/MemOps.lean ====
section
/-!
DEFINITION. Loads, stores, atomics, reductions, fences, WAITA, MAPS, PRF, RGN and MCNT (spec 07 R158 to R182; 06 R155).
-/

namespace Sys2Proof.Machine

/-! ### Addresses (07 R161) -/

/-- The base of an absolute form: a pair, a scalar register or a latch. -/
def baseAbs (G : Group) (i : Nat) (o : Src) : Nat := srcLane G i .n64 64 o
/-- The base of an offset form: a vector register gives 32 bits. -/
def baseOff (G : Group) (i : Nat) (o : Src) : Nat := match o with | .vreg _ => srcLane G i .n32 32 o | _ => srcLane G i .n64 64 o
/-- The index: a vector register is sign-extended (07 R160). -/
def idxOf (G : Group) (i : Nat) (o : OpM) : Nat :=
  if o.noIdx then 0
  else match o.idx with
    | .vreg _ => sextN 32 64 (srcLane G i .n32 32 o.idx)
    | _ => srcLane G i .n64 64 o.idx

/-- Which window an offset form reaches. -/
inductive Win where
  | abs | scratch | tile | const
  deriving DecidableEq, Repr

/-- The address of a lane, or of the lane that stands for the group. -/
def eaOf (G : Group) (i : Nat) (w : Win) (o : OpM) : Nat :=
  let off := fun (b : Nat) => effAddr b (idxOf G i o) o.scl.toNat o.off.toNat % 2 ^ 32
  match w with
  | .abs => effAddr (baseAbs G i o.base) (idxOf G i o) o.scl.toNat o.off.toNat
  | .scratch => 0xFFFF800000010000 + off (baseOff G i o.base)
  | .tile => 0xFFFF810000000000 + off (baseOff G i o.base)
  | .const => 0xFFFF820000000000 + off (baseOff G i o.base)

/-- The address registers noted for the checks: an absolute form's vector base is a pair. -/
def Meta.addr (m : Meta) (perLane : Bool) (w : Win) (o : OpM) : Meta :=
  let m1 := m.read perLane o.base (w == .abs)
  if o.noIdx then m1 else m1.read perLane o.idx false

/-! ### Loads -/

/-- The value that a vector destination takes from a loaded value (02 R60). -/
def extVec (w v : Nat) : Nat := if w = 4 ∨ w = 5 then sextN (8 * wBytes w) 32 v else v

/-- Reads of several lanes in order. -/
def readLanes (g tile n : Nat) (f : Nat → Nat) : State → List LaneAcc → State × FMap (Nat × Bool)
  | s, [] => (s, [])
  | s, a :: as =>
    let r := readPlace s g tile n a.place
    let q := readLanes g tile n f r.1 as
    (q.1, (a.lane, (f r.2.1, r.2.2)) :: q.2)

/-- A load by active lanes, or by the lowest-numbered active lane for the group. -/
def loadBody (d : Dst) (w : Nat) (ea : Group → Nat → Nat) (x : Ctx) (s : State) : Res :=
  let lanes := if d.isSca then [x.low] else x.act
  match prepare x s .load false d.isSca (wBytes w) (lanes.map (fun i => (i, ea x.G i))) with
  | .res r => r
  | .go s1 ps _ =>
    let r := readLanes x.g x.G.tile (wBytes w) (if d.isSca then extCode w else extVec w) s1 ps
    .done (r.1.updGroup x.g (fun G => putDst x G d (w = 3 && d.isVec)
      (fun i => (r.2.lookD (0, false) i).1) (fun i => (r.2.lookD (0, false) i).2) none)) []

/-- A plain load form. -/
def loadOp (c : Ctl) (w : BitVec 3) (o : OpM) (win : Win) (s : State) : Host.Outcome State Fault Refusal :=
  let m := (({} : Meta).addr (!o.dst.isSca) win o).write o.dst (w == 3 && o.dst.isVec)
  issueWord c m s (loadBody o.dst w.toNat (fun G i => eaOf G i win o))

/-- LD (07 R159). -/
def execLd (c : Ctl) (w : BitVec 3) (o : OpM) (s : State) : Host.Outcome State Fault Refusal := loadOp c w o .abs s
/-- LDS (07 R159). -/
def execLds (c : Ctl) (w : BitVec 3) (o : OpM) (s : State) : Host.Outcome State Fault Refusal := loadOp c w o .scratch s
/-- LDT (07 R159). -/
def execLdt (c : Ctl) (w : BitVec 3) (o : OpM) (s : State) : Host.Outcome State Fault Refusal := loadOp c w o .tile s
/-- LDC (07 R170). -/
def execLdc (c : Ctl) (w : BitVec 3) (o : OpM) (s : State) : Host.Outcome State Fault Refusal := loadOp c w o .const s

/-- SLD (07 R168): in a region, the tracked load, which admits ORD 0 only (09 R211). -/
def execSld (c : Ctl) (w : BitVec 3) (o : OpM) (s : State) : Host.Outcome State Fault Refusal :=
  let m := { ((({} : Meta).addr false .abs o).write o.dst false) with allow := if o.ord = 0 then .yes else .no }
  issueWord c m s (fun x s =>
    match x.G.region with
    | some r => regionLoad x s r o.dst w.toNat (eaOf x.G x.low .abs o) (mSrcs o)
    | none => loadBody o.dst w.toNat (fun G i => eaOf G i .abs o) x s)

/-- MCNT (06 R155): the byte load of a lane's count. -/
def execMcnt (c : Ctl) (o : OpA) (s : State) : Host.Outcome State Fault Refusal :=
  issueWord c (((({} : Meta).read false o.a false).read true o.b false).write o.dst false) s (fun x s =>
    loadBody o.dst 0 (fun G i => (srcScalar x .n64 64 o.a + srcLane G i .n32 32 o.b * (intWidth o.ty / 8) / 2 ^ 8) % 2 ^ 64) x s)

/-! ### Stores -/

/-- The datum of a lane and its poison mark (07 R159, R180). -/
def storeData (G : Group) (d : Dst) (n i : Nat) : Nat × Bool :=
  match d with
  | .vec _ r =>
    let q := otherLane G (n == 8) (.vreg r) i
    (q.1 % 2 ^ (8 * n), q.2)
  | .sca _ r => ((G.sreg r.toNat).toNat % 2 ^ (8 * n), G.spsn r.toNat)
  | _ => (0, false)

/-- The data register noted: poison on it raises no trap. -/
def Meta.data (m : Meta) (d : Dst) (wide : Bool) : Meta :=
  match d with
  | .vec _ n => m.named (.vreg n) wide
  | _ => m

/-- A lane's write at a fabric address owes an acknowledgement (19 R402). -/
def oweAt (s : State) (g : Nat) (a : LaneAcc) : State :=
  match a.place with | .pa pa _ => oweLane s g a.lane pa a.ea | _ => s

/-- Writes of several lanes in increasing order, so the highest-numbered lane's byte stands (07 R164). -/
def writeLanes (g p n : Nat) (val : Nat → Nat × Bool) (s : State) (ps : List LaneAcc) : State :=
  ps.foldl (fun s a => oweAt (writePlace s g p n (val a.lane).1 (val a.lane).2 a.place) g a) s

/-- A release form's waits: no other form waits for earlier accesses (07 R163; 19 R402). -/
def ordStop (s : State) (x : Ctx) (rel : Bool) (sc : Nat) : Option Res := if rel then relStop s x x.act (decide (4 ≤ sc)) else none

/-- A store: `clears` for the forms of a lane each, whose lanes together may clear a line's poison; the others store for the whole
group. -/
def storeBody (d : Dst) (w ord sc : Nat) (clears : Bool) (lanes : Ctx → List Nat) (ea : Group → Nat → Nat)
    (x : Ctx) (s : State) : Res :=
  let n := wBytes w
  let val := storeData x.G d n
  match ordStop s x (ord == 2) sc with
  | some r => r
  | none =>
    match prepare x s .store true (!clears) n ((lanes x).map (fun i => (i, ea x.G i))) with
    | .res r => r
    | .go s1 ps bad =>
      let p := s.partNo x.G
      match retireSlog s1 x (!clears) n 1 none .n64 ord sc bad (fun i => (val i).1) (fun i => (val i).2) with
      | none =>
        (match holdFault { s := s1, trap := none, ok := [], bad, busy := none, req := [] } x.G p 1 with
          | some (b, s2) => .hold b s2
          | none => .done s1 [])
      | some s2 =>
        let s3 := writeLanes x.g p n val s2 ps
        let s4 := if clears then clearStored s3 n (ps.filterMap (fun a => (placeLoc s3 a.place).map (fun l => (l, (val a.lane).2))))
                  else s3
        .done s4 []

/-- A plain store form. -/
def storeOp (c : Ctl) (w : BitVec 3) (o : OpM) (win : Win) (s : State) : Host.Outcome State Fault Refusal :=
  let m := { ((({} : Meta).addr true win o).data o.dst (w == 3)) with chnOk := false }
  issueWord c m s (storeBody o.dst w.toNat o.ord.toNat o.sc.toNat true (fun x => x.act) (fun G i => eaOf G i win o))

/-- ST (07 R159). -/
def execSt (c : Ctl) (w : BitVec 3) (o : OpM) (s : State) : Host.Outcome State Fault Refusal := storeOp c w o .abs s
/-- STS (07 R159). -/
def execSts (c : Ctl) (w : BitVec 3) (o : OpM) (s : State) : Host.Outcome State Fault Refusal := storeOp c w o .scratch s
/-- STT (07 R159). -/
def execStt (c : Ctl) (w : BitVec 3) (o : OpM) (s : State) : Host.Outcome State Fault Refusal := storeOp c w o .tile s

/-- SST (07 R168): in a region, the tracked store. -/
def execSst (c : Ctl) (w : BitVec 3) (o : OpM) (s : State) : Host.Outcome State Fault Refusal :=
  let m := { (({} : Meta).addr false .abs o) with chnOk := false, allow := if o.ord = 0 then .yes else .no }
  issueWord c m s (fun x s =>
    match x.G.region, o.dst with
    | some r, .sca _ n => regionStore x s r n.toNat w.toNat (eaOf x.G x.low .abs o) (mSrcs o)
    | _, _ => storeBody o.dst w.toNat o.ord.toNat o.sc.toNat false (fun x => [x.low]) (fun G i => eaOf G i .abs o) x s)

/-! ### Neighbour stores (07 R169) -/

/-- The neighbour of a tile in a direction: none beyond the logical grid. -/
def neighbour (tile d : Nat) : Option Nat :=
  let x := tile % 30
  let y := tile / 30
  match d with
  | 0 => if y = 0 then none else some (tile - 30)
  | 1 => if x = 29 then none else some (tile + 1)
  | 2 => if y = 31 then none else some (tile + 30)
  | _ => if x = 0 then none else some (tile - 1)

/-- A packet that a router drops is noted in the source tile's drop window, and counted by the partition that refused it
(18 R383, R386); `who`: the launch whose STN it was. -/
def noteDrop (s : State) (src dst tag cls addr : Nat) (who : List Nat) : State :=
  let s1 := s.updTile src (fun t => { t with drop := some (match t.drop with
    | some w => { w with cnt := min 0xFFFF (w.cnt + 1), launches := w.launches ++ who }
    | none => { time := s.clock, dst, tag, cls, cnt := 1, addr, launches := who }) })
  if dst < 960 then s1.updPart (partOfTile s dst) (fun p => { p with rxdrop := (p.rxdrop + 1) % 2 ^ 32 }) else s1

/-- The drop record of a tile's window posted: to Damson's log and to the sending partition's (18 R383). -/
def postDrop (s : State) (tile : Nat) : State :=
  match (s.tileAt tile).drop with
  | none => s
  | some w =>
    let body := leBytes 2 tile ++ leBytes 2 w.dst ++ leBytes 1 w.tag ++ leBytes 1 w.cls ++ leBytes 2 w.cnt ++ leBytes 8 w.addr
    let s1 := s.updTile tile (fun t => { t with drop := none })
    atTime w.time (fun s => (s.postEvent (partOfTile s tile) 1 body).postDevice 1 body) s1

/-- The address that a lane's STN at an offset reaches: none where the neighbour is of another partition, or the launch has no such unit
there. Of several units of the level with the sender's index on that tile, the first in launch order receives (DESIGN CHOICE, log 27). -/
def stnPa (x : Ctx) (L : Launch) (P : Option Part) (nb : Nat) (a : Nat × Nat) : Option Nat :=
  if !(P.any (fun p => p.tiles.contains nb)) then none
  else
    match L.rc.lowest 3 with
    | none => none
    | some i =>
      let own := L.rc.idx i (x.G.lin + a.1)
      (L.tm.find? (fun q => q.tile == nb && L.rc.idx i (q.unit * L.rc.lanesOf i) == own)).map (fun q => tmPa nb (q.base + a.2))

/-- One lane's STN performed. -/
def stnLane (x : Ctx) (L : Launch) (n nb : Nat) (val : Nat → Nat × Bool) (s : State) (a : Nat × Nat) : State :=
  let P := s.partOf x.G
  if !(P.any (fun p => p.tiles.contains nb)) then
    noteDrop s x.G.tile nb (match P with | some p => p.tag | none => 0) 3
      (2 ^ 45 + nb * 2 ^ 24 + a.2 % 2 ^ 24 / 64 * 64) [x.G.launch]
  else
    match stnPa x L P nb a with
    | some pa =>
      let s2 := writePa s (some x.g) L.part pa n (val a.1).1
      if (val a.1).2 then poisonPa s2 pa else s2
    | none =>
      if (L.rc.lowest 3).isNone then s else s.updPart L.part (fun p => { p with stndrop := (p.stndrop + 1) % 2 ^ 32 })

/-- STN (07 R169). A trap reports the offset as an address in the sender's own tile window (DESIGN CHOICE, log 27). -/
def execStn (c : Ctl) (d : BitVec 2) (e : BitVec 1) (o : OpM) (s : State) : Host.Outcome State Fault Refusal :=
  let n := if e = 0 then 4 else 8
  let m := { ((({} : Meta).addr true .tile o).data o.dst (n == 8)) with chnOk := false }
  issueWord c m s (fun x s =>
    let val := storeData x.G o.dst n
    let off := fun i => eaOf x.G i .tile o % 2 ^ 32
    match s.launchOf x.G, neighbour x.G.tile d.toNat with
    | some L, some nb =>
      let bad := x.act.find? (fun i => off i % n != 0 || decide (L.rc.tmb < off i + n))
      (match bad with
        | some i => .trap { code := if off i % n != 0 then 0x06 else 0x05, addr := eaOf x.G i .tile o }
        | none =>
          match ordStop s x (o.ord == 2) o.sc.toNat with
          | some r => r
          | none =>
            let own := ownPending s x.g x.G true n (x.act.map (fun i => ([i], eaOf x.G i .tile o)))
            if !own.isEmpty then .wait (.slgOwn own)
            else
            match holdAll s x.g x.G true false (x.act.filterMap (fun i =>
              (stnPa x L (s.partOf x.G) nb (i, off i)).map (fun pa => ⟨i, eaOf x.G i .tile o, .pa pa false⟩))) with
            | (s1, some b) => .hold b s1
            | (s1, none) => .done (x.act.foldl (fun s i => stnLane x L n nb val s (i, off i)) s1) [])
    | _, _ => .trap { code := 0x07, addr := eaOf x.G x.low .tile o })

/-! ### Atomics and reductions (07 R174 to R177) -/

/-- base + sext(off12) (07 R174). -/
def eaT (G : Group) (i : Nat) (o : OpT) : Nat := (srcLane G i .n64 64 o.base + sextN 12 64 o.off.toNat) % 2 ^ 64

/-- What a lane's atomic does to the word: op 8 is ACAS, 9 AADDT. -/
def atomFun (op : Nat) (t : Ty) (b e old : Nat) : Nat :=
  match op with
  | 8 => if old = b then e else old
  | 9 => iAdd (tyW t) old b
  | _ => atomOp op t old b

/-- The waiters on the word at a place released (07 R177): those that registered under another of its addresses too. -/
def wakeAt (s : State) (p tile : Nat) (pl : Place) : State :=
  let wt := waiterAt s p tile pl
  wakeWaiters s wt.1 (fun k => locOf s k == locOf s wt.2)

/-- Lanes applied in increasing order (07 R176); an AADDT that crosses its threshold wakes the waiters (07 R177). -/
def atomLanes (g p tile op : Nat) (t : Ty) (b e : Nat → Nat) : State → List LaneAcc → State × FMap (Nat × Bool)
  | s, [] => (s, [])
  | s, a :: as =>
    let r := atomicPlace s g p t (atomFun op t (b a.lane) (e a.lane)) a.place
    let new := atomFun op t (b a.lane) (e a.lane) r.2.1
    let thr := valOf t.signed (tyW t) (e a.lane)
    let crosses := op = 9 && !r.2.2 && decide (valOf t.signed (tyW t) r.2.1 < thr) && decide (thr ≤ valOf t.signed (tyW t) new)
    let s1 := if crosses then wakeAt r.1 p tile a.place else r.1
    let q := atomLanes g p tile op t b e s1 as
    (q.1, (a.lane, (r.2.1, r.2.2)) :: q.2)

/-- ORD of an atomic that is a release (13). -/
def isRel (ord : Nat) : Bool := ord == 2 || ord == 3 || ord == 5

/-- Sources of a layout T form. -/
def Meta.tSrcs (m : Meta) (o : OpT) (third : Bool) : Meta :=
  let m1 := (m.read true o.base true).read true o.b o.ty.is64
  if third then m1.read true o.c o.ty.is64 else m1

/-- A returning atomic. -/
def atomicOp (c : Ctl) (o : OpT) (op : Nat) (s : State) : Host.Outcome State Fault Refusal :=
  let third := op == 8 || op == 9
  let m := { ((({} : Meta).tSrcs o third).write o.dst o.ty.is64) with chnOk := false }
  issueWord c m s (fun x s =>
    let n := tyW o.ty / 8
    match ordStop s x (isRel o.ord.toNat) o.sc.toNat with
    | some r => r
    | none =>
      match prepare x s .atomic false false n (x.act.map (fun i => (i, eaT x.G i o))) with
      | .res r => r
      | .go s1 ps _ =>
        let r := atomLanes x.g (s.partNo x.G) x.G.tile op o.ty (fun i => srcLane x.G i o.ty (tyW o.ty) o.b)
          (fun i => srcLane x.G i o.ty (tyW o.ty) o.c) s1 ps
        .done (r.1.updGroup x.g (fun G => putDst x G o.dst o.ty.is64
          (fun i => (r.2.lookD (0, false) i).1) (fun i => (r.2.lookD (0, false) i).2) none)) [])

/-- ATM.add (07 R175). -/
def execAtmAdd (c : Ctl) (o : OpT) (s : State) : Host.Outcome State Fault Refusal := atomicOp c o 0 s
/-- ATM.fadd (07 R175). -/
def execAtmFadd (c : Ctl) (o : OpT) (s : State) : Host.Outcome State Fault Refusal := atomicOp c o 1 s
/-- ATM.min (07 R175). -/
def execAtmMin (c : Ctl) (o : OpT) (s : State) : Host.Outcome State Fault Refusal := atomicOp c o 2 s
/-- ATM.max (07 R175). -/
def execAtmMax (c : Ctl) (o : OpT) (s : State) : Host.Outcome State Fault Refusal := atomicOp c o 3 s
/-- ATM.and (07 R175). -/
def execAtmAnd (c : Ctl) (o : OpT) (s : State) : Host.Outcome State Fault Refusal := atomicOp c o 4 s
/-- ATM.or (07 R175). -/
def execAtmOr (c : Ctl) (o : OpT) (s : State) : Host.Outcome State Fault Refusal := atomicOp c o 5 s
/-- ATM.xor (07 R175). -/
def execAtmXor (c : Ctl) (o : OpT) (s : State) : Host.Outcome State Fault Refusal := atomicOp c o 6 s
/-- ATM.xch (07 R175). -/
def execAtmXch (c : Ctl) (o : OpT) (s : State) : Host.Outcome State Fault Refusal := atomicOp c o 7 s
/-- ACAS (07 R175). -/
def execAcas (c : Ctl) (o : OpT) (s : State) : Host.Outcome State Fault Refusal := atomicOp c o 8 s
/-- AADDT (07 R175, R177). -/
def execAaddt (c : Ctl) (o : OpT) (s : State) : Host.Outcome State Fault Refusal := atomicOp c o 9 s

/-- One reduction: merged in the home's write queue, applied at once in scratch, in a mapped line or at a remote home
(07 R175; 14 R322; 19 R402). -/
def redPlace (s : State) (g p op : Nat) (t : Ty) (v : Nat) (pl : Place) : State :=
  match pl with
  | .pa a _ =>
    if 2 ≤ spaceOf a || mapped s a then (atomicPlace s g p t (fun old => atomOp op t old v) pl).1
    else match homeTile s p a with
      | some h => mergeRed s h a op t v
      | none => s
  | _ => (atomicPlace s g p t (fun old => atomOp op t old v) pl).1

/-- One lane's reduction; at a fabric address one that is performed owes an acknowledgement (19 R402). -/
def redLane (g p op : Nat) (t : Ty) (b : Nat → Nat) (s : State) (a : LaneAcc) : State :=
  let s1 := redPlace s g p op t (b a.lane) a.place
  match a.place with
  | .pa pa _ => if poisonedPa s pa then s1 else oweAt s1 g a
  | _ => s1

/-- A non-returning reduction (07 R175). -/
def redOp (c : Ctl) (o : OpT) (op : Nat) (s : State) : Host.Outcome State Fault Refusal :=
  let m := { (({} : Meta).tSrcs o false) with chnOk := false }
  issueWord c m s (fun x s =>
    let n := tyW o.ty / 8
    let b := fun i => srcLane x.G i o.ty (tyW o.ty) o.b
    match ordStop s x (isRel o.ord.toNat) o.sc.toNat with
    | some r => r
    | none =>
      match prepare x s .atomic true false n (x.act.map (fun i => (i, eaT x.G i o))) with
      | .res r => r
      | .go s1 ps bad =>
        let p := s.partNo x.G
        match retireSlog s1 x false n 2 (some op) o.ty o.ord.toNat o.sc.toNat bad b (fun _ => false) with
        | none =>
          (match holdFault { s := s1, trap := none, ok := [], bad, busy := none, req := [] } x.G p 2 with
            | some (k, s2) => .hold k s2
            | none => .done s1 [])
        | some s2 => .done (ps.foldl (redLane x.g p op o.ty b) s2) [])

/-- RED.add (07 R175). -/
def execRedAdd (c : Ctl) (o : OpT) (s : State) : Host.Outcome State Fault Refusal := redOp c o 0 s
/-- RED.fadd (03 R95). -/
def execRedFadd (c : Ctl) (o : OpT) (s : State) : Host.Outcome State Fault Refusal := redOp c o 1 s
/-- RED.min (07 R175). -/
def execRedMin (c : Ctl) (o : OpT) (s : State) : Host.Outcome State Fault Refusal := redOp c o 2 s
/-- RED.max (07 R175). -/
def execRedMax (c : Ctl) (o : OpT) (s : State) : Host.Outcome State Fault Refusal := redOp c o 3 s
/-- RED.and (07 R175). -/
def execRedAnd (c : Ctl) (o : OpT) (s : State) : Host.Outcome State Fault Refusal := redOp c o 4 s
/-- RED.or (07 R175). -/
def execRedOr (c : Ctl) (o : OpT) (s : State) : Host.Outcome State Fault Refusal := redOp c o 5 s
/-- RED.xor (07 R175). -/
def execRedXor (c : Ctl) (o : OpT) (s : State) : Host.Outcome State Fault Refusal := redOp c o 6 s

/-! ### Fences and WAITA (07 R167, R178) -/

/-- Have lanes of a group reductions in the side log, which are RMWs (13 R287)? -/
def slgReds (s : State) (g : Nat) (G : Group) (ls : List Nat) : Bool :=
  (s.coreAt G.tile G.core).slog.any (fun e => e.g == g && e.op.isSome && e.accs.any (fun a => a.lanes.any ls.contains))

/-- FENCE.acq (07 R167): accesses are performed in program order, but for a reduction in the side log, which it waits for (13 R290). -/
def execFenceAcq (c : Ctl) (_ : OpM) (s : State) : Host.Outcome State Fault Refusal :=
  issueWord c { chnOk := false } s (fun x s => if slgReds s x.g x.G x.act then .wait (.slgOwn x.act) else .done s [])
/-- A fence that waits as a release does (07 R163; 19 R402). -/
def fenceWait (c : Ctl) (o : OpM) (s : State) : Host.Outcome State Fault Refusal :=
  issueWord c { chnOk := false } s (fun x s =>
    match relStop s x x.act (decide (4 ≤ o.sc.toNat)) with
    | some r => r
    | none => .done s [])
/-- FENCE.rel (07 R167). -/
def execFenceRel (c : Ctl) (o : OpM) (s : State) : Host.Outcome State Fault Refusal := fenceWait c o s
/-- FENCE.full (07 R167). -/
def execFenceFull (c : Ctl) (o : OpM) (s : State) : Host.Outcome State Fault Refusal := fenceWait c o s

/-- Lanes of the issuing set that are not active. -/
def idleOf (x : Ctx) : List Nat := x.iss.filter (fun i => !x.act.contains i)

/-- A predicate result of the group, complete at once (07 R178). -/
def donePred (x : Ctx) (s : State) (d : Dst) (b : Bool) : Res :=
  .done (s.updGroup x.g (fun G => putPlain x G d false (fun _ => b.toNat))) []

/-- The number of a predicate destination; 15, which discards the write, when it exists only in l0. -/
def predDst : Dst → BitVec 4 | .pred nw n => if nw then 15 else n | _ => 15

/-- Active lanes blocked with their results still to come: the inactive ones go on (01 R46). -/
def blockAct (x : Ctx) (s : State) (d : Dst) (b : Block) : Res :=
  .done (s.updGroup x.g (fun G => (shiftLanes G (idleOf x) d false).updLanes x.act (fun _ l => { l with block := b }))) []

/-- WAITA (07 R178): tested at the home, whose value no tile's copy stands for. -/
def execWaita (c : Ctl) (o : OpT) (s : State) : Host.Outcome State Fault Refusal :=
  let m := { (((({} : Meta).read false o.base false).read false o.c false).write o.dst false) with chnOk := false }
  issueWord c m s (fun x s =>
    let n := tyW o.ty / 8
    match prepare x s .waita false true n [(x.low, eaT x.G x.low o)] with
    | .res r => r
    | .go s1 ps _ =>
      match ps with
      | [] => .done s1 []
      | a :: _ =>
        let p := s.partNo x.G
        let r := readPlace s1 x.g x.G.tile n (match a.place with | .pa q _ => .pa q false | q => q)
        let thr := valOf o.ty.signed (tyW o.ty) (srcScalar x o.ty (tyW o.ty) o.c)
        if thr ≤ valOf o.ty.signed (tyW o.ty) r.2.1 then donePred x r.1 o.dst true
        else
          let wt := waiterAt r.1 p x.G.tile a.place
          if 256 ≤ (r.1.tileAt wt.1).waiters.length then donePred x r.1 o.dst false
          else
            let s2 := r.1.updTile wt.1 (fun t => { t with waiters := t.waiters ++ [{ pa := wt.2, g := x.g }] })
            blockAct x s2 o.dst (.waita wt.1 wt.2 (predDst o.dst)))

/-! ### PRF, RGN, MAPS (07 R171 to R173) -/

/-- PRF (07 R171): no architectural effect; a poisoned address is dropped. -/
def execPrf (c : Ctl) (o : OpE) (s : State) : Host.Outcome State Fault Refusal :=
  let m := ({} : Meta).named o.a true
  issueWord c (if o.b.isZero && o.bits 48 47 == 0 then m else m.named o.b false) s (fun _ s => .done s [])

/-- RGN (07 R172): no architectural effect. -/
def execRgn (c : Ctl) (_ : OpE) (s : State) : Host.Outcome State Fault Refusal := issueWord c {} s (fun _ s => .done s [])

/-- Lines of a range of physical frames, from (VA piece, PA piece) pairs. -/
def mapsLines (va len : Nat) (pas : List (Nat × Nat)) : List Nat :=
  pas.flatMap (fun q =>
    let lo := max va q.1
    let hi := min (va + len) (q.1 + granBytes)
    (List.range ((hi - lo) / lineBytes)).map (fun i => (q.2 + (lo - q.1)) / lineBytes + i))

/-- Waiters that registered on words of a mapped range by its addresses stand in the table of the home again. -/
def moveWaiters (s : State) (p tile : Nat) (lines : List Nat) : State :=
  let ws := (s.tileAt tile).waiters.filter (fun w => lines.contains (lineOf w.pa))
  let s1 := s.updTile tile (fun t => { t with waiters := t.waiters.filter (fun w => !lines.contains (lineOf w.pa)) })
  ws.foldl (fun s w => s.updTile ((homeTile s p w.pa).getD tile) (fun t => { t with waiters := t.waiters ++ [w] })) s1

/-- An entry written back to memory and its lines returned to state I (14 R322); the poison of a scratch line goes with its bytes, and no
line's is cleared (07 R180). -/
def unmapEntry (s : State) (tile core n : Nat) : State :=
  match (s.coreAt tile core).maps.look n with
  | none => s
  | some m =>
    let lines := mapsLines m.va m.len m.pas
    let s1 := lines.foldl (fun s l =>
      let loc := locOf s (l * lineBytes)
      let bs := s.readBytes loc lineBytes
      let ps := s.isPoisoned loc
      let s2 := { s with dir := s.dir.remove l }
      let s3 := (markDirty s2 m.part (l * lineBytes)).writeBytes (l * lineBytes) bs
      if ps then s3.setPoison l else s3) s
    (moveWaiters s1 m.part tile lines).updCore tile core (fun c => { c with maps := c.maps.remove n })

/-- Pages of a range translated for a write: a result, or the pairs of pieces. -/
def mapsPages (x : Ctx) (p : Nat) : Nat → State → Nat → List (Nat × Nat) → State × Except Res (List (Nat × Nat))
  | 0, s, _, acc => (s, .ok acc)
  | k + 1, s, va, acc =>
    match coreTranslate s x.G.tile x.G.core p .wr x.G.priv va with
    | (s1, .trap c) => (s1, .error (.trap { code := c, addr := va }))
    | (s1, .busy i) => (s1, .error (.hold (.busy p i) s1))
    | (s1, .fault f) =>
      (s1, .error (.hold (.fault (faultKey x.G.tile p f) va false []) (raiseFault s1 x.G.tile p x.G.core x.G.number 1 va f)))
    | (s1, .ok _ pa) =>
      if 2 ≤ spaceOf pa then (s1, .error (.trap { code := 0x07, addr := va }))
      else mapsPages x p k s1 (va + granBytes) (acc ++ [(va, pa)])

/-- The map proper: granules become SH, lines take state M, the scratch stands for the range (14 R322). -/
def mapsDo (x : Ctx) (L : Launch) (n va len off : Nat) (pas : List (Nat × Nat)) (s : State) : State :=
  let s0 := unmapEntry s x.G.tile x.G.core n
  let s1 := pas.foldl (fun s q =>
    let gr := granOf q.2
    let e : ClassEnt := { cls := .sh, wr := true, flush := some (.sh, true) }
    endFlush { s with classes := s.classes.setAt gr e } gr) s0
  let lines := mapsLines va len pas
  let s2 := lines.foldl (fun s l =>
    let e : DirEnt := { DirEnt.reset with st := .m x.G.tile x.G.core n, owner := x.G.tile }
    let s3 := drainLine s l
    { s3 with dir := s3.dir.setAt l e }) s1
  let e : MapEnt := { launch := x.G.launch, part := L.part, va, len, pas, off, loc := storeLoc x.G.tile x.G.core (L.scrBase x.G.lin + off) }
  s2.updCore x.G.tile x.G.core (fun c => { c with maps := c.maps.setAt n e })

/-- MAPS (07 R173). Where several of its address checks fail, R173's own listing gives their order, 0x06 first; R182 names the order of
R42, which has 0x07 first (DESIGN CHOICE, log 27). -/
def execMaps (c : Ctl) (o : OpE) (s : State) : Host.Outcome State Fault Refusal :=
  let m := { (((({} : Meta).read false o.a false).read false o.b false).write o.dst false) with chnOk := false }
  issueWord c m s (fun x s =>
    let n := o.bits 48 45
    let va := src64 x o.a
    let off := src64 x o.b % 2 ^ 32
    let len := src64 x o.b / 2 ^ 32
    match s.launchOf x.G with
    | none => .trap { code := 0x07, addr := va }
    | some L =>
      if va % 4096 != 0 || off % 4096 != 0 || len % 4096 != 0 || len == 0 then .trap { code := 0x06, addr := va }
      else if 2 ^ 48 < va + len then .trap { code := 0x07, addr := va }
      else if L.rc.scr < off + len then .trap { code := 0x05, addr := va }
      else
        let v0 := va / granBytes * granBytes
        match mapsPages x L.part ((va + len - v0 + granBytes - 1) / granBytes) s v0 [] with
        | (_, .error r) => r
        | (s1, .ok pas) =>
          let live := (s1.coreAt x.G.tile x.G.core).maps
          let other := match live.look n with | some e => e.launch != x.G.launch | none => false
          let clash := live.any (fun e => e.2.part == L.part && decide (e.2.va < va + len) && decide (va < e.2.va + e.2.len))
          if other || clash then donePred x s1 o.dst false
          else match (mapsLines va len pas).find? (s1.lockedFor (some x.g)) with
          | some l => .hold (.locked l) s1
          | none => donePred x (mapsDo x L n va len off pas s1) o.dst true)

/-- MAPS.un (07 R173). -/
def execMapsUn (c : Ctl) (o : OpE) (s : State) : Host.Outcome State Fault Refusal :=
  issueWord c { (({} : Meta).write o.dst false) with chnOk := false } s (fun x s =>
    let n := o.bits 48 45
    match (s.coreAt x.G.tile x.G.core).maps.look n with
    | some e => if e.launch = x.G.launch then donePred x (unmapEntry s x.G.tile x.G.core n) o.dst true else donePred x s o.dst false
    | none => donePred x s o.dst false)

end Sys2Proof.Machine
end

