-- ==== Sys2Proof/Machine/Control.lean ====
section
/-!
DEFINITION. Transfers of control, the end of a lane, YIELD, SLEEP, RECONV, barriers, ELECT, ENQ, GROW and SHRNK
(spec 08 R183 to R204; 01 R44, R46).
-/

namespace Sys2Proof.Machine

/-! ### Transfers of control (08 R185) -/

/-- The target operand of a lane. -/
def targetOf (G : Group) (i : Nat) (a : Src) : BitVec 64 := BitVec.ofNat 64 (srcLane G i .n64 64 a)
/-- A signed 32-bit displacement. -/
def dispOf (o : OpE) : BitVec 64 := BitVec.ofNat 64 (sextN 32 64 o.imm.toNat)

/-- Is the operand one that a region admits: a scalar register or a latch? -/
def regionSrc (a : Src) : Bool := match a with | .vreg _ => false | _ => true

/-- A transfer: the active lanes go to the target that `tgt` gives, after the link, if any, is written. -/
def jump (c : Ctl) (m : Meta) (link : Option Dst) (tagged : List Src) (tgt : Ctx → Nat → BitVec 64) (s : State) :
    Host.Outcome State Fault Refusal :=
  issueWord c { m with chnOk := false } s (fun x s =>
    let npc := x.act.map (fun i => (i, tgt x i))
    let G0 := pinAll x.G tagged
    let G1 := match link with
      | some d => putPlain x G0 d d.isVec (fun _ => (x.u.pc + 12).toNat)
      | none => G0
    .done (s.setGroup x.g G1) npc)

/-- BRA (08 R185). -/
def execBra (c : Ctl) (o : OpE) (s : State) : Host.Outcome State Fault Refusal :=
  jump c { allow := .yes } none [] (fun x _ => x.u.pc + dispOf o) s

/-- What the checks need to know of a register target and a link. -/
def jumpMeta (a : Src) (link : Option Dst) : Meta :=
  let m := ({} : Meta).read true a true
  let ok := regionSrc a && (match link with | some d => d.isSca | none => true)
  let m1 := match link with | some d => m.write d d.isVec | none => m
  { m1 with allow := if ok then .yes else .no }

/-- BRI (08 R185). -/
def execBri (c : Ctl) (o : OpE) (s : State) : Host.Outcome State Fault Refusal :=
  jump c (jumpMeta o.a none) none [o.a] (fun x i => targetOf x.G i o.a + dispOf o) s

/-- CALL (08 R185). -/
def execCall (c : Ctl) (o : OpE) (s : State) : Host.Outcome State Fault Refusal :=
  jump c { (({} : Meta).write o.dst o.dst.isVec) with allow := if o.dst.isSca then .yes else .no } (some o.dst) []
    (fun x _ => x.u.pc + dispOf o) s

/-- CALLI (08 R185): a is read before the link is written. -/
def execCalli (c : Ctl) (o : OpE) (s : State) : Host.Outcome State Fault Refusal :=
  jump c (jumpMeta o.a (some o.dst)) (some o.dst) [o.a] (fun x i => targetOf x.G i o.a + dispOf o) s

/-- RET (08 R185): BRI with offset 0. -/
def execRet (c : Ctl) (o : OpE) (s : State) : Host.Outcome State Fault Refusal :=
  jump c (jumpMeta o.a none) none [o.a] (fun x i => targetOf x.G i o.a) s

/-- EXIT (08 R187). -/
def execExit (c : Ctl) (_ : OpE) (s : State) : Host.Outcome State Fault Refusal :=
  issueWord c { chnOk := false } s (fun x s =>
    .done (s.updGroup x.g (fun G => G.updLanes x.act (fun _ l => { l with exited := true }))) [])

/-! ### YIELD, SLEEP, RECONV (08 R189 to R191; 01 R44) -/

/-- Class of the launch in a slot: every group of a slot belongs to one launch. -/
def classOf (s : State) (G : Group) : Nat := match s.launchOf G with | some L => L.rc.cls | none => 0

/-- Has group g some ready lane? -/
def groupReady (s : State) (g : Nat) (G : Group) : Bool := (List.range G.lanes.length).any (laneReady s g G)

/-- The other slots of the core, of equal or higher class, that have ready lanes (01 R44). -/
def yieldDebts (s : State) (G : Group) : List Nat :=
  ((s.groups.filter (fun e => e.2.tile == G.tile && e.2.core == G.core && e.2.slot != G.slot &&
    decide (classOf s G ≤ classOf s e.2) && groupReady s e.1 e.2)).map (fun e => e.2.slot)).dedup

/-- Lanes marked as yielded, their watchdog counts reset (01 R44, R45). -/
def yieldLanes (s : State) (g : Nat) (ls : List Nat) : State :=
  s.updGroup g (fun G => let d := yieldDebts s G; G.updLanes ls (fun _ l => { l with yielded := some d, wd := 0, wdDue := false }))

/-- YIELD (08 R189). -/
def execYield (c : Ctl) (_ : OpE) (s : State) : Host.Outcome State Fault Refusal :=
  issueWord c { chnOk := false } s (fun x s => .done (yieldLanes s x.g x.act) [])

/-- SLEEP's delay in a lane (08 R190). -/
def sleepDelay (G : Group) (i : Nat) (o : OpE) : Nat :=
  min (2 ^ 32 - 1) (o.imm.toNat + (if o.a.isZero then 0 else srcLane G i .n32 32 o.a))

/-- SLEEP (08 R190): lanes with delay 0 yield. -/
def execSleep (c : Ctl) (o : OpE) (s : State) : Host.Outcome State Fault Refusal :=
  let m : Meta := if o.a.isZero then {} else ({} : Meta).read true o.a false
  issueWord c { m with chnOk := false } s (fun x s =>
    let d := fun i => sleepDelay x.G i o
    let s1 := yieldLanes s x.g (x.act.filter (fun i => d i == 0))
    .done (s1.updGroup x.g (fun G => G.updLanes (x.act.filter (fun i => d i != 0)) (fun i l =>
      { l with block := .sleep (s.clock + d i) }))) [])

/-- RECONV (08 R191). -/
def execReconv (c : Ctl) (o : OpE) (s : State) : Host.Outcome State Fault Refusal :=
  issueWord c { chnOk := false } s (fun x s => .done (s.updGroup x.g (fun G => { G with ra := some (x.u.pc + dispOf o) })) [])

/-- ELECT (08 R192). -/
def execElect (c : Ctl) (o : OpE) (s : State) : Host.Outcome State Fault Refusal :=
  issueWord c (({} : Meta).write o.dst false) s (fun x s =>
    .done (s.updGroup x.g (fun G => putPlain x G o.dst false (fun i => if i = x.low then 1 else 0))) [])

/-! ### Barriers (08 R193 to R196) -/

/-- DOM and ID of a barrier word. -/
def barDom (o : OpE) : Nat := o.bits 44 42
def barId (o : OpE) : Nat := o.bits 48 45

/-- A barrier as an issuing group sees it: its launch, the unit, and the open phase. -/
def barOf (s : State) (G : Group) (o : OpE) : Option (Nat × Nat) :=
  match s.launchOf G with
  | some L =>
    let u := L.rc.barUnit (barDom o) G.lin
    some (u, L.phaseOf (barDom o) u (barId o))
  | none => none

/-- Does a member of a fabric job have no route left: rank 0 to some member, another rank to rank 0? -/
def routeLost (s : State) (P : Part) : Bool :=
  let gone := fun (r : Nat) =>
    let w := bitsN (P.members.lookD 0 r).toNat 13 8
    w != s.waferid && !bitN (s.routes.lookD 0 w).toNat 15
  if fjobRank P = 0 then (List.range (fjobMem P)).any (fun r => r != 0 && gone r) else gone 0

/-- Does a lane that starts to wait at a barrier of a domain find its wafer cut off from the job (19 R407)? -/
def fabricLost (s : State) (G : Group) (dom : Nat) : Bool :=
  dom == 5 && (match s.launchOf G, s.partOf G with | some L, some P => L.fabric.isSome && routeLost s P | _, _ => false)

/-- Lanes that wait at a fabric barrier of such a member take 0x11 at their BARW or BAR (19 R407). -/
def failFabricWaits (s : State) : State :=
  { s with groups := s.groups.mapV (fun _ G =>
      match s.launchOf G, s.partOf G with
      | some L, some P =>
        if L.fabric.isSome && routeLost s P then
          { G with lanes := G.lanes.map (fun l => match l.block with
              | .bar 5 u id ph past =>
                if ph < L.phaseOf 5 u id then l
                else { l with block := .free, pc := if past then l.pc - 12 else l.pc, deny := some (0x11, 0, false, false) }
              | _ => l) }
        else G
      | _, _ => G) }

/-- Arrival of the active lanes: those that have arrived in the open phase stay at the word, blocked; of the others each
arrives, and waits when `wait` holds. -/
def arrive (wait : Bool) (c : Ctl) (o : OpE) (s : State) : Host.Outcome State Fault Refusal :=
  issueWord c { chnOk := false, bar := some (barDom o, barId o) } s (fun x s =>
    match relStop s x x.act (barFar s x.G (barDom o)), barOf s x.G o with
      | some r, _ => r
      | none, none => .done s []
      | none, some (u, P) =>
        let old := x.act.filter (fun i => x.G.laneTest i (fun l => l.arrived (barDom o) (barId o) == some P))
        let b := Block.bar (barDom o) u (barId o) P
        if wait && fabricLost s x.G (barDom o) then
          .report { code := 0x11 } (s.updGroup x.g (fun G => G.updLanes x.act (fun _ l => { l with arr := l.arr.setAt (16 * barDom o + barId o) P })))
        else .done (s.updGroup x.g (fun G => G.updLanes x.act (fun i l =>
          if old.contains i then { l with block := b false }
          else { l with arr := l.arr.setAt (16 * barDom o + barId o) P, block := if wait then b true else .free })))
          (old.map (fun i => (i, x.u.pc))))

/-- BAR (08 R193). -/
def execBar (c : Ctl) (o : OpE) (s : State) : Host.Outcome State Fault Refusal := arrive true c o s
/-- BARA (08 R193). -/
def execBara (c : Ctl) (o : OpE) (s : State) : Host.Outcome State Fault Refusal := arrive false c o s

/-- BARW (08 R193). -/
def execBarw (c : Ctl) (o : OpE) (s : State) : Host.Outcome State Fault Refusal :=
  issueWord c { chnOk := false, bar := some (barDom o, barId o) } s (fun x s =>
    match barOf s x.G o with
    | none => .done s []
    | some (u, P) =>
      if fabricLost s x.G (barDom o) && x.act.any (fun i => x.G.laneTest i (fun l => l.arrived (barDom o) (barId o) == some P)) then
        .trap { code := 0x11 }
      else .done (s.updGroup x.g (fun G => G.updLanes x.act (fun _ l =>
        if l.arrived (barDom o) (barId o) = some P then { l with block := .bar (barDom o) u (barId o) P true } else l))) [])

/-! ### ENQ (08 R197 to R199) -/

/-- The scalar register that a destination names, and whether it is written. -/
def scaDst : Dst → BitVec 6 × Bool | .sca nw n => (n, nw) | _ => (0, true)

/-- Does R41 give an address to no space? -/
def noSpace (ea : Nat) : Bool := ea / 2 ^ 48 != 0 && !(decide (0xFFFF80 ≤ ea / 2 ^ 40) && decide (ea / 2 ^ 40 ≤ 0xFFFF82))

/-- A record read's trap: the table of R204 gives it no 0x03 and no 0x05, so an offset beyond its window gives 0x07 (DESIGN CHOICE,
log 11). -/
def enqTrap : Res → Res
  | .trap t => .trap (if t.code = 0x03 ∨ t.code = 0x05 then { t with code := 0x07 } else t)
  | r => r

/-- ENQ (08 R198, R199, R204): a release; the record's bytes are read, and the request goes to the dispatcher while the lanes go on. A
group has one request outstanding. -/
def execEnq (c : Ctl) (o : OpE) (s : State) : Host.Outcome State Fault Refusal :=
  let m := { (((({} : Meta).read false o.a false).read false o.b false).write o.dst false) with chnOk := false }
  issueWord c m s (fun x s =>
    let rec_ := src64 x o.a
    match relStop s x x.act false with
    | some r => r
    | none =>
    if x.G.enq.isSome then .wait .enq
    else if noSpace rec_ then .trap { code := 0x07, addr := rec_ }
    else if rec_ % 64 != 0 then .trap { code := 0x06, addr := rec_ }
    else
      match prepare x s .load false true 8 ((List.range 32).map (fun i => (x.low, rec_ + 8 * i))) with
      | .res r => enqTrap r
      | .go s1 ps _ =>
        let r := readLanes x.g x.G.tile 8 (fun v => v) s1 ps
        let q : EnqReq := {
          q := BitVec.ofNat 64 (src64 x o.b), level := o.bits 44 43, va := rec_, bytes := r.2.flatMap (fun e => leBytes 8 e.2.1),
          psn := r.2.any (fun e => e.2.2), again := false, lanes := x.act, sd := (scaDst o.dst).1, nw := (scaDst o.dst).2,
          pd := BitVec.ofNat 4 (o.bits 48 45), charged := false }
        .done (r.1.updGroup x.g (fun G =>
          { ((shiftLanes G (idleOf x) o.dst false).updLanes x.act (fun _ l => l.shiftEnq)) with enq := some q })) [])

/-! ### GROW and SHRNK (08 R200 to R202) -/

/-- The count of GROW and SHRNK. -/
def countOf (o : OpE) : Nat := o.bits 48 40

/-- GROW (08 R200). -/
def execGrow (c : Ctl) (o : OpE) (s : State) : Host.Outcome State Fault Refusal :=
  issueWord c { (({} : Meta).write o.dst false) with chnOk := false } s (fun x s =>
    if countOf o ≤ x.G.v then donePred x s o.dst true
    else
      let s1 := s.updGroup x.g (fun G => { G with grow := some (max (countOf o) (G.grow.getD 0)) })
      blockAct x s1 o.dst (.grow (predDst o.dst)))

/-- The registers from n up released (08 R202). -/
def shrinkGroup (G : Group) (n : Nat) : Group :=
  if n < G.v then
    { G with v := n, lanes := G.lanes.map (fun l => { l with v := l.v.keep (fun k _ => decide (k < n)), vPsn := l.vPsn.filter (· < n) }) }
  else G

/-- SHRNK (08 R202): with writes outstanding the lanes wait for SHRNK_RELEASE. -/
def execShrnk (c : Ctl) (o : OpE) (s : State) : Host.Outcome State Fault Refusal :=
  issueWord c { chnOk := false } s (fun x s =>
    let n := countOf o
    if x.G.v ≤ n then .done s []
    else if x.G.sb.any (fun e => e.2 != 0) then
      .done (s.updGroup x.g (fun G =>
        { (G.updLanes x.act (fun _ l => { l with block := .shrnk })) with shrnk := some (min n (G.shrnk.getD n)) })) []
    else .done (s.updGroup x.g (fun G => shrinkGroup G n)) [])

end Sys2Proof.Machine
end

