-- ==== Sys2Proof/Machine/Channels.lean ====
section
/-!
DEFINITION. What engine operations share: issue and its checks, channels, accesses, circular buffers, the joining of
collective calls, completion and errors (spec 10 R226 to R230, R237 to R240; 15 R336).
-/

namespace Sys2Proof.Machine

/-! ### Circular buffers (10 R237, R238) -/

/-- A slot allocated for writing: F must be above 0. -/
def CBuf.take (b : CBuf) : CBuf × Nat := ({ b with f := b.f - 1, wr := (b.wr + 1) % b.m }, b.wr)

/-- Slots published in their order, as far as they are marked written. -/
def CBuf.advance (b : CBuf) : Nat → CBuf
  | 0 => b
  | k + 1 => if b.written.contains b.q then
      CBuf.advance { b with written := b.written.filter (· != b.q), n := b.n + 1, q := (b.q + 1) % b.m } k else b

/-- publish(s) (10 R238). -/
def CBuf.publish (b : CBuf) (slot : Nat) : CBuf :=
  CBuf.advance { b with written := setAdd b.written slot, acquired := b.acquired.filter (· != slot) } b.m

/-- The lanes of a waiting CBWAIT resume with sd: at once, or when the open region of their group ends (09 R207). -/
def releaseCb (s : State) (g : Nat) (ls : List Nat) (v : Nat) : State :=
  s.updGroup g (fun G =>
    if G.region.isSome then
      G.updLanes ls (fun _ l => match l.block with | .cbwait _ _ sd nw => { l with block := .cbgot v sd nw } | _ => l)
    else
    let ws := ls.filter (fun i => G.laneTest i (fun l => match l.block with | .cbwait _ _ _ _ => true | _ => false))
    let G1 := match ws.head?.bind G.lane? with
      | some l => (match l.block with | .cbwait _ _ sd nw => if nw then G else G.setS sd.toNat (BitVec.ofNat 64 v) false | _ => G)
      | none => G
    G1.updLanes ws (fun _ l => { (l.shift (BitVec.ofNat 64 v) false) with block := .free }))

/-- CBWAIT's effect on a buffer that can serve it: the slot's address. -/
def CBuf.grant (b : CBuf) (full : Bool) : CBuf × Nat :=
  if full then ({ b with n := b.n - 1, c := (b.c + 1) % b.m, taken := b.taken + 1 }, b.b + b.c * b.z)
  else let r := b.take; ({ r.1 with acquired := setAdd r.1.acquired r.2 }, b.b + r.2 * b.z)

def CBuf.canServe (b : CBuf) (full : Bool) : Bool := if full then decide (0 < b.n) else decide (0 < b.f)

/-- Waiters served in arrival order while the buffer can serve them. -/
def serveCb (s : State) (tile b : Nat) : Nat → State
  | 0 => s
  | k + 1 =>
    match (s.tileAt tile).cbufs.look b with
    | none => s
    | some q =>
      match q.waiters.find? (fun w => q.canServe w.2.1) with
      | none => s
      | some w =>
        let r := if w.2.2.isEmpty then q.take else q.grant w.2.1
        let q1 := { r.1 with waiters := q.waiters.erase w }
        let s1 := s.updTile tile (fun t => { t with cbufs := t.cbufs.setAt b q1 })
        serveCb (if w.2.2.isEmpty then s1.updOp w.1 (fun o => { o with slot := some q.wr }) else releaseCb s1 w.1 w.2.2 r.2) tile b k

/-- A buffer changed, and its waiters served. -/
def updCb (s : State) (tile b : Nat) (f : CBuf → CBuf) : State :=
  match (s.tileAt tile).cbufs.look b with
  | none => s
  | some q => serveCb (s.updTile tile (fun t => { t with cbufs := t.cbufs.setAt b (f q) })) tile b (q.waiters.length)

/-! ### Channels and calls (10 R226, R240) -/

/-- The operation at the head of a channel. -/
def chanHead (s : State) (tile ch : Nat) : Option (Nat × EngOp) :=
  s.ops.find? (fun e => e.2.tile == tile && e.2.ch == ch && decide (e.2.kind < 0x100) && !e.2.fin)

/-- Fields of a COLL's control block (10 R231, R240). -/
def EngOp.word (o : EngOp) (i : Nat) : Nat := (o.ops.getD i 0).toNat
def EngOp.collKind (o : EngOp) : Nat := bitsN (o.word 5) 39 32
def EngOp.collOp (o : EngOp) : Nat := bitsN (o.word 5) 47 40
def EngOp.collTy (o : EngOp) : Nat := bitsN (o.word 5) 55 48
def EngOp.collLevel (o : EngOp) : Nat := bitsN (o.word 5) 63 56
def EngOp.collSlot (o : EngOp) : Nat := o.word 6 % 4
def EngOp.isColl (o : EngOp) : Bool := o.kind == 4 || o.kind == 0x24

/-- A COLL at the head of its channel joins its call: the next of its participant at its level and slot. -/
def joinHead (s : State) (tile ch : Nat) : State :=
  match chanHead s tile ch with
  | none => s
  | some (n, o) =>
    match o.isColl && o.call.isNone, s.groups.look o.g, s.launches.look o.launch with
    | true, some G, some L =>
      let lv := o.collLevel
      let unit := L.rc.unitOf lv G.lin
      let key := unit * 64 + lv * 4 + o.collSlot
      let k := L.calls.lookD 0 key
      let parent := L.rc.unitOf (lv + 1) G.lin
      let rank := L.rc.idx lv G.lin
      let s1 := s.updLaunch o.launch (fun L => { L with calls := L.calls.setAt key (k + 1) })
      (match s1.calls.find? (fun e => e.2.launch == o.launch && e.2.level == lv && e.2.slot == o.collSlot && e.2.k == k &&
          e.2.parent == parent) with
        | some (c, q) =>
          { (s1.updOp n (fun o => { o with call := some c })) with
            calls := s1.calls.setAt c { q with members := q.members ++ [(rank, n)] } }
        | none =>
          { (s1.updOp n (fun o => { o with call := some s.nextId })) with
            calls := s1.calls.setAt s.nextId { launch := o.launch, level := lv, slot := o.collSlot, k, parent, n := L.rc.ext lv,
                                               members := [(rank, n)], start := none, closed := [] },
            nextId := s.nextId + 1 })
    | _, _, _ => s

/-- The flags that an ACCST leaves when it completes, with an error or without: those of its tile and of the conversions made (11 R261). -/
def accFlags (s : State) (o : EngOp) : State :=
  if o.kind != 0x104 then s
  else s.updGroup o.g (fun G =>
    let fl := o.item ||| ((G.acc.lookD { words := [], flags := 0 } o.tileNo).flags.toNat &&& 0x17)
    G.updLanes o.lanes (fun _ l => { l with fflags := l.fflags ||| BitVec.ofNat 6 fl }))

/-- An operation finishes: a CPYCB publishes its slot, and the next operation of the channel reaches its engine. -/
def opFinish (s : State) (n : Nat) : State :=
  match s.ops.look n with
  | none => s
  | some o =>
    let s1 := s.updOp n (fun o => { o with fin := true, wait := none })
    let s2 := match o.kind, o.slot with
      | 2, some sl => updCb s1 o.tile (o.word 0) (fun b => b.publish sl)
      | _, _ => s1
    let s3 := accFlags s2 o
    if o.kind < 0x100 then joinHead s3 o.tile o.ch else s3

/-- An operation records its first error: for an access fault the page's VA, else the address itself (12 R269). -/
def opMark (s : State) (n code va : Nat) (s2 : Bool) : State :=
  s.updOp n (fun o => { o with wait := none, err := match o.err with
    | some e => some e
    | none => some { cls := o.cls, pos := o.pos, code, va := if code = 0x07 then va / granBytes * granBytes else va, s2, due := false } })

/-- An operation ends with an error (10 R228); the whole call of a COLL fails with it (10 R241). -/
def opError (s : State) (n code va : Nat) (s2 : Bool) : State :=
  match s.ops.look n with
  | none => s
  | some o =>
    match o.call with
    | some c =>
      let ms := match s.calls.look c with | some q => q.members | none => []
      ms.foldl (fun s m => opFinish (opMark s m.2 code va s2) m.2) { s with calls := s.calls.remove c }
    | none => opFinish (opMark s n code va s2) n

/-- An access of an operation failed for good: a lossy copy goes on with what is left, and notes what lacked a page (10 R235). -/
def opDenied (s : State) (n code va : Nat) (s2 : Bool) : State :=
  match s.ops.look n with
  | none => s
  | some o =>
    if o.kind = 0x20 ∨ o.kind = 0x21 then
      (opMark s n code va s2).updOp n (fun o => { o with done := setAdd o.done o.item, lack := setAdd o.lack o.item })
    else opError s n code va s2

/-! ### Issue (10 R226 to R228) -/

/-- A failed check at issue: its place in the order of 01 R42, the code and the address. -/
abbrev Fail := Nat × Nat × Nat

/-- A range checked whole: decoding, alignment, bounds, protection (10 R228, R233). -/
def rangeFail (G : Group) (L : Launch) (write : Bool) (al va len : Nat) : Option Fail :=
  let hi := va / 2 ^ 40
  let off := va % 2 ^ 40
  let mis := va % al != 0
  if hi / 256 = 0 then (if 2 ^ 48 < va + len then some (0, 0x07, va) else if mis then some (1, 0x06, va) else none)
  else if hi = 0xFFFF80 then
    if off < 0x10000 then some (0, 0x07, va)
    else if mis then some (1, 0x06, va)
    else if L.rc.scr < off - 0x10000 + len then some (2, 0x05, va) else none
  else if hi = 0xFFFF81 then
    if mis then some (1, 0x06, va)
    else if L.rc.tmb < off + len || (L.tmOf G.lin).isNone then some (2, 0x05, va) else none
  else if hi = 0xFFFF82 then
    if mis then some (1, 0x06, va)
    else if 0x10000 < off + len then some (2, 0x07, va)
    else if write then some (3, 0x0A, va) else none
  else some (0, 0x07, va)

/-- A length or stride that must be a multiple. -/
def multFail (al v : Nat) : Option Fail := if v % al = 0 then none else some (1, 0x06, 0)

/-- The first failing check of an issue: earliest in the order of 01 R42 over all its ranges, then of the range named first (DEDUCED, log 31). -/
def firstFail (fs : List (Option Fail)) : Option TrapInfo :=
  let l := fs.filterMap (fun f => f)
  match (List.range 4).findSome? (fun r => l.find? (fun f => f.1 == r)) with
  | some f => some { code := f.2.1, addr := f.2.2 }
  | none => none

/-- Waits of an operation's issue: the side log of its lanes, its counter, its channel or job queue. -/
def engWait (s : State) (x : Ctx) (cls : Nat) (ch : Option Nat) : Option Block :=
  if slgHolds s x.g x.G x.act then some (.slgOwn x.act)
  else if 63 ≤ x.G.counter cls then some (.cntFull cls)
  else match ch with
    | some c => if 32 ≤ chanLen s x.G.tile c then some (.chan c) else none
    | none => if cls = 1 && decide (16 ≤ jobLen s x.G.tile x.G.core) then some .jobs else none

/-- An operation as it issues; `kind` and `ops` say what it does. -/
def engOp (s : State) (x : Ctx) (cls ch kind : Nat) (ops : List DWord) : EngOp :=
  { g := x.g, cls, pos := x.G.issued.lookD 0 cls, tile := x.G.tile, core := x.G.core, launch := x.G.launch, ch, kind, ops, ty := 0,
    rm := 0, sat := false, d := 0, tileNo := 0,
    scr := (match s.launchOf x.G with | some L => storeLoc x.G.tile x.G.core (L.scrBase x.G.lin) | none => 0),
    t0 := s.clock, lanes := x.act, seed := x.G.srseed, done := [], slot := none, a := none, wait := none, item := 0,
    priv := x.G.priv, stb := false, rows := [], err := none, fin := false, fl := 0, lack := [], call := none }

/-- The operation issued: its class counter rises, and it reaches its engine when its channel is empty. An idle matrix engine has pending
work from here (11 R266). -/
def engIssue (s0 : State) (x : Ctx) (o : EngOp) : State :=
  let s := if o.cls = 1 ∧ jobLen s0 o.tile o.core = 0 then s0.updCore o.tile o.core (fun c => { c with mxTime := s0.clock }) else s0
  let s1 := s.updGroup x.g (fun G =>
    { G with cnt := G.cnt.setAt o.cls (G.counter o.cls + 1), issued := G.issued.setAt o.cls (G.issued.lookD 0 o.cls + 1) })
  let s2 := { s1 with ops := s1.ops.setAt s.nextId o, nextId := s.nextId + 1 }
  if o.kind < 0x100 then joinHead s2 o.tile o.ch else s2

/-- Eight words of a control block, read as SLD.n64 reads (10 R231). -/
def readBlock (x : Ctx) (s : State) (L : Launch) (va : Nat) (k : State → List Nat → Res) : Res :=
  match firstFail [rangeFail x.G L false 64 va 64] with
  | some t => .trap t
  | none =>
    match prepare x s .load false true 8 ((List.range 8).map (fun i => (x.low, va + 8 * i))) with
    | .res r => r
    | .go s1 ps _ =>
      let r := readLanes x.g x.G.tile 8 (fun v => v) s1 ps
      if r.2.any (fun e => e.2.2) then .trap { code := 0x0B } else k r.1 (r.2.map (fun e => e.2.1))

/-- An engine instruction: its waits, then its body with the launch. -/
def engWord (c : Ctl) (m : Meta) (cls : Nat) (ch : Option Nat) (s : State) (f : Ctx → State → Launch → Res) :
    Host.Outcome State Fault Refusal :=
  issueWord c { m with chnOk := false } s (fun x s =>
    match engWait s x cls ch, s.launchOf x.G with
    | some b, _ => .wait b
    | none, some L => f x s L
    | none, none => .trap { code := 0x07 })

/-! ### Accesses of an operation while it runs (10 R228) -/

/-- How an access of an operation ends. -/
inductive Stop where
  | trap (code va : Nat)
  | fault (va : Nat) (f : WFault)
  | busy
  deriving DecidableEq, Repr

/-- The place of n bytes at va for an operation, once nothing at its home holds the access; `host`: host space is admitted. -/
def engPlace (s : State) (o : EngOp) (need : Need) (host : Bool) (n va : Nat) : State × Except Stop Place :=
  match s.groups.look o.g, s.launches.look o.launch with
  | some G, some L =>
    match addrCheck G L (if need.w then .store else .load) n va with
    | .error c => (s, .error (.trap c va))
    | .ok (.rv _) => (s, .error (.trap 0x07 va))
    | .ok (.scr l) => (s, .ok (.loc l))
    | .ok (.tm q) =>
      (match claimUnit s (.op o.g o.cls o.pos) o.tile q need.w false with
        | (s1, true) => (s1, .ok (.pa q false))
        | (s1, false) => (s1, .error .busy))
    | .ok (.cst k) => (s, .ok (.cst k))
    | .ok (.glob va) =>
      (match translate s o.tile L.part need o.priv va with
        | (s1, .trap c) => (s1, .error (.trap c va))
        | (s1, .fault f) => (s1, .error (.fault va f))
        | (s1, .busy _) => (s1, .error .busy)
        | (s1, .ok e pa) =>
          if spaceOf pa = 3 && !host then (s1, .error (.trap 0x07 va))
          else if e.stb then (s1, .ok (.pa pa true))
          else match claimUnit s1 (.op o.g o.cls o.pos) o.tile pa need.w false with
            | (s2, true) => (s2, .ok (.pa pa false))
            | (s2, false) => (s2, .error .busy))
  | _, _ => (s, .error (.trap 0x07 va))

/-- n bytes read by an operation, with the poison mark. -/
def engRead (s : State) (o : EngOp) (host : Bool) (n va : Nat) : State × Except Stop (Nat × Bool) :=
  match engPlace s o .rd host n va with
  | (s1, .error e) => (s1, .error e)
  | (s1, .ok pl) => let r := readPlace s1 o.g o.tile n pl; (r.1, .ok r.2)

/-- The 64-byte line requests of an operation's step that has been made, counted (15 R342). -/
def engCount (s : State) (o : EngOp) (vas : List Nat) : State :=
  let p := match s.launches.look o.launch with | some L => L.part | none => 64
  ((vas.map (· / lineBytes)).dedup).foldl (fun s l =>
    let va := l * lineBytes
    match tlbHit s o.tile p va with
    | some e => countHost s p (e.ipa + (va - e.base)) (e.pa + (va - e.base)) e.mg
    | none => s) s

/-- n bytes written by an operation at a place. -/
def engPut (s : State) (o : EngOp) (n v : Nat) (psn : Bool) (pl : Place) : State :=
  let p := match s.launches.look o.launch with | some L => L.part | none => 64
  match pl with
  | .pa a _ =>
    let s1 := writePa s none p a n v
    if psn then poisonPa s1 a else s1
  | .loc l => let s1 := s.writeN l n v; if psn then s1.setPoison (lineOf l) else s1
  | _ => s

/-- A step of an operation stopped: it waits for a fault, ends with an error, or tries again. -/
def engStop (s : State) (n : Nat) (o : EngOp) (item : Nat) : Stop → State
  | .busy => s
  | .trap code va => opDenied (s.updOp n (fun o => { o with item := item })) n code va false
  | .fault va f =>
    let p := match s.launches.look o.launch with | some L => L.part | none => 64
    let num := match s.groups.look o.g with | some G => G.number | none => 255
    let s1 := raiseFault s o.tile p o.core num 4 va f
    s1.updOp n (fun o => { o with wait := some (faultKey o.tile p f, va), item := item })

/-- Values of several words; the first that stops, stops all. -/
def engReads (s : State) (o : EngOp) (host : Bool) (n : Nat) : List Nat → State × Except Stop (List (Nat × Bool))
  | [] => (s, .ok [])
  | va :: vas =>
    match engRead s o host n va with
    | (s1, .error e) => (s1, .error e)
    | (s1, .ok v) =>
      match engReads s1 o host n vas with
      | (s2, .error e) => (s2, .error e)
      | (s2, .ok vs) => (s2, .ok (v :: vs))

/-- Places of several words to be written. -/
def engPlaces (s : State) (o : EngOp) (host : Bool) (n : Nat) : List Nat → State × Except Stop (List Place)
  | [] => (s, .ok [])
  | va :: vas =>
    match engPlace s o .wr host n va with
    | (s1, .error e) => (s1, .error e)
    | (s1, .ok p) =>
      match engPlaces s1 o host n vas with
      | (s2, .error e) => (s2, .error e)
      | (s2, .ok ps) => (s2, .ok (p :: ps))

/-- Is the operation of the lossy class? -/
def EngOp.lossy (o : EngOp) : Bool := o.kind == 0x20 || o.kind == 0x21 || o.kind == 0x24

/-- Flits of the write packets that writes of n-byte words to some places form, by packet (26 R448). -/
def fabricFlits (n : Nat) (ps : List Place) : List (Nat × Nat) :=
  writeFlits n (ps.filterMap (fun p => match p with | .pa a _ => if spaceOf a = 2 then some a else none | _ => none))

/-- An exact write packet of an operation sent to the fabric: its flits, and the acknowledgement that its home owes (19 R402, R404). -/
def engPacket (o : EngOp) (ws : List (Nat × Place)) (s : State) (q : Nat × Nat) : State :=
  let va := ((ws.find? (fun w => match w.2 with | .pa a _ => a / 1024 == q.1 / 1024 | _ => false)).map Prod.fst).getD 0
  owe (sendFlits s q.1 q.2) q.1 q.2 va o.launch (.op o.g o.cls o.pos)

/-- Room at the ports for write packets (19 R404). -/
def engRoom (s : State) (fl : List (Nat × Nat)) : Bool := fl.all (fun q => flitRoom s q.1 (sumOf (fl.map Prod.snd)))

/-- Words written at their VAs and places, and the write packets of an exact operation sent; a line that one step writes whole without
poison loses its poison (10 R234; 07 R180). A line that two chunks write between them keeps it (DESIGN CHOICE, log 79). -/
def engPuts (s : State) (o : EngOp) (n : Nat) (fl : List (Nat × Nat)) (vas : List Nat) (ws : List (Place × Nat × Bool)) : State :=
  let s0 := if o.lossy then s else fl.foldl (engPacket o (vas.zip (ws.map Prod.fst))) s
  let s1 := ws.foldl (fun s w => engPut s o n w.2.1 w.2.2 w.1) s0
  clearStored s1 n (ws.filterMap (fun w => (placeLoc s1 w.1).map (fun l => (l, w.2.2))))

end Sys2Proof.Machine
end

