-- ==== Sys2Proof/Machine/Faults.lean ====
section
/-!
DEFINITION. How outstanding faults end (spec 12 R278; 15 R336 to R338; 10 R230).
-/

namespace Sys2Proof.Machine

/-- A fault ends by retry: whatever it held goes on. -/
def endFault (s : State) (k : FaultKey) : State :=
  let s1 := s.updTile k.tile (fun t => { t with faults := t.faults.filter (fun f => f.key != k) })
  { s1 with ops := s1.ops.mapV (fun _ o => if (o.wait.map Prod.fst) == some k then { o with wait := none } else o) }

/-- Cause and S2 of a denied fault (12 R278). -/
def denyCode (k : FaultKey) : Nat × Bool := if k.stage = 1 then (0x08, false) else (0x09, true)

/-- Lanes held by a denied fault, of whichever of their pages, take its trap at their instruction (12 R278). -/
def denyLanes (s : State) (k : FaultKey) : State :=
  let (code, s2) := denyCode k
  { s with groups := s.groups.mapV (fun _ G => { G with lanes := G.lanes.map (fun l =>
      match l.block with
      | .fault k' va fet more =>
        (match ((k', va) :: more).find? (fun q => q.1 == k) with
          | some q => { l with block := .free, deny := some (code, q.2, s2, fet) }
          | none => l)
      | _ => l) }) }

/-- A side-log entry discarded: the lane of each access takes the trap deferred, after the reports that it already has (12 R278;
15 R337). -/
def dropEntry (s : State) (e : SlgEnt) (code : Nat) (s2 : Bool) : State :=
  e.accs.foldl (fun s a => s.updGroup e.g (fun G => G.updLane (a.lanes.headD 0) (fun l => { l with slg := l.slg ++ [(code, a.va, s2)] }))) s

/-- The side-log entries that wait for a denied fault are discarded. -/
def denySlog (s : State) (k : FaultKey) : State :=
  let (code, s2) := denyCode k
  (s.cores.filter (fun e => e.1 / 4 == k.tile)).foldl (fun s e =>
    let bad := e.2.slog.filter (fun q => q.key == k)
    let s1 := bad.foldl (fun s q => dropEntry s q code s2) s
    { s1 with cores := s1.cores.setAt e.1 { (s1.cores.lookD Core.reset e.1) with slog := e.2.slog.filter (fun q => q.key != k) } }) s

/-- A fault ends by denial. -/
def denyFault (s : State) (k : FaultKey) : State :=
  let (code, s2) := denyCode k
  let s1 := denySlog (denyLanes s k) k
  let s3 := s1.ops.foldl (fun s e => match e.2.wait with
    | some (k', va) => if k' = k then opDenied s e.1 code va s2 else s
    | none => s) s1
  let s4 := if k.tile = dispTile then s3.updPart k.part (fun p => { p with denied := p.denied ++ [k] }) else s3
  endFault s4 k

/-- Every outstanding fault of a partition and stage that `sel` picks by page ends by retry (15 R336). -/
def retryFaults (s : State) (p stage : Nat) (sel : Nat → Bool) : State :=
  let ks := s.tiles.flatMap (fun t => (t.2.faults.map FaultEnt.key).filter (fun k => k.part == p && k.stage == stage && sel k.page))
  ks.foldl endFault s

end Sys2Proof.Machine
end

