-- ==== Sys2Proof/Machine/Engines.lean ====
section
/-!
DEFINITION. Instructions that hand work to the copy engine and the Sloe units, the circular-buffer instructions and WAITC
(spec 10 R226 to R246): their issue. What the engines do stands in EngineEvents.lean.
-/

namespace Sys2Proof.Machine

/-- Active lanes blocked at the instruction, which executes again; the inactive ones go on (01 R46). -/
def waitHere (x : Ctx) (s : State) (b : Block) : Res :=
  .done (s.updGroup x.g (fun G => G.updLanes x.act (fun _ l => { l with block := b }))) (x.act.map (fun i => (i, x.u.pc)))

/-- WAITC (10 R229, R230): every operation that has been reported is covered. At S an error waits, as every deferred report does (12 R271). -/
def execWaitc (c : Ctl) (o : OpE) (s : State) : Host.Outcome State Fault Refusal :=
  issueWord c { chnOk := false } s (fun x s =>
    let cls := o.bits 48 47
    let n := o.bits 46 41
    if n < x.G.counter cls then waitHere x s (.waitc cls n)
    else match x.G.errs.find? (fun e => e.cls == cls) with
      | some e =>
        if x.G.priv then
          .done (s.updGroup x.g (fun G => { G with errs := G.errs.map (fun e => if e.cls = cls then { e with due := true } else e) })) []
        else .report e.trap (s.updGroup x.g (fun G => { G with errs := G.errs.erase e }))
      | none => .done s [])

/-! ### Copies (10 R232 to R236) -/

/-- Channel of an OP 0x30 word. -/
def chOf (o : OpE) : Nat := o.bits 48 46

/-- An operation with 64-bit operands. -/
def dwords (l : List Nat) : List DWord := l.map (BitVec.ofNat 64)

/-- CPY (10 R233). -/
def execCpy (c : Ctl) (o : OpE) (s : State) : Host.Outcome State Fault Refusal :=
  let n := o.src3.getD (.imm 0)
  engWord c ((({} : Meta).reads false [(o.a, false), (o.b, false), (n, false)])) 0 (some (chOf o)) s (fun x s L =>
    let dst := src64 x o.a
    let src := src64 x o.b
    let len := src64 x n
    match firstFail [rangeFail x.G L true 4 dst len, rangeFail x.G L false 4 src len, multFail 4 len] with
    | some t => .trap t
    | none => .done (engIssue s x (engOp s x 0 (chOf o) 0 (dwords [dst, src, len]))) [])

/-- A word whose operands stand in a control block. -/
def blockWord (c : Ctl) (o : OpE) (cls : Nat) (s : State) (f : Ctx → State → Launch → List Nat → Res) :
    Host.Outcome State Fault Refusal :=
  engWord c (({} : Meta).read false o.a false) cls (some (chOf o)) s (fun x s L =>
    readBlock x s L (src64 x o.a) (fun s w => f x s L w))

def w32 (v : Nat) : Nat := v % 2 ^ 32
def hi32 (v : Nat) : Nat := v / 2 ^ 32

/-- Bytes of row j, from a base with a stride, modulo 2^64 (10 R233). -/
def rowAt (base stride j : Nat) : Nat := (base + j * stride) % 2 ^ 64

/-- CPY.lossy (10 R235). -/
def execCpyLossy (c : Ctl) (o : OpE) (s : State) : Host.Outcome State Fault Refusal :=
  blockWord c o 0 s (fun x s L w =>
    let w' := fun i => w.getD i 0
    if hi32 (w' 5) != 0 || w' 6 != 0 || w' 7 != 0 then .trap { code := 0x07 }
    else
      let len := w' 2
      let n := len / 256
      match firstFail [rangeFail x.G L true 64 (w' 0) len, rangeFail x.G L false 64 (w' 1) len, multFail 256 len,
          rangeFail x.G L true 1 (w' 3) n, if w' 4 = 0 then none else rangeFail x.G L false 1 (w' 4) n] with
      | some t => .trap t
      | none => .done (engIssue s x { (engOp s x 0 (chOf o) 0x20 (dwords w)) with d := w32 (w' 5) }) [])

/-- The ranges of a two-dimensional copy: its bases, then its rows. -/
def rowFails (G : Group) (L : Launch) (al : Nat) (w : Nat → Nat) : List (Option Fail) :=
  let rb := w32 (w 2)
  rangeFail G L true al (w 0) 0 :: rangeFail G L false al (w 1) 0 ::
    (List.range (hi32 (w 2))).flatMap (fun j =>
      [rangeFail G L true al (rowAt (w 0) (w 3) j) rb, rangeFail G L false al (rowAt (w 1) (w 4) j) rb])

/-- CPY2D (10 R233). -/
def execCpy2d (c : Ctl) (o : OpE) (s : State) : Host.Outcome State Fault Refusal :=
  blockWord c o 0 s (fun x s L w =>
    let w' := fun i => w.getD i 0
    if w' 5 != 0 || w' 6 != 0 || w' 7 != 0 then .trap { code := 0x07 }
    else
      match firstFail (rowFails x.G L 4 w' ++ [multFail 4 (w32 (w' 2)), multFail 4 (w' 3), multFail 4 (w' 4)]) with
      | some t => .trap t
      | none => .done (engIssue s x (engOp s x 0 (chOf o) 1 (dwords w))) [])

/-- CPY2D.lossy (10 R235). -/
def execCpy2dLossy (c : Ctl) (o : OpE) (s : State) : Host.Outcome State Fault Refusal :=
  blockWord c o 0 s (fun x s L w =>
    let w' := fun i => w.getD i 0
    if hi32 (w' 6) != 0 then .trap { code := 0x07 }
    else
      let n := w32 (w' 2) / 256 * hi32 (w' 2)
      match firstFail (rowFails x.G L 64 w' ++ [multFail 256 (w32 (w' 2)), multFail 64 (w' 3), multFail 64 (w' 4),
          rangeFail x.G L true 1 (w' 5) n, if w' 7 = 0 then none else rangeFail x.G L false 1 (w' 7) n]) with
      | some t => .trap t
      | none => .done (engIssue s x { (engOp s x 0 (chOf o) 0x21 (dwords w)) with d := w32 (w' 6) }) [])

/-- GATH (10 R236). -/
def execGath (c : Ctl) (o : OpE) (s : State) : Host.Outcome State Fault Refusal :=
  blockWord c o 0 s (fun x s L w =>
    let w' := fun i => w.getD i 0
    let rb := w32 (w' 3)
    let n := hi32 (w' 3)
    if hi32 (w' 4) != 0 || w' 5 != 0 || w' 6 != 0 || w' 7 != 0 || decide (rb < 4) || decide (65536 < rb) then .trap { code := 0x07 }
    else
      match firstFail [rangeFail x.G L true 4 (w' 0) (rb * n), rangeFail x.G L false 4 (w' 2) (4 * n),
          rangeFail x.G L false 4 (w' 1) (rb * w32 (w' 4)), multFail 4 rb] with
      | some t => .trap t
      | none => .done (engIssue s x (engOp s x 0 (chOf o) 3 (dwords w))) [])

/-! ### Circular buffers (10 R237 to R239) -/

/-- Buffer b of the group's tile, when its launch owns it. -/
def ownedCb (s : State) (x : Ctx) (b : Nat) : Option CBuf :=
  match (s.tileAt x.G.tile).cbufs.look b with
  | some q => if q.owner = x.G.launch then some q else none
  | none => none

/-- CPYCB (10 R239): operands are the buffer and the source. -/
def execCpycb (c : Ctl) (o : OpE) (s : State) : Host.Outcome State Fault Refusal :=
  engWord c ((({} : Meta).reads false [(o.a, false), (o.b, false)])) 0 (some (chOf o)) s (fun x s L =>
    let b := src64 x o.b
    let src := src64 x o.a
    if 15 < b then .trap { code := 0x07 }
    else match ownedCb s x b with
      | none => .trap { code := 0x07 }
      | some q =>
        match firstFail [rangeFail x.G L false 4 src q.z] with
        | some t => .trap t
        | none => .done (engIssue s x (engOp s x 0 (chOf o) 2 (dwords [b, src]))) [])

/-- The buffer number of the circular-buffer forms. -/
def cbNo (o : OpE) : Nat := o.bits 48 45

/-- Location of the byte at va in a tile or scratch window of the launch. -/
def windowLoc (G : Group) (L : Launch) (va : Nat) : Nat :=
  match addrCheck G L .load 1 va with
  | .ok (.scr l) => l
  | .ok (.tm q) => q
  | _ => 0

/-- CBCFG's predicate, which shifts no latch (10 R238). -/
def cbPred (x : Ctx) (s : State) (d : Dst) (b : Bool) : Res :=
  .done (s.updGroup x.g (fun G => G.updLanes x.act (fun _ l => l.setPred (predDst d).toNat b))) []

/-- CBCFG (10 R237). -/
def execCbcfg (c : Ctl) (o : OpE) (s : State) : Host.Outcome State Fault Refusal :=
  let m := { (({} : Meta).reads false [(o.a, false), (o.b, false)]) with chnOk := false }
  issueWord c m s (fun x s =>
    let b := cbNo o
    let base := src64 x o.a
    let geom := src64 x o.b
    let z := w32 geom
    let m := bitsN geom 39 32
    match s.launchOf x.G with
    | none => .trap { code := 0x07 }
    | some L =>
      let hi := base / 2 ^ 40
      let win := (hi == 0xFFFF80 || hi == 0xFFFF81)
      let ok := geom / 2 ^ 40 == 0 && 64 ≤ z && z ≤ 2 ^ 20 && z % 64 == 0 && 1 ≤ m && m ≤ 64 && win
      match firstFail [if ok then none else some (0, 0x07, base), rangeFail x.G L false 64 base (m * z)] with
      | some t => .trap t
      | none =>
        let old := (s.tileAt x.G.tile).cbufs.look b
        if (match old with | some q => q.owner != x.G.launch | none => false) then cbPred x s o.dst false
        else if cpycbPending s x.G.tile b then waitHere x s (.cbcfg b)
        else
          let q : CBuf := { owner := x.G.launch, b := base, loc := windowLoc x.G L base, z, m, f := m, n := 0, wr := 0, q := 0, c := 0,
                            e := 0, written := [], acquired := [], taken := 0,
                            waiters := match old with | some q => q.waiters | none => [] }
          let s1 := s.updTile x.G.tile (fun t => { t with cbufs := t.cbufs.setAt b q })
          cbPred x (serveCb s1 x.G.tile b q.waiters.length) o.dst true)

/-- CBWAIT (10 R238): served at once when the buffer can and no earlier waiter stands. -/
def cbwait (full : Bool) (c : Ctl) (o : OpE) (s : State) : Host.Outcome State Fault Refusal :=
  issueWord c { (({} : Meta).write o.dst false) with chnOk := false } s (fun x s =>
    let b := cbNo o
    match ownedCb s x b with
    | none => .trap { code := 0x07 }
    | some q =>
      if q.canServe full && !q.waiters.any (fun w => w.2.1 == full) then
        let r := q.grant full
        let s1 := s.updTile x.G.tile (fun t => { t with cbufs := t.cbufs.setAt b r.1 })
        .done (s1.updGroup x.g (fun G => putPlain x G o.dst false (fun _ => r.2))) []
      else
        let q1 := { q with waiters := q.waiters ++ [(x.g, full, x.act)] }
        let s1 := s.updTile x.G.tile (fun t => { t with cbufs := t.cbufs.setAt b q1 })
        blockAct x s1 o.dst (.cbwait b full (scaDst o.dst).1 (scaDst o.dst).2))

/-- CBWAIT.full (10 R238). -/
def execCbwaitFull (c : Ctl) (o : OpE) (s : State) : Host.Outcome State Fault Refusal := cbwait true c o s
/-- CBWAIT.free (10 R238). -/
def execCbwaitFree (c : Ctl) (o : OpE) (s : State) : Host.Outcome State Fault Refusal := cbwait false c o s

/-- CBPOST and CBREL: releases, by a launch that owns the buffer. -/
def cbRelease (c : Ctl) (o : OpE) (m : Meta) (s : State) (f : Ctx → CBuf → CBuf) : Host.Outcome State Fault Refusal :=
  issueWord c { m with chnOk := false } s (fun x s =>
    match ownedCb s x (cbNo o) with
    | none => .trap { code := 0x07 }
    | some _ =>
      match relStop s x x.act false with
      | some r => r
      | none => .done (updCb s x.G.tile (cbNo o) (f x)) [])

/-- CBREL (10 R238). -/
def execCbrel (c : Ctl) (o : OpE) (s : State) : Host.Outcome State Fault Refusal :=
  cbRelease c o {} s (fun _ q => if q.taken = 0 then q else { q with taken := q.taken - 1, e := (q.e + 1) % q.m, f := q.f + 1 })

/-- CBPOST (10 R238). -/
def execCbpost (c : Ctl) (o : OpE) (s : State) : Host.Outcome State Fault Refusal :=
  cbRelease c o (({} : Meta).read false o.a false) s (fun x q =>
    match q.acquired.find? (fun sl => q.b + sl * q.z == src64 x o.a) with
    | some sl => q.publish sl
    | none => q)

/-! ### Collectives (10 R240) -/

/-- Are OPX and TY a pair that COLL admits? -/
def collTyOk (opx ty : Nat) : Bool := if opx = 1 then ty == 8 || ty == 10 else ty == 2 || ty == 6

/-- A collective, exact or lossy. -/
def collWord (lossy : Bool) (c : Ctl) (o : OpE) (s : State) : Host.Outcome State Fault Refusal :=
  blockWord c o 3 s (fun x s L w =>
    let w' := fun i => w.getD i 0
    let kind := bitsN (w' 5) 39 32
    let i := bitsN (w' 5) 63 56
    let dom := match L.rc.levels[i + 1]? with | some l => l.dom | none => 0
    let bad := decide (3 < w' 6) || w' 7 != 0 || decide (2 < kind) || decide (3 < bitsN (w' 5) 47 40) ||
      !collTyOk (bitsN (w' 5) 47 40) (bitsN (w' 5) 55 48) || decide (dom < 3) ||
      (!lossy && (w' 3 != 0 || w' 4 != 0 || w32 (w' 5) != 0))
    if bad then .trap { code := 0x07 }
    else
      let n := L.rc.ext i
      let len := w' 2
      let sl := if kind = 1 then len / n else len
      let dl := if kind = 0 then len / n else len
      let counts := if lossy then [rangeFail x.G L true 1 (w' 3) (dl / 256),
        if w' 4 = 0 then none else rangeFail x.G L false 1 (w' 4) (sl / 256)] else []
      match firstFail ([rangeFail x.G L false 64 (w' 0) sl, rangeFail x.G L true 64 (w' 1) dl,
          multFail (if kind < 2 then 256 * n else 256) len] ++ counts) with
      | some t => .trap t
      | none => .done (engIssue s x { (engOp s x 3 (chOf o) (if lossy then 0x24 else 4) (dwords w)) with d := w32 (w' 5) }) [])

/-- COLL (10 R241). -/
def execColl (c : Ctl) (o : OpE) (s : State) : Host.Outcome State Fault Refusal := collWord false c o s
/-- COLL.lossy (10 R242). -/
def execCollLossy (c : Ctl) (o : OpE) (s : State) : Host.Outcome State Fault Refusal := collWord true c o s

/-! ### Near-memory packets (10 R243) -/

/-- Alignment of t for each kind. -/
def nmoAlign : Nat → Nat
  | 0 => 16
  | 1 | 3 | 4 => 32
  | _ => 8

/-- A packet issued: with .acq.rel a release first (10 R244), then t is translated and the operand block captured; the operation's words are
the block, t, its physical address and the block's location. -/
def nmoWord (fn : Nat) (c : Ctl) (o : OpE) (s : State) : Host.Outcome State Fault Refusal :=
  engWord c ((({} : Meta).reads false [(o.a, false), (o.b, false)])) 2 none s (fun x s L =>
    let t := src64 x o.a
    let off := src64 x o.b
    let f1 : Option Fail := if t / 2 ^ 48 = 0 then (if t % nmoAlign fn = 0 then none else some (1, 0x06, t)) else some (0, 0x07, t)
    let f2 : Option Fail := if off % 64 != 0 then some (1, 0x06, off) else if L.rc.scr < off + 64 then some (2, 0x05, off) else none
    match firstFail [f1, f2] with
    | some q => .trap q
    | none =>
      match (if o.bits 44 42 = 0 then none else relStop s x x.act (decide (4 ≤ o.bits 41 39))) with
      | some r => r
      | none =>
      match prepare x s (.packet (fn != 5)) false true 8 [(x.low, t)] with
      | .res r => r
      | .go s1 ps _ =>
        match ps.head?.map LaneAcc.place with
        | some (.pa pa stb) =>
          let loc := storeLoc x.G.tile x.G.core (L.scrBase x.G.lin + off)
          if spaceOf pa = 3 then .trap { code := 0x07, addr := t }
          else if s1.isPoisoned loc then .trap { code := 0x0B }
          else
            let blk := (List.range 8).map (fun i => s1.readN (loc + 8 * i) 8)
            .done (engIssue s1 x { (engOp s1 x 2 0 (0x200 + fn) (dwords (blk ++ [t, pa, loc]))) with d := o.bits 48 45 + 16 * o.bits 38 38, stb }) []
        | _ => .trap { code := 0x07, addr := t })

/-- NMO.cas2 (10 R243). -/
def execNmoCas2 (c : Ctl) (o : OpE) (s : State) : Host.Outcome State Fault Refusal := nmoWord 0 c o s
/-- NMO.cas4 (10 R243). -/
def execNmoCas4 (c : Ctl) (o : OpE) (s : State) : Host.Outcome State Fault Refusal := nmoWord 1 c o s
/-- NMO.fop (10 R243). -/
def execNmoFop (c : Ctl) (o : OpE) (s : State) : Host.Outcome State Fault Refusal := nmoWord 2 c o s
/-- NMO.enq (10 R243). -/
def execNmoEnq (c : Ctl) (o : OpE) (s : State) : Host.Outcome State Fault Refusal := nmoWord 3 c o s
/-- NMO.deq (10 R243). -/
def execNmoDeq (c : Ctl) (o : OpE) (s : State) : Host.Outcome State Fault Refusal := nmoWord 4 c o s
/-- NMO.chase (10 R243). -/
def execNmoChase (c : Ctl) (o : OpE) (s : State) : Host.Outcome State Fault Refusal := nmoWord 5 c o s

end Sys2Proof.Machine
end

