-- ==== Sys2Proof/Machine/Matrix.lean ====
section
/-!
DEFINITION. Matrix instructions and the matrix engine's steps (spec 11 R247 to R268; 03 R79, R81, R82, R92).
-/

namespace Sys2Proof.Machine

/-! ### Formats and blocks (11 R250, R252) -/

/-- Element formats of the A and B operands. -/
inductive MatEl where
  | bf16 | e4m3 | e5m2 | bx8 | bx4 | i8 | n8
  deriving DecidableEq, Repr

/-- Formats of A and of B of a format pair. -/
def matA : Nat → MatEl
  | 0 => .bf16 | 1 | 2 => .e4m3 | 3 | 4 => .e5m2 | 5 => .bx8 | 6 => .bx4 | 7 => .i8 | _ => .n8
def matB : Nat → MatEl
  | 0 => .bf16 | 1 | 3 => .e4m3 | 2 | 4 => .e5m2 | 5 => .bx8 | 6 => .bx4 | 7 => .i8 | _ => .n8
/-- Elements of a 48-byte row. -/
def matE (fmt : Nat) : Nat := if fmt = 0 then 24 else if fmt = 6 then 96 else 48
def isBx (fmt : Nat) : Bool := fmt == 5 || fmt == 6

/-- Byte i of a parameter block held as eight dwords, and n bytes from i. -/
def blkN (w : List DWord) (i n : Nat) : Nat :=
  (List.range n).foldl (fun t k => t + (w.getD ((i + k) / 8) 0).toNat / 2 ^ (8 * ((i + k) % 8)) % 256 * 2 ^ (8 * k)) 0

/-- Fields of a parameter block. -/
structure MatBlk where
  abase : Nat
  ks : Nat
  fmt : Nat
  init : Bool
  acc : Nat
  bstr : Nat
  baddr : Nat
  abmp : Nat
  bbmp : Nat
  aexp : Nat
  bexp : Nat
  axs : Nat
  bxs : Nat
  koff : Nat
  deriving DecidableEq, Repr

def matBlk (w : List DWord) : MatBlk :=
  { abase := blkN w 0 1, ks := blkN w 1 1, fmt := blkN w 2 1, init := (blkN w 3 1).testBit 7, acc := blkN w 3 1 % 8,
    bstr := blkN w 4 4, baddr := blkN w 8 8, abmp := blkN w 16 8, bbmp := blkN w 24 8, aexp := blkN w 32 8, bexp := blkN w 40 8,
    axs := blkN w 48 2, bxs := blkN w 50 2, koff := blkN w 52 1 }

/-- Exponent pairs of a row (11 R256). -/
def matNb (b : MatBlk) : Nat := (b.koff + b.ks * matE b.fmt + 31) / 32

/-- A reserved byte that is not zero, a field out of range or a reserved FMT (11 R251 step 3). -/
def matBad (w : List DWord) (b : MatBlk) (sparse : Bool) : Bool :=
  blkN w 53 11 != 0 || blkN w 3 1 / 8 % 16 != 0 || b.ks == 0 || decide (8 < b.ks) || decide (8 < b.fmt) || decide (31 < b.koff) ||
  (!sparse && (b.abmp != 0 || b.bbmp != 0)) ||
  (!isBx b.fmt && (b.aexp != 0 || b.bexp != 0 || b.axs != 0 || b.bxs != 0 || b.koff != 0))

/-- Does an address name the tile window or core scratch (11 R251 step 5)? -/
def localWin (va : Nat) : Bool :=
  va / 2 ^ 40 == 0xFFFF81 || (va / 2 ^ 40 == 0xFFFF80 && decide (0x10000 ≤ va % 2 ^ 40))

/-- The ranges of a job: address, alignment, length (11 R255 to R257). -/
def matRanges (b : MatBlk) (w : Nat) (sparse : Bool) : List (Nat × Nat × Nat) :=
  [(b.baddr, 16, 31 * b.bstr + 48 * b.ks)] ++
  (if sparse then [(b.abmp, 16, w * b.ks * 16), (b.bbmp, 16, 32 * b.ks * 16)] else []) ++
  (if isBx b.fmt then [(b.aexp, 2, (w - 1) * b.axs + 2 * matNb b), (b.bexp, 2, 31 * b.bxs + 2 * matNb b)] else [])

/-- Steps 5 to 7 of R251. -/
def matAddr (G : Group) (L : Launch) (b : MatBlk) (sparse : Bool) : Option TrapInfo :=
  let rs := matRanges b G.w sparse
  match rs.find? (fun r => !localWin r.1) with
  | some r => some { code := 0x07, addr := r.1 }
  | none =>
    match rs.find? (fun r => r.1 % r.2.1 != 0) with
    | some r => some { code := 0x06, addr := r.1 }
    | none =>
      if b.bstr % 16 != 0 || (isBx b.fmt && (b.axs % 2 != 0 || b.bxs % 2 != 0)) then some { code := 0x06, addr := b.baddr }
      else firstFail (rs.map (fun r => rangeFail G L false 1 r.1 r.2.2))

/-! ### Issue -/

/-- The A rows captured from every lane (11 R253); none when a word is marked. -/
def captureA (G : Group) (b : MatBlk) : Option (FMap Word) :=
  let regs := List.range (12 * b.ks)
  if G.lanes.any (fun l => regs.any (fun k => l.vpsn (b.abase + k))) then none
  else some ((List.range G.lanes.length).flatMap (fun r => regs.map (fun k =>
    (96 * r + k, match G.lane? r with | some l => l.vreg (b.abase + k) | none => 0))))

/-- A settled: the latch when it is held and agrees, else a capture (11 R254). -/
def settleA (G : Group) (b : MatBlk) (sparse : Bool) (job : Nat) : Except TrapInfo ALatch :=
  match G.alatch with
  | some a =>
    if a.ks = b.ks ∧ matA a.fmtA = matA b.fmt ∧ a.koff = b.koff then .ok a else .error { code := 0x07 }
  | none =>
    match captureA G b with
    | none => .error { code := 0x0B }
    | some rows => .ok { rows, ks := b.ks, fmtA := b.fmt, koff := b.koff, sparse, job, exps := [], bits := [], psn := false, bitPsn := false }

/-- MMA and MMAS (11 R251). -/
def mmaWord (sparse : Bool) (c : Ctl) (ru : Bool) (o : OpE) (s : State) : Host.Outcome State Fault Refusal :=
  engWord c (({} : Meta).read false o.a false) 1 none s (fun x s L =>
    let off := srcScalar x .n32 32 o.a
    if off % 64 != 0 then .trap { code := 0x06, addr := off }
    else if L.rc.scr < off + 64 then .trap { code := 0x05, addr := off }
    else
      let loc := storeLoc x.G.tile x.G.core (L.scrBase x.G.lin + off)
      let w := dwords ((List.range 8).map (fun i => s.readN (loc + 8 * i) 8))
      let b := matBlk w
      if s.isPoisoned loc then .trap { code := 0x0B }
      else if matBad w b sparse then .trap { code := 0x07 }
      else if x.G.t ≤ b.acc || decide (x.G.v < b.abase + 12 * b.ks) then .trap { code := 0x03 }
      else match matAddr x.G L b sparse with
        | some t => .trap t
        | none =>
          match settleA x.G b sparse s.nextId with
          | .error t => .trap t
          | .ok a =>
            let op := { (engOp s x 1 0 (if sparse then 0x101 else 0x100) w) with ty := b.fmt, tileNo := b.acc, a := some a }
            .done ((engIssue s x op).updGroup x.g (fun G => { G with alatch := if ru then some a else none })) [])

/-- MMA (11 R258). -/
def execMma (c : Ctl) (ru : Bool) (o : OpE) (s : State) : Host.Outcome State Fault Refusal := mmaWord false c ru o s
/-- MMAS (11 R258). -/
def execMmas (c : Ctl) (ru : Bool) (o : OpE) (s : State) : Host.Outcome State Fault Refusal := mmaWord true c ru o s

/-- The tile of bits 48:46. -/
def tileOf (o : OpE) : Nat := o.bits 48 46

/-- ACCZ (11 R260). -/
def execAccz (c : Ctl) (o : OpE) (s : State) : Host.Outcome State Fault Refusal :=
  engWord c { accs := [tileOf o] } 1 none s (fun x s _ =>
    .done (engIssue s x { (engOp s x 1 0 0x102 []) with tileNo := tileOf o }) [])

/-- Rows of a transfer checked at issue (11 R263). -/
def rowChecks (G : Group) (L : Launch) (write : Bool) (al a stride n : Nat) : Option TrapInfo :=
  firstFail (multFail al stride :: (List.range G.w).map (fun r => rangeFail G L write al (rowAt a stride r) n))

/-- ACCLD (11 R260): operands are the address and the stride. -/
def execAccld (c : Ctl) (o : OpE) (s : State) : Host.Outcome State Fault Refusal :=
  engWord c { (({} : Meta).reads false [(o.a, false), (o.b, false)]) with accs := [tileOf o] } 1 none s (fun x s L =>
    let a := src64 x o.a
    let st := src64 x o.b
    match rowChecks x.G L false 4 a st 128 with
    | some t => .trap t
    | none => .done (engIssue s x { (engOp s x 1 0 0x103 (dwords [a, st])) with tileNo := tileOf o }) [])

/-- Row bytes and alignment of an ACCST type (11 R261). -/
def accstRow : Nat → Nat × Nat
  | 0x8 | 0x2 => (128, 4)
  | 0x9 | 0xA => (64, 2)
  | 0xB | 0xC => (32, 1)
  | 0xD => (34, 2)
  | _ => (18, 2)

/-- ACCST (11 R261): operands are the address, the stride and cbase. -/
def execAccst (c : Ctl) (o : OpE) (s : State) : Host.Outcome State Fault Refusal :=
  let cb := o.src3.getD (.imm 0)
  engWord c { (({} : Meta).reads false [(o.a, false), (o.b, false), (cb, false)]) with accs := [tileOf o] } 1 none s (fun x s L =>
    let a := src64 x o.a
    let st := src64 x o.b
    let ty := o.bits 45 42
    match rowChecks x.G L true (accstRow ty).2 a st (accstRow ty).1 with
    | some t => .trap t
    | none => .done (engIssue s x { (engOp s x 1 0 0x104 (dwords [a, st, srcScalar x .n32 32 cb])) with
        tileNo := tileOf o, ty := ty, rm := o.bits 41 39, sat := (o.bits 38 38 == 1), d := o.bits 37 34 }) [])

/-- MQRY (11 R264); a tile's flags are those of completed jobs, since a job's own stand with it until it ends (11 R259). -/
def execMqry (c : Ctl) (o : OpE) (s : State) : Host.Outcome State Fault Refusal :=
  let item := o.bits 48 45
  let tile := o.bits 44 42
  let m := { (({} : Meta).write o.dst false) with accs := if item = 2 then [tile] else [] }
  issueWord c m s (fun x s =>
    let jobs := (s.ops.filter (fun e => e.2.g == x.g && e.2.cls == 1 && !e.2.fin)).length
    let v := match item with
      | 0 => 0x1FF + 8 * 2 ^ 16 + 8 * 2 ^ 24
      | 1 => x.G.t + jobs * 2 ^ 8 + x.G.alatch.isSome.toNat * 2 ^ 16
      | 2 => (x.G.acc.lookD { words := [], flags := 0 } tile).flags.toNat
      | _ => (s.coreAt x.G.tile x.G.core).resets % 2 ^ 32
    .done (s.updGroup x.g (fun G => putPlain x G o.dst false (fun _ => v))) [])

/-! ### The engine's steps (11 R258 to R262, R265) -/

def AccTile.zero : AccTile := { words := [], flags := 0 }
def accTile (G : Group) (t : Nat) : AccTile := G.acc.lookD AccTile.zero t
def putAcc (G : Group) (t : Nat) (a : AccTile) : Group := { G with acc := G.acc.putD AccTile.zero t a }

/-- Bytes read by a job, n at a time; local windows do not fail. -/
def matRead (s : State) (o : EngOp) (n : Nat) (vas : List Nat) : State × List Nat × Bool :=
  match engReads s o false n vas with
  | (s1, .ok vs) => (s1, vs.flatMap (fun v => (List.range n).map (fun i => v.1 / 2 ^ (8 * i) % 256)), vs.any Prod.snd)
  | (s1, .error _) => (s1, [], false)

/-- Exponent bytes of rows, keyed 1024 r + byte. -/
def matExps (s : State) (o : EngOp) (a stride nb rows : Nat) : State × FMap Nat × Bool :=
  (List.range rows).foldl (fun (t : State × FMap Nat × Bool) r =>
    let q := matRead t.1 o 2 ((List.range nb).map (fun b => a + r * stride + 2 * b))
    (q.1, t.2.1 ++ (List.range (2 * nb)).map (fun i => (1024 * r + i, q.2.1.getD i 0)), t.2.2 || q.2.2)) (s, [], false)

/-- Bitmap bytes of rows, keyed 1024 r + byte (11 R257). -/
def matBits (s : State) (o : EngOp) (a ks rows : Nat) : State × FMap Nat × Bool :=
  (List.range rows).foldl (fun (t : State × FMap Nat × Bool) r =>
    let q := matRead t.1 o 4 ((List.range (4 * ks)).map (fun i => a + r * ks * 16 + 4 * i))
    (q.1, t.2.1 ++ (List.range (16 * ks)).map (fun i => (1024 * r + i, q.2.1.getD i 0)), t.2.2 || q.2.2)) (s, [], false)

/-- Raw element e of a row's 48 bytes (11 R252). -/
def rawEl (f : MatEl) (bytes : List Nat) (e : Nat) : Nat :=
  match f with
  | .bf16 => bytes.getD (2 * e) 0 + 256 * bytes.getD (2 * e + 1) 0
  | .bx4 => bytes.getD (e / 2) 0 / 2 ^ (4 * (e % 2)) % 16
  | _ => bytes.getD e 0

/-- A floating element's value; e0 and e1 are its block's exponents. -/
def elVal (f : MatEl) (x e0 e1 : Nat) : Fv :=
  match f with
  | .bf16 => Fmt.bf16.read x
  | .e4m3 => Fmt.e4m3.read x
  | .e5m2 => Fmt.e5m2.read x
  | .bx8 => BxFmt.bx8.read e0 e1 x
  | .bx4 => BxFmt.bx4.read e0 e1 x
  | _ => .fin false 0 0

/-- Elements of a row at K-step st: raw codes with their values, or none where the bitmap has 0. -/
def rowEls (f : MatEl) (b : MatBlk) (st : Nat) (bytes : List Nat) (exps bits : FMap Nat) (row : Nat) (sparse : Bool) :
    List (Option (Nat × Fv)) :=
  (List.range (matE b.fmt)).map (fun e =>
    if sparse && !(bits.lookD 0 (1024 * row + 16 * st + e / 8)).testBit (e % 8) then none
    else
      let x := rawEl f bytes e
      let pr := (b.koff + st * matE b.fmt + e) / 32
      some (x, elVal f x (exps.lookD 0 (1024 * row + 2 * pr)) (exps.lookD 0 (1024 * row + 2 * pr + 1))))

/-- One word of a step (11 R258; 03 R92): flags raised, and the word. -/
def matWord (f : MatEl) (base : Nat) (ps : List ((Nat × Fv) × (Nat × Fv))) : Nat × Nat :=
  let ev : FEnv := { key := 0, ctr := 0, fl := 0 }
  match f with
  | .i8 => (0, modW 32 (ps.foldl (fun t p => t + valOf true 8 p.1.1 * valOf true 8 p.2.1) (base : Int)))
  | .n8 => (0, modW 32 (ps.foldl (fun t p => t + (p.1.1 * p.2.1 : Nat)) (base : Int)))
  | _ =>
    let c := Fmt.f32.read base
    let vs := c :: ps.flatMap (fun p => [p.1.2, p.2.2])
    if vs.any Fv.isNan then (if vs.any Fv.isSnan then flINV.toNat else 0, 0x7FC00000)
    else
      let r := Fmt.f32.sum .rne false ev (ps.map (fun p => (p.1.2, p.2.2))) [c]
      (r.1.fl.toNat, r.2)

/-- What a job has read of A's exponents and bitmap, given to every holder of the captured rows (11 R254). -/
def shareA (s : State) (o : EngOp) (a : ALatch) : State :=
  let put := fun (q : Option ALatch) => match q with | some b => if b.job = a.job then some a else some b | none => none
  let s1 := s.updGroup o.g (fun G => { G with alatch := put G.alatch })
  { s1 with ops := s1.ops.mapV (fun _ q => if q.g == o.g then { q with a := put q.a } else q) }

/-- A's exponents and bitmap read by the job that captured it, once. -/
def fillA (s : State) (n : Nat) (o : EngOp) (b : MatBlk) (w : Nat) (a : ALatch) : State × ALatch :=
  if a.job != n then (s, a)
  else
    let q := if isBx b.fmt && a.exps.isEmpty then matExps s o b.aexp b.axs (matNb b) w else (s, a.exps, false)
    let r := if a.sparse && a.bits.isEmpty then matBits q.1 o b.abmp b.ks w else (q.1, a.bits, false)
    let a1 := { a with exps := q.2.1, bits := r.2.1, psn := a.psn || q.2.2, bitPsn := a.bitPsn || r.2.2 }
    (shareA r.1 o a1, a1)

/-- Addresses in every line of n bytes from a. -/
def rowEnds (a n : Nat) : List Nat := (List.range (n / lineBytes + 1)).map (fun i => a + lineBytes * i) ++ [a + n - 1]

/-- Addresses in every line that a K-step reads. -/
def stepVas (n : Nat) (o : EngOp) (w : Nat) (a : ALatch) : List Nat :=
  let b := matBlk o.ops
  let mine := a.job == n
  List.flatten [
    (List.range 32).flatMap (fun c => rowEnds (b.baddr + c * b.bstr + 48 * o.done.length) 48),
    if isBx b.fmt then (List.range 32).flatMap (fun c => rowEnds (b.bexp + c * b.bxs) (2 * matNb b)) else [],
    if o.kind = 0x101 then (List.range 32).flatMap (fun c => rowEnds (b.bbmp + c * b.ks * 16) (16 * b.ks)) else [],
    if mine && isBx b.fmt && a.exps.isEmpty then (List.range w).flatMap (fun r => rowEnds (b.aexp + r * b.axs) (2 * matNb b)) else [],
    if mine && a.sparse && a.bits.isEmpty then (List.range w).flatMap (fun r => rowEnds (b.abmp + r * b.ks * 16) (16 * b.ks)) else []]

/-- May every line of a list be read, with nothing at its home to hold the access? -/
def stepReady (s : State) (o : EngOp) (vas : List Nat) : State × Bool :=
  vas.foldl (fun r va => if r.2 then (match engPlace r.1 o .rd false 1 va with | (s1, .ok _) => (s1, true) | (s1, .error _) => (s1, false)) else r)
    (s, true)

/-- One K-step of a job (11 R258). Its flags stay with the job until the last (R259). -/
def kStep (s : State) (n : Nat) (o : EngOp) (G : Group) (a0 : ALatch) : State :=
  let b := matBlk o.ops
  let st := o.done.length
  let sparse := o.kind == 0x101
  let fa := fillA s n o b G.w a0
  let a := fa.2
  let bx := if isBx b.fmt then matExps fa.1 o b.bexp b.bxs (matNb b) 32 else (fa.1, [], false)
  let bm := if sparse then matBits bx.1 o b.bbmp b.ks 32 else (bx.1, [], false)
  let cols := (List.range 32).foldl (fun (t : State × List (List Nat) × Bool) c =>
    let q := matRead t.1 o 4 ((List.range 12).map (fun i => b.baddr + c * b.bstr + 48 * st + 4 * i))
    (q.1, t.2.1 ++ [q.2.1], t.2.2 || q.2.2)) (bm.1, [], false)
  let bEls := (List.range 32).map (fun c => rowEls (matB b.fmt) b st (cols.2.1.getD c []) bx.2.1 bm.2.1 c sparse)
  let aEls := (List.range G.w).map (fun r =>
    let bytes := (List.range 12).flatMap (fun k =>
      let x := (a.rows.lookD 0 (96 * r + 12 * st + k)).toNat
      (List.range 4).map (fun i => x / 2 ^ (8 * i) % 256))
    rowEls (matA b.fmt) b st bytes a.exps a.bits r (sparse && a.sparse))
  let t0 := accTile G o.tileNo
  let psn := bx.2.2 || bm.2.2 || cols.2.2 || a.psn || (sparse && a.bitPsn)
  let t1 := (List.range G.w).foldl (fun (t : AccTile) r => (List.range 32).foldl (fun (t : AccTile) c =>
    let base := if st = 0 && b.init then 0 else (t0.words.lookD 0 (32 * r + c)).toNat
    let ps := ((aEls.getD r []).zip (bEls.getD c [])).filterMap (fun p => match p with
      | (some x, some y) => some (x, y)
      | _ => none)
    let q := matWord (matA b.fmt) base ps
    { words := t.words.putD 0 (32 * r + c) (BitVec.ofNat 32 q.2), flags := t.flags ||| BitVec.ofNat 8 q.1 }) t) { t0 with flags := 0 }
  let fl := o.fl ||| t1.flags ||| (if psn then 32 else 0)
  let last := st + 1 == b.ks
  let t2 := { t1 with flags := if last then t0.flags ||| fl else t0.flags }
  let s1 := (cols.1.updGroup o.g (fun G => putAcc G o.tileNo t2)).updOp n (fun o => { o with done := setAdd o.done st, fl := fl })
  if last then opFinish s1 n else s1

/-- A K-step made, once its lines can be read. -/
def kTry (s : State) (n : Nat) (o : EngOp) (G : Group) (a : ALatch) : State :=
  match stepReady s o (stepVas n o G.w a) with
  | (s1, true) => kStep s1 n o G a
  | (s1, false) => s1

/-- ACCLD performed (11 R260). -/
def accLoad (s : State) (n : Nat) (o : EngOp) (G : Group) : State :=
  let vas := (List.range G.w).flatMap (fun r => (List.range 32).map (fun k => (rowAt (o.word 0) (o.word 1) r + 4 * k) % 2 ^ 64))
  match engReads s o true 4 vas with
  | (s1, .error e) => engStop s1 n o o.item e
  | (s1, .ok vs) =>
    let words := (List.range vs.length).foldl (fun (m : FMap Word) i => m.putD 0 i (BitVec.ofNat 32 (vs.getD i (0, false)).1)) []
    opFinish ((engCount s1 o vas).updGroup o.g (fun G => putAcc G o.tileNo { words, flags := if vs.any Prod.snd then 32 else 0 })) n

/-- Row r of a tile converted: flags raised, and its bytes (11 R261, R262). -/
def accRow (o : EngOp) (t : AccTile) (r : Nat) : Nat × List Nat :=
  let ws := (List.range 32).map (fun n => (t.words.lookD 0 (32 * r + n)).toNat)
  let env := fun (n : Nat) => ({ key := o.seed, ctr := BitVec.ofNat 32 (o.word 2 + 32 * r + n), fl := 0 } : FEnv)
  let le := fun (k v : Nat) => (List.range k).map (fun i => v / 2 ^ (8 * i) % 256)
  let rm : Rm := match o.rm with | 0 => .rne | 1 => .rtz | 2 => .rup | 3 => .rdn | _ => .rsr
  let conv := fun (f : Fmt) (k : Nat) =>
    let rs := (List.range 32).map (fun n => f.convert rm o.sat (env n) (Fmt.f32.read (ws.getD n 0)))
    (rs.foldl (fun t q => t ||| q.1.fl.toNat) 0, rs.flatMap (fun q => le k q.2))
  let block := fun (f : BxFmt) =>
    let xs := ws.map Fmt.f32.read
    let ex := f.exps o.d xs
    let rs := (List.range 32).map (fun n => f.element rm (env n) ex (xs.getD n (.fin false 0 0)))
    let (e0, e1) := ex.getD (0xFF, 0xFF)
    let el := fun (n : Nat) => (rs.getD n (env n, 0)).2
    (rs.foldl (fun t q => t ||| q.1.fl.toNat) 0,
      e0 :: e1 :: (if f.mb = 6 then (List.range 32).map el else (List.range 16).map (fun k => el (2 * k) + 16 * el (2 * k + 1))))
  match o.ty with
  | 0x8 | 0x2 => (0, ws.flatMap (le 4))
  | 0x9 => conv .f16 2
  | 0xA => conv .bf16 2
  | 0xB => conv .e4m3 1
  | 0xC => conv .e5m2 1
  | 0xD => block .bx8
  | _ => block .bx4

/-- Pieces of a row: aligned words wholly inside it, else bytes (11 R261). -/
def rowPieces (va : Nat) (bytes : List Nat) : Nat → List (Nat × Nat × Nat)
  | 0 => []
  | k + 1 =>
    match bytes with
    | [] => []
    | b0 :: rest =>
      match rest with
      | b1 :: b2 :: b3 :: more =>
        if va % 4 = 0 then (4, va, b0 + 256 * b1 + 65536 * b2 + 16777216 * b3) :: rowPieces ((va + 4) % 2 ^ 64) more k
        else (1, va, b0) :: rowPieces ((va + 1) % 2 ^ 64) rest k
      | _ => (1, va, b0) :: rowPieces ((va + 1) % 2 ^ 64) rest k

/-- Places of the pieces of a row. -/
def piecePlaces (s : State) (o : EngOp) : List (Nat × Nat × Nat) → State × Except Stop (List (Nat × Place × Nat))
  | [] => (s, .ok [])
  | p :: ps =>
    match engPlace s o .wr true p.1 p.2.1 with
    | (s1, .error e) => (s1, .error e)
    | (s1, .ok pl) =>
      match piecePlaces s1 o ps with
      | (s2, .error e) => (s2, .error e)
      | (s2, .ok qs) => (s2, .ok ((p.1, pl, p.2.2) :: qs))

/-- The bytes of the pieces of a row, each with its VA and place. -/
def pieceBytes (ps : List (Nat × Nat × Nat)) (qs : List (Nat × Place × Nat)) : List (Nat × Place) :=
  (ps.zip qs).flatMap (fun p => match p.2.2.1 with
    | .pa a b => (List.range p.1.1).map (fun i => (p.1.2.1 + i, .pa (a + i) b))
    | q => [(p.1.2.1, q)])

/-- Rows of ACCST written from row r on; the row that stops, stops the operation (11 R263). A row for the fabric waits for room at its port
and is a transfer of its own (19 R404; log 32). -/
def accRows (s : State) (n : Nat) (o : EngOp) (t : AccTile) (w : Nat) : Nat → State
  | 0 => opFinish s n
  | k + 1 =>
    let r := w - (k + 1)
    let q := accRow o t r
    let psn := (t.flags.toNat).testBit 5
    let pcs := rowPieces (rowAt (o.word 0) (o.word 1) r) q.2 q.2.length
    match piecePlaces s o pcs with
    | (s1, .error e) => engStop s1 n o o.item e
    | (s1, .ok ps) =>
      let bs := pieceBytes pcs ps
      if !engRoom s1 (fabricFlits 1 (bs.map Prod.snd)) then s1
      else
      let s0 := (fabricFlits 1 (bs.map Prod.snd)).foldl (engPacket o bs) (engCount s1 o (pcs.map (fun p => p.2.1)))
      let s2 := ps.foldl (fun s p => engPut s o p.1 p.2.2 psn p.2.1) s0
      let locs := ps.flatMap (fun p => match placeLoc s2 p.2.1 with
        | some l => (List.range p.1).map (fun i => (l + i, psn))
        | none => [])
      let o1 := { o with item := o.item ||| q.1, done := setAdd o.done r }
      accRows ((clearStored s2 1 locs).updOp n (fun _ => o1)) n o1 t w k

/-- The operation that the engine of a core serves next: among the oldest pending of each group, the highest class, then the
earliest issue (11 R265); one that waits for a fault is passed over. -/
def mxNext (s : State) (tile core : Nat) : Option (Nat × EngOp) :=
  let mine := s.ops.filter (fun e => e.2.tile == tile && e.2.core == core && decide (0x100 ≤ e.2.kind) && decide (e.2.kind < 0x200) && !e.2.fin)
  let first := mine.filter (fun e => !(mine.any (fun f => f.2.g == e.2.g && decide (f.1 < e.1))) &&
    (match e.2.wait with | some (k, _) => !s.hasFault k | none => true))
  let cls := fun (e : Nat × EngOp) => (match s.launches.look e.2.launch with | some L => L.rc.cls | none => 0 : Nat)
  first.foldl (fun (b : Option (Nat × EngOp)) e => match b with | some q => if cls q < cls e then some e else b | none => some e) none

/-- Has an operation completed a step (11 R266)? -/
def mxStepped (o : EngOp) (s : State) (n : Nat) : Bool := match s.ops.look n with | some q => q.fin || q.done.length != o.done.length && decide (o.kind < 0x102) | none => true

/-- One step of a matrix engine (MATRIX_KSTEP). -/
def execMatrixKstep (tile core : Nat) (s : State) : Host.Outcome State Fault Refusal :=
  match mxNext s tile core with
  | none => .next s
  | some (n, o0) =>
    match s.groups.look o0.g with
    | none => .next s
    | some G =>
      let o := { o0 with wait := none }
      let s0 := s.updOp n (fun _ => o)
      let s1 := match o.kind, o.a with
        | 0x100, some a => kTry s0 n o G a
        | 0x101, some a => kTry s0 n o G a
        | 0x102, _ => opFinish (s0.updGroup o.g (fun G => putAcc G o.tileNo AccTile.zero)) n
        | 0x103, _ => accLoad s0 n o G
        | 0x104, _ => accRows s0 n o (accTile G o.tileNo) G.w (G.w - o.done.length)
        | _, _ => s0
      .next (if mxStepped o s1 n then s1.updCore tile core (fun c => { c with mxTime := s.clock }) else s1)

/-- Pending matrix work of a core. -/
def mxPending (s : State) (tile core : Nat) : Bool := decide (0 < jobLen s tile core)

/-- A matrix engine with pending work and no progress for 2^22 cycles is reset (11 R266). -/
def execMatrixEngineReset (tile core : Nat) (s : State) : Host.Outcome State Fault Refusal :=
  if mxPending s tile core && decide ((s.coreAt tile core).mxTime + 2 ^ 22 ≤ s.clock) then
    let mine := fun (G : Group) => G.tile == tile && G.core == core && decide (0 < G.t)
    let parts := ((s.groups.filter (fun e => mine e.2)).map (fun e => s.partNo e.2)).dedup
    let gs := (s.groups.filter (fun e => mine e.2)).map Prod.fst
    let s1 := { s with
      ops := s.ops.keep (fun _ o => !(gs.contains o.g && o.cls == 1)),
      groups := s.groups.mapV (fun _ G => if mine G then
        { G with cnt := G.cnt.setAt 1 0, acc := [], alatch := none, mreset := true } else G) }
    let s2 := s1.updCore tile core (fun c => { c with resets := c.resets + 1, mxTime := s.clock })
    let body := leBytes 4 (s2.coreAt tile core).resets ++ leBytes 2 tile ++ leBytes 1 core
    .next ((parts.foldl (fun s p => s.postEvent p 5 body) s2).postDevice 5 body)
  else .next s

end Sys2Proof.Machine
end

