-- ==== Sys2Proof/Machine/EngineEvents.lean ====
section
/-!
DEFINITION. What the copy engines and the Sloe units do: chunks, lossy blocks, collectives, packets, and the report of
completions (spec 10 R227 to R244; 17 R368; 19 R403; 23 R436).
-/

namespace Sys2Proof.Machine

/-! ### Completion (10 R227, R230) -/

/-- The oldest operation of a class in a group. -/
def oldestOp (s : State) (g cls : Nat) : Option (Nat × EngOp) :=
  (s.ops.filter (fun e => e.2.g == g && e.2.cls == cls)).foldl (fun (b : Option (Nat × EngOp)) e =>
    match b with
    | some q => if e.2.pos < q.2.pos then some e else b
    | none => some e) none

/-- ENGINE_COMPLETION: the oldest operation of the class, once finished and acknowledged by the remote homes it wrote to (19 R402), is
reported: the counter falls, an error is kept for WAITC. -/
def execEngineCompletion (g cls : Nat) (s : State) : Host.Outcome State Fault Refusal :=
  match oldestOp s g cls with
  | none => .next s
  | some (n, o) =>
    if !o.fin || opOwes s g cls o.pos then .next s
    else
      let s1 := { s with ops := s.ops.remove n }
      .next (s1.updGroup g (fun G => { G with
        cnt := G.cnt.setAt cls (G.counter cls - 1),
        errs := match o.err with | some e => G.errs ++ [e] | none => G.errs }))

/-! ### Exact copies (10 R233, R234, R236; 17 R368) -/

/-- The buffer of a CPYCB. -/
def cbOf (s : State) (o : EngOp) : Option CBuf := (s.tileAt o.tile).cbufs.look (o.word 0)

/-- Bytes that an exact copy moves. -/
def copyLen (s : State) (o : EngOp) : Nat :=
  match o.kind with
  | 0 => o.word 2
  | 1 => w32 (o.word 2) * hi32 (o.word 2)
  | 2 => (match cbOf s o with | some b => b.z | none => 0)
  | _ => w32 (o.word 3) * hi32 (o.word 3)

/-- Chunks of 4 KiB. -/
def chunkCount (s : State) (o : EngOp) : Nat := (copyLen s o + 4095) / 4096

/-- Destination and source of the word at transfer byte i; a GATH row beyond LIMIT has no source. -/
def copyWord (o : EngOp) (i : Nat) : Nat × Option Nat :=
  match o.kind with
  | 0 => ((o.word 0 + i) % 2 ^ 64, some ((o.word 1 + i) % 2 ^ 64))
  | 1 =>
    let rb := w32 (o.word 2)
    ((rowAt (o.word 0) (o.word 3) (i / rb) + i % rb) % 2 ^ 64, some ((rowAt (o.word 1) (o.word 4) (i / rb) + i % rb) % 2 ^ 64))
  | 2 => (i, some ((o.word 1 + i) % 2 ^ 64))
  | _ =>
    let rb := w32 (o.word 3)
    let k := o.rows.lookD 0 (i / rb)
    ((o.word 0 + i) % 2 ^ 64, if k < w32 (o.word 4) then some ((o.word 1 + k * rb + i % rb) % 2 ^ 64) else none)

/-- Rows of a GATH that a chunk touches and whose index has not been read. -/
def newRows (o : EngOp) (is : List Nat) : List Nat :=
  if o.kind = 3 then ((is.map (· / w32 (o.word 3))).dedup).filter (fun j => (o.rows.look j).isNone) else []

/-- Address of the index of a row. -/
def rowVa (o : EngOp) (j : Nat) : Nat := (o.word 2 + 4 * j) % 2 ^ 64

/-- The indices that a chunk needs: each is read once, and its whole row follows it (10 R236). -/
def readRows (s : State) (n : Nat) (o : EngOp) (is : List Nat) : State × Except Stop EngOp :=
  let js := newRows o is
  match engReads s o true 4 (js.map (rowVa o)) with
  | (s1, .error e) => (s1, .error e)
  | (s1, .ok vs) =>
    let o1 := { o with rows := (js.zip (vs.map Prod.fst)).foldl (fun (m : FMap Nat) q => m.setAt q.1 q.2) o.rows }
    (s1.updOp n (fun _ => o1), .ok o1)

/-- Words of a chunk read: destinations with values and poison marks. -/
def chunkReads (s : State) (o : EngOp) : List Nat → State × Except Stop (List (Nat × Nat × Bool))
  | [] => (s, .ok [])
  | i :: is =>
      let r := match (copyWord o i).2 with
        | some a => engRead s o true 4 a
        | none => (s, .ok (0, false))
      match r with
      | (s2, .error e) => (s2, .error e)
      | (s2, .ok v) =>
        match chunkReads s2 o is with
        | (s3, .error e) => (s3, .error e)
        | (s3, .ok l) => (s3, .ok (((copyWord o i).1, v) :: l))

/-- Location of a byte of a buffer, from that of its first byte. -/
def cbByte (loc off : Nat) : Nat := if 2 ^ 48 ≤ loc then loc + off else tmPa (tmTile loc) (tmOff loc + off)

/-- Places of a chunk's destinations: those of a CPYCB lie in its slot. -/
def chunkPlaces (s : State) (o : EngOp) (ds : List Nat) : State × Except Stop (List Place) :=
  if o.kind = 2 then
    match cbOf s o, o.slot with
    | some b, some sl =>
      let ls := ds.map (fun i => cbByte b.loc (sl * b.z + i))
      let r := ls.foldl (fun (r : State × Bool) l => if r.2 && decide (l < 2 ^ 48) then claimUnit r.1 (.op o.g o.cls o.pos) o.tile l true false else r) (s, true)
      if r.2 then (r.1, .ok (ls.map (fun l => if 2 ^ 48 ≤ l then .loc l else .pa l false))) else (r.1, .error .busy)
    | _, _ => (s, .error (.trap 0x07 0))
  else engPlaces s o true 4 ds

/-- The addresses of a chunk's line requests: its sources and its destinations. -/
def chunkVas (o : EngOp) (is : List Nat) : List Nat :=
  is.flatMap (fun i => (if o.kind = 2 then [] else [(copyWord o i).1]) ++ (copyWord o i).2.toList)

/-- The write packets of a chunk: one for each kilobyte of the destination, which a kilobyte of a straight copy or a GATH that two chunks
share sends once, with the second of them (26 R448). -/
def chunkFlits (o : EngOp) (len chunk : Nat) (vas : List Nat) (ps : List Place) : List (Nat × Nat) :=
  (fabricFlits 4 ps).filterMap (fun q =>
    let va := (((vas.zip ps).find? (fun w => match w.2 with | .pa a _ => a / 1024 == q.1 / 1024 | _ => false)).map Prod.fst).getD 0 / 1024 * 1024
    let lo := max va (o.word 0) - o.word 0
    let hi := min (va + 1024) (o.word 0 + len) - o.word 0
    if o.kind != 0 && o.kind != 3 || lo / 4096 == (hi - 1) / 4096 then some q
    else if o.done.contains (lo / 4096 + (hi - 1) / 4096 - chunk) then some (q.1, 1 + (hi - lo + 127) / 128)
    else none)

/-- The lowest chunk not done. -/
def firstOpen (o : EngOp) (n : Nat) : Nat := ((List.range n).find? (fun i => !o.done.contains i)).getD n

/-- The cycle since which the partition of an operation stands stopped for a drain. -/
def opStopped (s : State) (o : EngOp) : Option Nat :=
  match (s.launches.look o.launch).bind (fun L => s.parts.look L.part) with
  | some P => if P.stopped then some P.stopAt else none
  | none => none

/-- The deadline of a lossy copy: t0 + D, or 8,192 cycles after the stop of a drain (17 R367). -/
def lossyLimit (s : State) (o : EngOp) : Nat :=
  match opStopped s o with | some c => min (o.t0 + o.d) (c + 8192) | none => o.t0 + o.d

/-- Is the operation the head of its channel, with nothing that it waits for? An exact copy does not go on in a stopped
partition (17 R367). -/
def copyReady (s : State) (n : Nat) (o : EngOp) : Bool :=
  (decide (4 ≤ o.kind) || (opStopped s o).isNone) && ((chanHead s o.tile o.ch).map Prod.fst) == some n && (match o.wait with | some (k, _) => !s.hasFault k | none => true)

/-- One chunk of an exact copy moved: its reads return, then it is written (17 R368), once the port has room (19 R404). -/
def moveChunk (s0 : State) (n : Nat) (o : EngOp) (chunk : Nat) : State :=
  let len := copyLen s0 o
  let is := (List.range ((min 4096 (len - 4096 * chunk) + 3) / 4)).map (fun j => 4096 * chunk + 4 * j)
  match readRows s0 n o is with
  | (s1, .error e) => engStop s1 n o 0 e
  | (s1, .ok o1) =>
  match chunkReads s1 o1 is with
  | (s2, .error e) => engStop s2 n o1 0 e
  | (s2, .ok ws) =>
    match chunkPlaces s2 o1 (ws.map Prod.fst) with
    | (s3, .error e) => engStop s3 n o1 0 e
    | (s3, .ok ps) =>
      let fl := chunkFlits o1 len chunk (ws.map Prod.fst) ps
      if !engRoom s3 fl then s3
      else
      let s4 := engCount s3 o1 ((newRows o is).map (rowVa o) ++ chunkVas o1 is)
      let s3 := (engPuts s4 o1 4 fl (ws.map Prod.fst) (ps.zip (ws.map Prod.snd))).updOp n (fun o => { o with done := setAdd o.done chunk })
      if (s3.ops.look n).any (fun o => decide (firstOpen o (chunkCount s3 o) = chunkCount s3 o)) then opFinish s3 n else s3

/-! ### Lossy copies (10 R235) -/

/-- Blocks of a lossy copy. -/
def blockCount (o : EngOp) : Nat :=
  if o.kind = 0x20 then o.word 2 / 256 else w32 (o.word 2) / 256 * hi32 (o.word 2)
/-- Destination and source of block j. -/
def blockAddr (o : EngOp) (j : Nat) : Nat × Nat :=
  if o.kind = 0x20 then ((o.word 0 + 256 * j) % 2 ^ 64, (o.word 1 + 256 * j) % 2 ^ 64)
  else
    let per := w32 (o.word 2) / 256
    ((rowAt (o.word 0) (o.word 3) (j / per) + 256 * (j % per)) % 2 ^ 64, (rowAt (o.word 1) (o.word 4) (j / per) + 256 * (j % per)) % 2 ^ 64)
/-- Counts arrays: the operation's own, and the sources', 0 for none. -/
def lossyCounts (o : EngOp) : Nat × Nat := if o.kind = 0x20 then (o.word 3, o.word 4) else (o.word 5, o.word 7)

/-- The source count of block j. -/
def lossyCount (s : State) (o : EngOp) (j : Nat) : State × Except Stop Nat :=
  let (_, sc) := lossyCounts o
  if sc = 0 then (s, .ok 1)
  else match engRead s o false 1 ((sc + j) % 2 ^ 64) with
    | (s1, .error e) => (s1, .error e)
    | (s1, .ok c) => (s1, .ok c.1)

/-- The block and its source count as they arrive: none when it is poisoned, and a stop when an access stops. -/
def lossyRead (s : State) (o : EngOp) (j : Nat) : State × Except Stop (Option (List Nat × Nat)) :=
  match lossyCount s o j with
  | (s1, .error e) => (s1, .error e)
  | (s1, .ok c) =>
    match engReads s1 o false 4 ((List.range 64).map (fun i => ((blockAddr o j).2 + 4 * i) % 2 ^ 64)) with
    | (s2, .error e) => (s2, .error e)
    | (s2, .ok vs) => if vs.any Prod.snd then (s2, .ok none) else (s2, .ok (some (vs.map Prod.fst, c)))

/-- Destinations of block j. -/
def blockVas (o : EngOp) (j : Nat) : List Nat := (List.range 64).map (fun i => ((blockAddr o j).1 + 4 * i) % 2 ^ 64)

/-- A block written, then its count: 0 for a block that is zeros or that lacked its page (10 R235). Codes in `done`: 4j the block, 4j + 1
its count, 4j + 2 a source that failed, 4j + 3 a block of zeros. A block across two pages of which one fails leaves the bytes of both as they
are (DESIGN CHOICE, log 82). -/
def lossyWrite (s : State) (n : Nat) (o : EngOp) (j : Nat) (blk : Option (List Nat × Nat)) : State :=
  let vals := match blk with | some b => b.1 | none => List.replicate 64 0
  let s1 :=
    if o.done.contains (4 * j) then s
    else match engPlaces s o false 4 (blockVas o j) with
      | (s1, .error e) => engStop s1 n o (4 * j) e
      | (s1, .ok ps) =>
        (engPuts s1 o 4 [] (blockVas o j) (ps.zip (vals.map (fun v => (v, false))))).updOp n (fun o =>
          { o with done := setAdd (if blk.isSome then o.done else setAdd o.done (4 * j + 3)) (4 * j) })
  match s1.ops.look n with
  | none => s1
  | some o1 =>
    if !o1.done.contains (4 * j) || o1.done.contains (4 * j + 1) || o1.wait.isSome then s1
    else match engPlace s1 o1 .wr false 1 (((lossyCounts o).1 + j) % 2 ^ 64) with
      | (s2, .error e) => engStop s2 n o1 (4 * j + 1) e
      | (s2, .ok pl) =>
        let c := if o1.lack.contains (4 * j) || o1.done.contains (4 * j + 3) then 0 else match blk with | some b => b.2 % 256 | none => 0
        (engPut s2 o1 1 c false pl).updOp n (fun o => { o with done := setAdd o.done (4 * j + 1) })

/-- A lossy copy whose blocks and counts are all settled finishes. -/
def lossyEnd (s : State) (n : Nat) : State :=
  match s.ops.look n with
  | none => s
  | some o =>
    if (List.range (blockCount o)).all (fun j => o.done.contains (4 * j) && o.done.contains (4 * j + 1)) then opFinish s n else s

/-- Block j of a lossy copy, or what is left of it: the count of a block that has been written intact; zeros where it did not arrive intact
(`bad`), its source failed, or its time is over. -/
def lossyBlock (s : State) (n : Nat) (o : EngOp) (j : Nat) (bad : Bool) : State :=
  if o.done.contains (4 * j + 2) then lossyWrite s n o j none
  else if o.done.contains (4 * j) && !o.done.contains (4 * j + 3) && !o.lack.contains (4 * j) then
    match lossyCount s o j with
    | (s1, .error e) => engStop s1 n o (4 * j + 2) e
    | (s1, .ok c) => lossyWrite s1 n o j (some ([], c))
  else if bad then lossyWrite s n o j none
  else match lossyRead s o j with
    | (s1, .error e) => engStop s1 n o (4 * j + 2) e
    | (s1, .ok b) => lossyWrite s1 n o j b

/-- COPY_CHUNK_DONE: chunk of an exact copy, at most eight beyond the lowest open one, or block of a lossy copy that has not
passed its deadline; `a.bad`: that block arrived corrupt or was lost (10 R235). -/
def execCopyChunkDone (n : Nat) (a : Arrival) (s : State) : Host.Outcome State Fault Refusal :=
  match s.ops.look n with
  | none => .next s
  | some o0 =>
    if !copyReady s n o0 || o0.isColl || decide (0x100 ≤ o0.kind) then .next s
    else
      let o := { o0 with wait := none }
      let s0 := s.updOp n (fun _ => o)
      if o.kind < 0x20 then
        let cnt := chunkCount s o
        if o.kind = 2 ∧ o.slot.isNone then .next s
        else if cnt = 0 then .next (opFinish s0 n)
        else if cnt ≤ a.chunk ∨ o.done.contains a.chunk ∨ firstOpen o cnt + 8 < a.chunk then .next s
        else .next (moveChunk s0 n o a.chunk)
      else if blockCount o = 0 then .next (opFinish s0 n)
      else if blockCount o ≤ a.chunk ∨ (o.done.contains (4 * a.chunk) ∧ o.done.contains (4 * a.chunk + 1)) then .next s
      else if lossyLimit s o < s.clock ∧ !o.done.contains (4 * a.chunk) then .next s
      else .next (lossyEnd (lossyBlock s0 n o a.chunk a.bad) n)

/-- LOSSY_DEADLINE: after the deadline every block not yet written becomes zeros with count 0; one written in time keeps its count. A copy
that waits behind another of its channel is zeroed then too, out of the channel's order (DESIGN CHOICE, log 82). -/
def execLossyDeadline (n : Nat) (s : State) : Host.Outcome State Fault Refusal :=
  match s.ops.look n with
  | none => .next s
  | some o0 =>
    if o0.fin || !(o0.kind == 0x20 || o0.kind == 0x21) || decide (s.clock ≤ lossyLimit s o0) ||
        (match o0.wait with | some (k, _) => s.hasFault k && o0.item % 4 != 2 | none => false) then .next s
    else
      let s0 := s.updOp n (fun o => { o with wait := none })
      let s1 := (List.range (blockCount o0)).foldl (fun s j =>
        match s.ops.look n with
        | some o =>
          if o.wait.isSome || (o.done.contains (4 * j) && o.done.contains (4 * j + 1)) then s else lossyBlock s n o j true
        | none => s) s0
      .next (lossyEnd s1 n)

/-! ### CPYCB (10 R239) -/

/-- CPYCB_SLOT_ACQUIRE: a CPYCB at the head of its channel takes a free slot, or waits for one behind those that arrived before it
(10 R238). -/
def execCpycbSlotAcquire (n : Nat) (s : State) : Host.Outcome State Fault Refusal :=
  match s.ops.look n with
  | none => .next s
  | some o =>
    match cbOf s o with
    | none => .next s
    | some b =>
      if !(o.kind = 2 ∧ o.slot.isNone ∧ copyReady s n o) ∨ b.waiters.any (fun w => w.1 == n && w.2.2.isEmpty) then .next s
      else if 0 < b.f ∧ !b.waiters.any (fun w => !w.2.1) then
        let r := b.take
        .next ((s.updTile o.tile (fun t => { t with cbufs := t.cbufs.setAt (o.word 0) r.1 })).updOp n (fun o => { o with slot := some r.2 }))
      else .next (s.updTile o.tile (fun t => { t with cbufs := t.cbufs.setAt (o.word 0) { b with waiters := b.waiters ++ [(n, false, [])] } }))

/-! ### Collectives (10 R240 to R242; 23 R436) -/

/-- COLL_CALL_START: the last participant has reached its engine; not in a stopped partition (17 R367). Participants that disagree all fail (10 R240). -/
def execCollCallStart (c : Nat) (s : State) : Host.Outcome State Fault Refusal :=
  match s.calls.look c with
  | none => .next s
  | some q =>
    if q.start.isSome || decide (q.members.length < q.n) || q.members.any (fun m => (s.ops.look m.2).any (fun o => (opStopped s o).isSome)) then
      .next s
    else
      let s1 := { s with calls := s.calls.setAt c { q with start := some s.clock } }
      let ops := q.members.filterMap (fun m => s.ops.look m.2)
      let sig := fun (o : EngOp) => (o.kind, o.word 2, o.word 5 / 2 ^ 32)
      match ops with
      | [] => .next s1
      | o :: os =>
        if os.all (fun p => sig p == sig o) then
          .next (if o.word 2 = 0 then q.members.foldl (fun s m => opFinish s m.2) { s1 with calls := s1.calls.remove c } else s1)
        else match q.members with
          | m :: _ => .next (opError s1 m.2 0x07 0 false)
          | [] => .next s1

/-- An element of a reduction: absent operands pass the other through (03 R93; 10 R241). -/
def collComb (opx ty : Nat) (a b : Option Nat) : Option Nat :=
  match a, b with
  | none, q => q
  | q, none => q
  | some x, some y => some (
    let v0 : FEnv := { key := 0, ctr := 0, fl := 0 }
    match opx with
    | 0 => iAdd 32 x y
    | 1 => (let f := if ty = 8 then Fmt.f32 else Fmt.bf16
            (f.sum .rne true v0 [] [f.read x, f.read y]).2)
    | 2 => iMin (ty == 2) 32 x y
    | _ => iMax (ty == 2) 32 x y)

/-- The tree of R93 over 2^k operands. -/
def collTree (f : Option Nat → Option Nat → Option Nat) : Nat → List (Option Nat) → Option Nat
  | 0, xs => xs.headD none
  | k + 1, xs => collTree f k ((List.range (2 ^ k)).map (fun i => f (xs.getD i none) (xs.getD (i + 2 ^ k) none)))

/-- A NaN that passes through becomes the canonical NaN, and a BF16 subnormal the signed zero that it is read as (03 R76). -/
def collCanon (opx ty x : Nat) : Nat :=
  if opx = 1 then
    let f := if ty = 8 then Fmt.f32 else Fmt.bf16
    if (f.read x).isNan then f.nan else if ty = 10 ∧ x / 2 ^ 7 % 2 ^ 8 = 0 then x / 2 ^ 15 % 2 * 2 ^ 15 else x
  else x

/-- One 4-byte word of a result over the present contributions. -/
def collWordOf (n opx ty : Nat) (xs : List (Option Nat)) : Nat :=
  let k := Nat.clog 2 n
  if ty = 10 then
    let lo := (collTree (collComb opx ty) k (xs.map (Option.map (· % 2 ^ 16)))).getD 0
    let hi := (collTree (collComb opx ty) k (xs.map (Option.map (· / 2 ^ 16)))).getD 0
    collCanon opx ty lo + collCanon opx ty hi * 2 ^ 16
  else collCanon opx ty ((collTree (collComb opx ty) k xs).getD 0)

/-- The operation of rank k in a call. -/
def memberOf (s : State) (q : Call) (k : Nat) : Option (Nat × EngOp) :=
  (q.members.find? (fun m => m.1 == k)).bind (fun m => (s.ops.look m.2).map (fun o => (m.2, o)))

/-- Where rank k's contribution to block b stands in its source, in blocks; none when it contributes nothing. -/
def collSrcBlock (kind n len b k : Nat) : Option Nat :=
  if kind = 1 then (let per := len / n / 256; if b / per = k then some (b % per) else none) else some b
/-- Where block b stands in rank m's destination, in blocks; none when it is not delivered there. -/
def collDstBlock (kind n len b m : Nat) : Option Nat :=
  if kind = 0 then (let per := len / n / 256; if b / per = m then some (b % per) else none) else some b

/-- A contribution read: 64 words with poison, and the source count. -/
def collRead (s : State) (o : EngOp) (j : Nat) : State × Except Stop (List (Nat × Bool) × Nat) :=
  match engReads s o true 4 ((List.range 64).map (fun i => (o.word 0 + 256 * j + 4 * i) % 2 ^ 64)) with
  | (s1, .error e) => (s1, .error e)
  | (s1, .ok vs) =>
    if o.kind = 0x24 ∧ o.word 4 ≠ 0 then
      match engRead s1 o false 1 ((o.word 4 + j) % 2 ^ 64) with
      | (s2, .error e) => (s2, .error e)
      | (s2, .ok (c, _)) => (s2, .ok (vs, c))
    else (s1, .ok (vs, 1))

/-- Contributions of every rank to block b, rank by rank. -/
def collReads (s : State) (q : Call) (kind len b : Nat) : Nat → State × Except (Nat × EngOp × Stop) (List (Option (List (Nat × Bool) × Nat)))
  | 0 => (s, .ok [])
  | k + 1 =>
    match collReads s q kind len b k with
    | (s1, .error e) => (s1, .error e)
    | (s1, .ok l) =>
      match memberOf s1 q k, collSrcBlock kind q.n len b k with
      | some (n, o), some j =>
        (match collRead s1 o j with
          | (s2, .error e) => (s2, .error (n, o, e))
          | (s2, .ok v) => (s2, .ok (l ++ [some v])))
      | _, _ => (s1, .ok (l ++ [none]))

/-- The addresses of 64 words from a block of an array. -/
def wordVas (base j : Nat) : List Nat := (List.range 64).map (fun i => (base + 256 * j + 4 * i) % 2 ^ 64)

/-- Destinations of block b, rank by rank: VAs and places of the words and of the count byte. -/
def collPlaces (s : State) (q : Call) (kind len b : Nat) : Nat → State × Except (Nat × EngOp × Stop) (List (EngOp × Nat × List Nat × List Place × Option Place))
  | 0 => (s, .ok [])
  | k + 1 =>
    match collPlaces s q kind len b k with
    | (s1, .error e) => (s1, .error e)
    | (s1, .ok l) =>
      match memberOf s1 q k, collDstBlock kind q.n len b k with
      | some (n, o), some j =>
        (match engPlaces s1 o true 4 (wordVas (o.word 1) j) with
          | (s2, .error e) => (s2, .error (n, o, e))
          | (s2, .ok ps) =>
            if o.kind = 0x24 then
              match engPlace s2 o .wr false 1 ((o.word 3 + j) % 2 ^ 64) with
              | (s3, .error e) => (s3, .error (n, o, e))
              | (s3, .ok c) => (s3, .ok (l ++ [(o, k, wordVas (o.word 1) j, ps, some c)]))
            else (s2, .ok (l ++ [(o, k, wordVas (o.word 1) j, ps, none)])))
      | _, _ => (s1, .ok l)

/-- The line requests of a block's contributions and deliveries, counted (15 R342). -/
def collCount (s : State) (q : Call) (kind len b : Nat) (ds : List (EngOp × Nat × List Nat × List Place × Option Place)) : State :=
  let s1 := (List.range q.n).foldl (fun s k => match memberOf s q k, collSrcBlock kind q.n len b k with
    | some (_, o), some j => engCount s o (wordVas (o.word 0) j)
    | _, _ => s) s
  ds.foldl (fun s d => engCount s d.1 d.2.2.1) s1

/-- COLL_BLOCK_CLOSE: a block is combined from the contributions in `arrived` and sent to every rank but those in `lostTo`;
in the exact class every contribution arrives and nothing is lost. Of KIND 2 rank b mod N combines: its own contribution and its own result
cross no link (23 R436). -/
def execCollBlockClose (c b : Nat) (arrived lostTo : List Nat) (s : State) : Host.Outcome State Fault Refusal :=
  match s.calls.look c with
  | none => .next s
  | some q =>
    match q.start, memberOf s q 0 with
    | some t0, some (_, o) =>
      let len := o.word 2
      let kind := o.collKind
      let lossy := o.kind == 0x24
      let held := q.members.any (fun m => match (s.ops.look m.2).bind EngOp.wait with | some (k, _) => s.hasFault k | none => false)
      if q.closed.contains b || decide (len / 256 ≤ b) || held || o.fin then .next s
      else
        let s0 := q.members.foldl (fun s m => s.updOp m.2 (fun o => { o with wait := none })) s
        (match collReads s0 q kind len b q.n with
          | (s1, .error (n, o, e)) => .next (engStop s1 n o 0 e)
          | (s1, .ok vs) =>
            match collPlaces s1 q kind len b q.n with
            | (s2, .error (n, o, e)) => .next (engStop s2 n o 0 e)
            | (s2, .ok ds) =>
              if !lossy && !ds.all (fun d => engRoom s2 (fabricFlits 4 d.2.2.2.1)) then .next s2
              else
              let here := fun (k : Nat) => match vs.getD k none with
                | some (ws, cnt) => !lossy || ((arrived.contains k || kind = 2 && k = b % q.n) && !ws.any Prod.snd && cnt != 0)
                | none => false
              let word := fun (i : Nat) =>
                collWordOf q.n o.collOp o.collTy ((List.range q.n).map (fun k =>
                  if here k then (vs.getD k none).map (fun v => (v.1.getD i (0, false)).1) else none))
              let raw := fun (i : Nat) => (((List.range q.n).findSome? (fun k => if here k then vs.getD k none else none)).map
                (fun v => (v.1.getD i (0, false)).1)).getD 0
              let psn := fun (i : Nat) => (List.range q.n).any (fun k => here k && (match vs.getD k none with
                | some v => (v.1.getD i (0, false)).2
                | none => false))
              let cnt := min 255 ((List.range q.n).foldl (fun t k => if here k then t + ((vs.getD k none).map Prod.snd).getD 0 else t) 0)
              let res := (List.range 64).map (fun i => if kind = 1 then raw i else word i)
              let any := (List.range q.n).any here
              let s3 := ds.foldl (fun s d =>
                let ok := any && (!lossy || ((!lostTo.contains d.2.1 || kind = 2 && d.2.1 = b % q.n) && decide (s.clock ≤ t0 + d.1.d)))
                let ws := (List.range 64).map (fun i => (if ok then res.getD i 0 else 0, !lossy && psn i))
                let s4 := engPuts s d.1 4 (fabricFlits 4 d.2.2.2.1) d.2.2.1 (d.2.2.2.1.zip ws)
                match d.2.2.2.2 with
                | some pl => engPut s4 d.1 1 (if ok then cnt else 0) false pl
                | none => s4) (collCount s2 q kind len b ds)
              let q1 := { q with closed := setAdd q.closed b }
              let s5 := { s3 with calls := s3.calls.setAt c q1 }
              .next (if q1.closed.length = len / 256 then q.members.foldl (fun s m => opFinish s m.2) { s5 with calls := s5.calls.remove c } else s5))
    | _, _ => .next s

/-! ### Near-memory packets (10 R243; 19 R403) -/

/-- The status with which a packet that must wait at a home ends its attempt: no packet returns it. -/
def nmoWait : Nat := 0x100

/-- A packet as a Sloe unit runs it: the partition, whose access it is, the tile of the unit, whether that is the home, the fields and the
operand words. -/
structure Nmo where
  p : Nat
  me : Asker
  tile : Nat
  home : Bool
  priv : Bool
  d : Nat
  w : List Nat
  deriving DecidableEq, Repr

def Nmo.word (o : Nmo) (i : Nat) : Nat := o.w.getD i 0

/-- A line claimed for a packet: at the home as an RMW there, at an owner as its store (14 R316; 19 R403). -/
def nmoClaim (s : State) (o : Nmo) (pa : Nat) (write stb : Bool) : State × Bool :=
  if stb then (s, true) else claimUnit s o.me o.tile pa write (write && o.home)

/-- A partition VA of a node read or checked by the Sloe unit: status 2 for a fault, 3 for poison, whether it is to be read or written. -/
def nmoNode (s : State) (o : Nmo) (need : Need) (va : Nat) : State × Except Nat Nat :=
  if va % 8 != 0 || va / 2 ^ 48 != 0 then (s, .error 2)
  else match translate s o.tile o.p need o.priv va with
    | (s1, .ok e pa) =>
      let r := nmoClaim s1 o pa need.w e.stb
      if !r.2 then (r.1, .error nmoWait) else if poisonedPa r.1 pa then (r.1, .error 3) else (r.1, .ok pa)
    | (s1, _) => (s1, .error 2)

/-- An 8-byte word at a node's address. -/
def nmoLoad (s : State) (o : Nmo) (va : Nat) : State × Except Nat Nat :=
  match nmoNode s o .rd va with
  | (s1, .error e) => (s1, .error e)
  | (s1, .ok pa) => let r := readPa s1 pa 8; (r.1, .ok r.2)

/-- An 8-byte word written by a Sloe unit. -/
def nmoStore (s : State) (o : Nmo) (pa v : Nat) : State := writePa s none o.p pa 8 v

/-- fop's new value (07 R175 at 64 bits). -/
def nmoFop (d old b : Nat) : Nat :=
  let sg := d / 16 == 1
  match d % 16 with
  | 0 => iAdd 64 old b
  | 1 => iMin sg 64 old b
  | 2 => iMax sg 64 old b
  | 3 => iAnd old b
  | 4 => iOr old b
  | 5 => iXor old b
  | _ => b

/-- A packet's effect: results by block word. Its accesses are claimed before its first write, so an attempt that must wait has written
nothing. -/
abbrev NmoRes := State × List (Nat × Nat)

/-- cas2 and cas4. -/
def nmoCas (s : State) (o : Nmo) (pa n : Nat) : NmoRes :=
  let r := (List.range n).foldl (fun (t : State × List Nat) i => let q := readPa t.1 (pa + 8 * i) 8; (q.1, t.2 ++ [q.2])) (s, [])
  let eq := (List.range n).all (fun i => r.2.getD i 0 == o.word i)
  let s1 := if eq then (List.range n).foldl (fun s i => nmoStore s o (pa + 8 * i) (o.word (n + i))) r.1 else r.1
  (s1, (List.range n).map (fun i => (i, r.2.getD i 0)) ++ [(7, if eq then 0 else 1)])

/-- enq (10 R243). -/
def nmoEnqueue (s : State) (o : Nmo) (pa : Nat) : NmoRes :=
  let tl := readPa s (pa + 8) 8
  let cn := readPa tl.1 (pa + 16) 8
  match nmoNode cn.1 o .wr (o.word 0) with
  | (s1, .error e) => (s1, [(7, e)])
  | (s1, .ok node) =>
    let last := if tl.2 = 0 then (s1, .ok pa) else nmoNode s1 o .wr tl.2
    match last with
    | (s2, .error e) => (s2, [(7, e)])
    | (s2, .ok q) =>
      let c := iAdd 64 cn.2 1
      let s3 := nmoStore s2 o node 0
      let s4 := nmoStore s3 o q (o.word 0)
      let s5 := nmoStore s4 o (pa + 8) (o.word 0)
      (nmoStore s5 o (pa + 16) c, [(1, c), (7, 0)])

/-- deq (10 R243). -/
def nmoDequeue (s : State) (o : Nmo) (pa : Nat) : NmoRes :=
  let hd := readPa s pa 8
  let cn := readPa hd.1 (pa + 16) 8
  if hd.2 = 0 then (cn.1, [(0, 0), (7, 1)])
  else match nmoLoad cn.1 o hd.2 with
    | (s1, .error e) => (s1, [(7, e)])
    | (s1, .ok nx) =>
      let s2 := nmoStore s1 o pa nx
      let s3 := if nx = 0 then nmoStore s2 o (pa + 8) 0 else s2
      (nmoStore s3 o (pa + 16) (iSub 64 cn.2 1), [(0, hd.2), (7, 0)])

/-- chase: at most `k` further hops from p. -/
def nmoChaseFrom (s : State) (o : Nmo) : Nat → Nat → NmoRes
  | 0, p => (s, [(0, p), (1, 8), (7, 4)])
  | k + 1, p =>
    let hops := 8 - (k + 1)
    if p = 0 then (s, [(0, 0), (1, hops), (7, 1)])
    else match nmoLoad s o ((p + hi32 (o.word 1)) % 2 ^ 64) with
      | (s1, .error e) => (s1, [(7, e)])
      | (s1, .ok v) =>
        if v = o.word 0 then (s1, [(0, p), (1, hops), (7, 0)])
        else match nmoLoad s1 o ((p + w32 (o.word 1)) % 2 ^ 64) with
          | (s2, .error e) => (s2, [(7, e)])
          | (s2, .ok q) => nmoChaseFrom s2 o k q

/-- A packet run as one atomic event on t's line, at t's physical address; t on a stable page claims nothing (14 R319). -/
def nmoRun (s : State) (o : Nmo) (kind t pa : Nat) (stb : Bool) : NmoRes :=
  let q := nmoClaim s o pa (kind != 5) stb
  if !q.2 then (q.1, [(7, nmoWait)])
  else if poisonedPa q.1 pa then (q.1, [(7, 3)])
  else match kind with
    | 0 => nmoCas q.1 o pa 2
    | 1 => nmoCas q.1 o pa 4
    | 2 => (let r := readPa q.1 pa 8; (nmoStore r.1 o pa (nmoFop o.d r.2 (o.word 0)), [(0, r.2), (7, 0)]))
    | 3 => nmoEnqueue q.1 o pa
    | 4 => nmoDequeue q.1 o pa
    | _ => nmoChaseFrom q.1 o 8 t

/-- Must the attempt wait? -/
def NmoRes.waits (r : NmoRes) : Bool := r.2.contains (7, nmoWait)

/-- The home's count of packets from other tiles (19 R403). -/
def sloeCount (s : State) (home page src : Nat) : State :=
  if src = home then s
  else s.updTile home (fun t =>
    let e := t.sloe.lookD { owned := none, count := 0, from_ := [] } page
    { t with sloe := t.sloe.setAt page { e with count := e.count + 1, from_ := setAdd e.from_ src } })

/-- The tile whose Sloe unit runs packets to a page: its owner's, or the home's (19 R403). -/
def sloeUnit (s : State) (home page : Nat) : Nat := (((s.tileAt home).sloe.look page).bind SloeEnt.owned).getD home

/-- The partition of an operation's launch. -/
def partOfOp (s : State) (o : EngOp) : Nat := match s.launches.look o.launch with | some L => L.part | none => 64

/-- The home of an operation's target, and the tile whose unit runs its packet; at another wafer both stand as the operation's own. -/
def nmoHome (s : State) (o : EngOp) : Nat := if spaceOf (o.word 9) < 2 then (homeTile s (partOfOp s o) (o.word 9)).getD o.tile else o.tile
def nmoUnit (s : State) (o : EngOp) : Nat := if spaceOf (o.word 9) < 2 then sloeUnit s (nmoHome s o) (granOf (o.word 9)) else o.tile

/-- An operation's packet as its unit runs it. -/
def nmoOf (s : State) (o : EngOp) : Nmo :=
  { p := partOfOp s o, me := .op o.g o.cls o.pos, tile := nmoUnit s o, home := nmoUnit s o == nmoHome s o, priv := o.priv, d := o.d,
    w := (List.range 8).map o.word }

/-- Why a packet to another wafer ends with an error: its route has gone, or the target refuses it (10 R228; 19 R401, R404). -/
def nmoStops (s : State) (pa : Nat) : Option Nat :=
  if spaceOf pa != 2 then none
  else if (routePort s (bitsN pa 44 39)).isNone then some 0x11
  else if Config.remoteRefuses s.clock pa then some 0x07 else none

/-- What a packet that has run leaves: its flits, the home's count, which an owner's own packets do not reach, and its results in the block. -/
def nmoDone (n : Nat) (o : EngOp) (home unit : Nat) (r : NmoRes) : State :=
  let pa := o.word 9
  let s1 := if spaceOf pa = 2 then sendFlits r.1 pa 2 else if unit = o.tile then r.1 else sloeCount r.1 home (granOf pa) o.tile
  opFinish (r.2.foldl (fun s q => s.writeN (o.word 10 + 8 * q.1) 8 q.2) s1) n

/-- NMO_EXECUTE: the packet runs as one atomic event on t's line, writes its results and completes. -/
def execNmoExecute (n : Nat) (s : State) : Host.Outcome State Fault Refusal :=
  match s.ops.look n with
  | none => .next s
  | some o =>
    if o.kind < 0x200 || o.fin then .next s
    else match nmoStops s (o.word 9) with
      | some code => .next (opError s n code (o.word 8) false)
      | none =>
        let r := nmoRun s (nmoOf s o) (o.kind - 0x200) (o.word 8) (o.word 9) o.stb
        .next (if NmoRes.waits r then r.1 else nmoDone n o (nmoHome s o) (nmoUnit s o) r)

/-- The mode that a page has after a window (19 R403). -/
def SloeEnt.mode (e : SloeEnt) : Option Nat :=
  if 64 < e.count then none
  else match e.from_ with
    | [u] => if e.count < 8 then (if u < 1024 then some u else none) else e.owned
    | _ => e.owned

/-- The page's entry at the beginning of a new window. -/
def newWindow (page : Nat) (t : Tile) : Tile :=
  match t.sloe.look page with
  | none => t
  | some e => { t with sloe := match e.mode with
      | none => t.sloe.remove page
      | some u => t.sloe.setAt page { owned := some u, count := 0, from_ := [] } }

/-- The lines of a page that its owner holds are recalled (14 R316). -/
def recallPage (page : Nat) (s : State) (e : Nat × Tile) : State :=
  match e.2.sloe.look page with
  | none => s
  | some q =>
    if q.owned.isSome && q.mode != q.owned then
      (s.dir.filter (fun d => d.1 / 1024 == page && d.2.st == .o)).foldl (fun s d => (claimUnit s .unit e.1 (d.1 * lineBytes) true true).1) s
    else s

/-- SLOE_WINDOW_END: the home sets the page's mode and begins a new window; an owner that loses the page gives its lines up (19 R403). -/
def execSloeWindowEnd (page : Nat) (s : State) : Host.Outcome State Fault Refusal :=
  if s.clock % 4096 != 0 then .next s
  else .next (s.tiles.foldl (recallPage page) { s with tiles := s.tiles.mapV (fun _ => newWindow page) })

end Sys2Proof.Machine
end

