-- ==== Sys2Proof/Machine/GroupEvents.lean ====
section
/-!
DEFINITION. Events of groups and cores: what ends a lane's wait, barrier phases, GROW, SHRNK, the end of a group, and the
serialisation token (spec 01 R36, R45; 02 R57; 08 R188 to R202; 09 R223; 19 R407).
-/

namespace Sys2Proof.Machine

/-- STALL_EXPIRY: a STALL hint has run out (02 R57). -/
def execStallExpiry (g : Nat) (s : State) : Host.Outcome State Fault Refusal :=
  .next (s.updGroup g (fun G => { G with stall := match G.stall with | some t => if t ≤ s.clock then none else some t | none => none }))

/-- RESULT_WRITEBACK: a scoreboard falls (01 R36). -/
def execResultWriteback (g k : Nat) (s : State) : Host.Outcome State Fault Refusal :=
  .next (s.updGroup g (fun G => { G with sb := G.sb.putD 0 k (G.sb.lookD 0 k - 1) }))

/-- WATCHDOG_EXPIRY: a lane's count has reached the limit; its PC-set takes 0x0D at its next issue (01 R45). -/
def execWatchdogExpiry (g lane : Nat) (s : State) : Host.Outcome State Fault Refusal :=
  .next (s.updGroup g (fun G => G.updLane lane (fun l =>
    if 2 ^ (s.coreAt G.tile G.core).wdlog ≤ l.wd then { l with wdDue := true } else l)))

/-- SLEEP_WAKE: the wake time is reached; the lane is ready, and yielded (08 R190). -/
def execSleepWake (g lane : Nat) (s : State) : Host.Outcome State Fault Refusal :=
  match s.groups.look g with
  | none => .next s
  | some G =>
    match (G.lane? lane).map Lane.block with
    | some (.sleep t) =>
      if t ≤ s.clock then .next (yieldLanes (s.updGroup g (fun G => G.updLane lane (fun l => { l with block := .free }))) g [lane])
      else .next s
    | _ => .next s

/-! ### Barriers (08 R193; 19 R407) -/

/-- Groups of a unit of a barrier. -/
def barGroups (s : State) (launch dom unit : Nat) : List (Nat × Group) :=
  match s.launches.look launch with
  | some L => s.groups.filter (fun e => e.2.launch == launch && L.rc.barUnit dom e.2.lin == unit)
  | none => []

/-- Does an exited lane count as arrived? Its arrival is a release, which waits for its side-log entries, and at a barrier of fabric or
system scope for its acknowledgements (13 R291, R296; 19 R402). -/
def exitArrived (s : State) (g : Nat) (G : Group) (dom i : Nat) : Bool := !slgHolds s g G [i] && !(barFar s G dom && fabOwes s g [i])

/-- Every member lane has arrived in the open phase or has exited. Ended groups have exited. -/
def phaseMet (s : State) (gs : List (Nat × Group)) (dom id P : Nat) : Bool :=
  gs.all (fun e => (List.range e.2.lanes.length).all (fun i => e.2.laneTest i (fun l =>
    l.arrived dom id == some P || (l.exited && exitArrived s e.1 e.2 dom i))))

/-- Has some member lane arrived in the open phase? -/
def phaseBegun (gs : List (Nat × Group)) (dom id P : Nat) : Bool := gs.any (fun e => e.2.lanes.any (fun l => l.arrived dom id == some P))

/-- The phase is met, and begun. -/
def phaseFull (s : State) (gs : List (Nat × Group)) (dom id P : Nat) : Bool := phaseMet s gs dom id P && phaseBegun gs dom id P

/-- The phase completes: lanes that wait for it are ready. -/
def advancePhase (s : State) (launch dom unit id : Nat) : State :=
  s.updLaunch launch (fun L => { L with phase := L.phase.setAt (phaseKey dom unit id) (L.phaseOf dom unit id + 1) })

/-! Fabric barriers (19 R406, R407): each member's symbol goes to rank 0, and its releases to the members. -/

def fjobId (P : Part) : Nat := bitsN P.fjob.toNat 63 32
/-- Wafer of a member. -/
def memberWafer (P : Part) (r : Nat) : Nat := bitsN (P.members.lookD 0 r).toNat 13 8

/-- A symbol sent to a member's wafer: exact, and replayed like data (19 R405). -/
def sendSymbol (P : Part) (y : BarSym) (rank : Nat) (release : Bool) (s : State) (to_ : Nat) : State :=
  (sendFlits s (2 ^ 46 + memberWafer P to_ * 2 ^ 39) 1).reply (.symbol (memberWafer P to_) y rank release)

/-- Symbols of an open phase. -/
def phaseSyms (P : Part) (k id : Nat) : List (BarSym × Nat) := P.symbols.filter (fun q => q.1.launch == k && q.1.id == id)

/-- Has a member's symbol for the phase arrived, or its own been sent? -/
def hasSymbol (P : Part) (k id rank : Nat) : Bool := (phaseSyms P k id).any (fun q => q.2 == rank)

/-- Rank 0 holds every member's symbol, of members that declare as many barriers, and some lane has arrived. -/
def fabricReady (P : Part) (k id : Nat) : Bool :=
  let ys := phaseSyms P k id
  fjobRank P == 0 && (List.range (fjobMem P)).all (hasSymbol P k id) && ys.any (fun q => q.1.live) &&
  ys.all (fun q => ys.all (fun r => r.1.count == q.1.count))

/-- The launch here that is number k of the job. -/
def fabricLaunch (s : State) (p k : Nat) : Option (Nat × Launch) := s.launches.find? (fun e => e.2.part == p && e.2.fabric == some k)

/-- A launch that has completed sends its symbol for every phase (08 R187). -/
def endedSymbol (P : Part) (k id : Nat) : Option BarSym :=
  (P.fabEnded.find? (fun e => e.1 == k && decide (id < e.2))).map (fun e => { job := fjobId P, launch := k, id, count := e.2, live := false })

/-- A phase released here: its symbols go, the launch advances, and one that has completed sends its next symbol. -/
def releasePhase (s : State) (p k id : Nat) : State :=
  match s.parts.look p with
  | none => s
  | some P =>
    let s1 := s.updPart p (fun P => { P with symbols := P.symbols.filter (fun q => !(q.1.launch == k && q.1.id == id)) })
    let s2 := match fabricLaunch s p k with | some e => advancePhase s1 e.1 5 (fjobRank P) id | none => s1
    match endedSymbol P k id with
    | some y =>
      let s3 := s2.updPart p (fun P => { P with symbols := (y, fjobRank P) :: P.symbols })
      if fjobRank P = 0 then s3 else sendSymbol P y (fjobRank P) false s3 0
    | none => s2

/-- Rank 0 advances once the phase is complete, and releases the others. -/
def fabricAdvance (s : State) (p k id : Nat) : State :=
  match s.parts.look p with
  | none => s
  | some P =>
    if fabricReady P k id then
      let y : BarSym := { job := fjobId P, launch := k, id, count := ((phaseSyms P k id).head?.map (fun q => q.1.count)).getD 0, live := true }
      ((List.range (fjobMem P)).filter (· != 0)).foldl (sendSymbol P y 0 true) (releasePhase s p k id)
    else s

/-- This wafer's symbol goes to rank 0. -/
def giveSymbol (s : State) (p : Nat) (y : BarSym) : State :=
  match s.parts.look p with
  | none => s
  | some P =>
    let s1 := s.updPart p (fun P => { P with symbols := (y, fjobRank P) :: P.symbols })
    if fjobRank P = 0 then fabricAdvance s1 p y.launch y.id else sendSymbol P y (fjobRank P) false s1 0

/-- Is this wafer's part of a fabric phase met? A member whose lanes have all exited sends its symbol without an arrival (08 R187; 19 R407);
in a job of one member some lane must arrive. -/
def fabricFull (s : State) (P : Part) (gs : List (Nat × Group)) (id ph : Nat) : Bool :=
  phaseMet s gs 5 id ph && (phaseBegun gs 5 id ph || decide (1 < fjobMem P))

/-- A fabric launch that completes: its lanes count as arrived in every later phase. -/
def endFabric (s : State) (L : Launch) : State :=
  match L.fabric, s.parts.look L.part with
  | some k, some P =>
    let n := L.rc.bars.getD 3 0
    let s1 := s.updPart L.part (fun P => { P with fabEnded := (k, n) :: P.fabEnded })
    if fjobMem P ≤ 1 then s1
    else ((List.range n).filter (fun id => !hasSymbol P k id (fjobRank P))).foldl (fun s id =>
      giveSymbol s L.part { job := fjobId P, launch := k, id, count := n, live := false }) s1
  | _, _ => s

/-- BARRIER_PHASE_COMPLETE. In the fabric domain this wafer's symbol goes to rank 0. -/
def execBarrierPhaseComplete (launch dom unit id : Nat) (s : State) : Host.Outcome State Fault Refusal :=
  match s.launches.look launch with
  | none => .next s
  | some L =>
    let gs := barGroups s launch dom unit
    if dom = 5 then
      match s.parts.look L.part, L.fabric with
      | some P, some k =>
        if L.starting || !fabricFull s P gs id (L.phaseOf dom unit id) then .next s
        else if hasSymbol P k id (fjobRank P) then .next (fabricAdvance s L.part k id)
        else .next (giveSymbol s L.part
          { job := fjobId P, launch := k, id, count := L.rc.bars.getD 3 0, live := phaseBegun gs 5 id (L.phaseOf dom unit id) })
      | _, _ => .next s
    else if phaseFull s gs dom id (L.phaseOf dom unit id) then .next (advancePhase s launch dom unit id)
    else .next s

/-! ### GROW and SHRNK (08 R200 to R202) -/

/-- Every live lane of the group is blocked in its GROW, or held by a trap of the group (08 R201; 12 R273). -/
def growBlocked (G : Group) : Bool :=
  G.grow.isSome && G.live.all (fun i => G.laneTest i (fun l => l.held || (match l.block with | .grow _ => true | _ => false)))

/-- A group is parked when every live lane is yielded or blocked (08 R189; 01 R46). -/
def parked (s : State) (g : Nat) (G : Group) : Bool :=
  G.live.all (fun i => G.laneTest i (fun l => l.yielded.isSome || (l.block.parks && !blockClear s g G l.block)))

/-- The lanes of a GROW resume with pd. -/
def growDone (G : Group) (ok : Bool) : Group :=
  { G with
    grow := none,
    lanes := G.lanes.map (fun l => match l.block with
      | .grow pd => { ((l.setPred pd.toNat ok).shift (if ok then 1 else 0) false) with block := .free }
      | _ => l) }

/-- A group is older than another (08 R201). -/
def older (a b : Group) : Bool :=
  decide (a.age < b.age) || (a.age == b.age && (decide (a.slot < b.slot) || (a.slot == b.slot && decide (a.pos < b.pos))))

def oldestOf (gs : List (Nat × Group)) : Option (Nat × Group) :=
  gs.foldl (fun (b : Option (Nat × Group)) e => match b with | some q => if older e.2 q.2 then some e else b | none => some e) none

/-- Bases for windows (group, size) in what is free of an area, if there are any: each stands at the low end of a free run, and every choice
of runs is tried. -/
def packWindows (lo hi : Nat) : List (Nat × Nat) → List (Nat × Nat) → Option (List (Nat × Nat))
  | [], _ => some []
  | (g, n) :: ws, taken =>
    (((lo :: taken.map (fun t => t.1 + t.2)).dedup).filter (fun b => runFree lo hi taken b n)).findSome? (fun b =>
      (packWindows lo hi ws (taken ++ [(b, n)])).map (fun l => (g, b) :: l))

/-- A base for a window of n bytes of group g, with the windows that parked groups then have (08 R200, R201): in place, else a free run,
else whatever relocation of parked windows makes room. Its own window moves only while the group is parked. -/
def growPlace (s : State) (g : Nat) (G : Group) (n : Nat) : Option (Nat × List (Nat × Nat)) :=
  let (lo, hi) := areaOf s G
  let others := scratchTaken s G.tile G.core ++ windowsTaken s G.tile G.core [g]
  let mv := s.groups.filter (fun e => e.1 != g && e.2.tile == G.tile && e.2.core == G.core && parked s e.1 e.2 && !e.2.frozen &&
    areaOf s e.2 == areaOf s G)
  let fixed := scratchTaken s G.tile G.core ++ windowsTaken s G.tile G.core (g :: mv.map Prod.fst)
  let sizes := mv.map (fun e => (e.1, e.2.winSize))
  if runFree lo hi others G.win n then some (G.win, [])
  else if !parked s g G then
    (if runFree lo hi fixed G.win n then (packWindows lo hi sizes (fixed ++ [(G.win, n)])).map (fun l => (G.win, l)) else none)
  else match firstFit lo hi others n with
    | some b => some (b, [])
    | none => match packWindows lo hi ((g, n) :: sizes) fixed with
      | some ((_, b) :: l) => some (b, l)
      | _ => none

/-- Runs of the store that a growth takes: the grown window, and those it moves. -/
def growRuns (s : State) (b n : Nat) (moved : List (Nat × Nat)) : List (Nat × Nat) :=
  (b, n) :: moved.map (fun m => (m.2, match s.groups.look m.1 with | some X => X.winSize | none => 0))

/-- A pending GROW granted when the store can meet it, once no bank of it is gated or wakes. -/
def growTry (s : State) (g : Nat) : Option State :=
  match s.groups.look g with
  | none => none
  | some G =>
    match G.grow with
    | none => none
    | some n =>
      match growPlace s g G (page4 (n * G.w * 4)) with
      | none => none
      | some (b, moved) =>
        let w := wakeStore s G.tile G.core (growRuns s b (page4 (n * G.w * 4)) moved) (page4 (n * G.w * 4) - G.winSize)
        if !w.2 then some w.1
        else
        let s1 := moved.foldl (fun s m => s.updGroup m.1 (fun X => { X with win := m.2 })) s
        some (s1.updGroup g (fun X => { (growDone X true) with v := n, win := b }))

def coreGroups (s : State) (tile core : Nat) : List (Nat × Group) := s.groups.filter (fun e => e.2.tile == tile && e.2.core == core)

/-- GROW_GRANT: the oldest pending request of the core. A frozen group's window stays as it is (17 R364), so its request waits, and with it
every younger one (08 R200). -/
def execGrowGrant (tile core : Nat) (s : State) : Host.Outcome State Fault Refusal :=
  match oldestOf ((coreGroups s tile core).filter (fun e => e.2.grow.isSome)) with
  | none => .next s
  | some (g, G) => if G.frozen then .next s else match growTry s g with | some s1 => .next s1 | none => .next s

/-- GROW_DEADLOCK_RESOLVE: every group of the core that is not frozen is blocked in GROW; all requests but the oldest group's
fail, and that one is granted or fails. Banks of the store that its grant needs awake come first (14 R326). -/
def execGrowDeadlockResolve (tile core : Nat) (s : State) : Host.Outcome State Fault Refusal :=
  let gs := (coreGroups s tile core).filter (fun e => !e.2.frozen)
  match gs.all (fun e => growBlocked e.2), oldestOf gs with
  | true, some (g, _) =>
    let s1 := match growTry s g with
      | some t => t
      | none => s.updGroup g (fun G => growDone G false)
    if (s1.groups.look g).any (fun G => G.grow.isSome) then .next s1
    else .next (gs.foldl (fun s e => if e.1 = g then s else s.updGroup e.1 (fun G => growDone G false)) s1)
  | _, _ => .next s

/-- SHRNK_RELEASE: the writes that SHRNK waited for are done (08 R202). -/
def execShrnkRelease (g : Nat) (s : State) : Host.Outcome State Fault Refusal :=
  .next (s.updGroup g (fun G =>
    match G.shrnk with
    | none => G
    | some n =>
      if G.sb.any (fun e => e.2 != 0) then G
      else
        let G1 := shrinkGroup { G with shrnk := none } n
        { G1 with lanes := G1.lanes.map (fun l => match l.block with | .shrnk => { l with block := .free } | _ => l) }))

/-! ### The end of a group (08 R188; 10 R230) -/

/-- May the group end: every lane has exited, and counters, side log and ENQ are done? Its exits are arrivals at its barriers, at fabric or
system scope only once the homes have acknowledged (19 R402). -/
def groupOver (s : State) (g : Nat) (G : Group) : Bool :=
  G.lanes.all Lane.exited && (List.range 4).all (fun c => G.counter c == 0) && G.enq.isNone &&
  !(s.coreAt G.tile G.core).slog.any (fun e => e.g == g) &&
  !((List.range 6).any (barFar s G) && fabOwes s g (List.range G.lanes.length))

/-- Record of an engine error that no WAITC covered (20 R424, type 4). -/
def errBody (L : Launch) (G : Group) (e : EngErr) : List Byte :=
  leBytes 8 L.rc.cva ++ leBytes 1 e.code ++ leBytes 1 (e.cls + 1) ++ leBytes 1 (e.pos % 64) ++ leBytes 1 G.core ++ leBytes 2 G.tile ++
  leBytes 1 G.number ++ leBytes 1 0

/-- The last group of a launch has left a core: its MAPS entries there are unmapped (07 R173), and the slots that a pre-emptor
froze are thawed (17 R365). -/
def leaveCore (s0 : State) (lid tile core : Nat) : State :=
  -- with no group on the core no slot has an eligible PC-set (16 R357)
  let s := if (coreGroups s0 tile core).isEmpty then s0.updCore tile core (fun c => { c with since := [] }) else s0
  if s.groups.any (fun e => e.2.launch == lid && e.2.tile == tile && e.2.core == core) then s
  else
    let ms := (s.coreAt tile core).maps.filter (fun e => e.2.launch == lid)
    let s1 := ms.foldl (fun s e => unmapEntry s tile core e.1) s
    let c := s1.coreAt tile core
    if c.reserve != some lid then s1
    else
      let s2 := s1.setCore tile core { c with reserve := none, given := [], since := c.given.foldl (fun m k => m.setAt k s.clock) c.since }
      { s2 with groups := s2.groups.mapV (fun _ G =>
        if G.tile = tile ∧ G.core = core ∧ c.given.contains G.slot then { G with frozen := false } else G) }

/-- GROUP_END: the group leaves, and its launch keeps what it held until it completes (16 R354); errors not reported are posted. -/
def execGroupEnd (g : Nat) (s : State) : Host.Outcome State Fault Refusal :=
  match s.groups.look g with
  | none => .next s
  | some G =>
    if !groupOver s g G then .next s
    else
      let s1 := match s.launchOf G with
        | some L => G.errs.foldl (fun (s : State) e => s.postEvent L.part 4 (errBody L G e)) s
        | none => s
      let s2 := s1.updLaunch G.launch (fun L => { L with
        engErr := match L.engErr with | some c => some c | none => G.errs.head?.map EngErr.code,
        ended := L.ended ++ [(G.tile, G.core, G.win, G.winSize, G.t * G.w * 128)],
        times := L.times.setAt G.tile ((match L.times.look G.tile with | some q => q.1 | none => s.clock), s.clock) })
      .next (leaveCore { s2 with groups := s2.groups.remove g } G.launch G.tile G.core)

/-! ### The serialisation token (09 R223) -/

/-- SER_TOKEN_GRANT: the first region that waits receives the free token. -/
def execSerTokenGrant (part : Nat) (s : State) : Host.Outcome State Fault Refusal :=
  match s.parts.look part with
  | none => .next s
  | some P =>
    match P.token, P.tokenQ with
    | none, g :: rest => .next (s.updPart part (fun P => { P with token := some g, tokenQ := rest }))
    | _, _ => .next s

/-- SER_TOKEN_TIMEOUT: 65,536 cycles have passed without the token; the region aborts with cause serial-denied. -/
def execSerTokenTimeout (g : Nat) (s : State) : Host.Outcome State Fault Refusal :=
  match s.groups.look g with
  | none => .next s
  | some G =>
    match G.region, s.partOf G with
    | some r, some P =>
      if P.tokenQ.contains g && decide (r.start + 65536 ≤ s.clock) then .next (abortRegion s g 8 0 0) else .next s
    | _, _ => .next s

end Sys2Proof.Machine
end

