-- ==== Sys2Proof/Machine/System.lean ====
section
/-!
DEFINITION. System instructions (spec 12 R279 to R286).
-/

namespace Sys2Proof.Machine

/-- The code operand of TRAP, BKPT and HALT. -/
def codeOf (o : OpE) : Nat := o.imm.toNat % 256

/-- TRAP (12 R280): it resumes after itself. -/
def execTrap (c : Ctl) (o : OpE) (s : State) : Host.Outcome State Fault Refusal :=
  issueWord c { chnOk := false } s (fun _ _ => .trap { code := 0x0F, arg := codeOf o, after := true })

/-- BKPT (12 R280). -/
def execBkpt (c : Ctl) (o : OpE) (s : State) : Host.Outcome State Fault Refusal :=
  issueWord c { chnOk := false } s (fun _ _ => .trap { code := 0x0E, arg := codeOf o })

/-- A system instruction at S that first waits for the side log of its active lanes. -/
def superOp (c : Ctl) (m : Meta) (s : State) (f : Ctx → State → Res) : Host.Outcome State Fault Refusal :=
  issueWord c { m with sOnly := true, chnOk := false } s (fun x s =>
    match relStop s x x.act false with
    | some r => r
    | none => f x s)

/-- ERET (12 R277). -/
def execEret (c : Ctl) (_ : OpE) (s : State) : Host.Outcome State Fault Refusal :=
  superOp c {} s (fun x s => .gone (s.updGroup x.g eretGroup))

/-- What STLBI drops; its lanes then wait for STLBI_DONE (12 R281; 15 R336). -/
def stlbi (x : Ctx) (s : State) (sel : TlbEnt → Bool) (ptr : WalkEnt → Bool) (page : Nat → Bool) : Res :=
  let p := s.partNo x.G
  let s1 := retryFaults (dropTlb s p sel (fun e => e.stage == 1 && ptr e)) p 1 page
  .done (s1.updGroup x.g (fun G => G.updLanes x.act (fun _ l => { l with block := .stlbi }))) []

/-- STLBI.va (12 R281). -/
def execStlbiVa (c : Ctl) (o : OpE) (s : State) : Host.Outcome State Fault Refusal :=
  superOp c (({} : Meta).read false o.a false) s (fun x s =>
    let a := src64 x o.a
    stlbi x s (fun e => pageHas a e.s1) (fun e => e.covers a) (fun pg => pg == a / granBytes))

/-- STLBI.all (12 R281). -/
def execStlbiAll (c : Ctl) (_ : OpE) (s : State) : Host.Outcome State Fault Refusal :=
  superOp c {} s (fun x s => stlbi x s (fun _ => true) (fun _ => true) (fun _ => true))

/-- The dirty lines of the tiles' caches written back and invalidated, so that no tile of them owns a line (12 R282; 14 R316). -/
def giveUpLines (s0 : State) (tiles : List Nat) : State :=
  let s := noteBack s0 (dirtyIn s0 tiles.contains (fun _ => true))
  let s1 := { s with
    cores := s.cores.mapV (fun k c => if tiles.contains (k / 4) then { c with l1 := c.l1.keep (fun _ d => !d) } else c)
    tiles := s.tiles.mapV (fun t x => if tiles.contains t then { x with rdc := x.rdc.keep (fun _ d => !d) } else x) }
  { s1 with dir := s1.dir.keep (fun _ d => !(d.st == .o && tiles.contains d.owner)) }

/-- A core's dirty L1 lines written back. A line of an SH granule that its tile owns then stands in the RDC, or at a home on the tile
itself. -/
def writeBackL1 (s : State) (tile core : Nat) : State :=
  let own := (s.coreAt tile core).l1.keep (fun _ d => d)
  let home := own.keys.filter (fun l => ((s.tileAt tile).rdc.look l).isNone)
  let s1 := noteBack (s.updCore tile core (fun c => { c with l1 := c.l1.keep (fun _ d => !d) })) (home.map (fun l => (tile, l)))
  s1.updTile tile (fun t => { t with rdc := t.rdc.mapV (fun l d => d || (own.look l).isSome) })

/-- SFLUSH.c (12 R282): the core's dirty L1 lines. -/
def execSflushC (c : Ctl) (_ : OpE) (s : State) : Host.Outcome State Fault Refusal :=
  issueWord c { sOnly := true, chnOk := false } s (fun x s => .done (writeBackL1 s x.G.tile x.G.core) [])

/-- SFLUSH.t (12 R282). -/
def execSflushT (c : Ctl) (_ : OpE) (s : State) : Host.Outcome State Fault Refusal :=
  issueWord c { sOnly := true, chnOk := false } s (fun x s => .done (giveUpLines s [x.G.tile]) [])

/-- Non-coherent copies of stable pages dropped in some tiles' caches (14 R319). -/
def dropStable (s : State) (tiles : List Nat) : State :=
  tiles.foldl (fun s t => s.updTile t (fun x => { x with stable := [] })) s

/-- SFLUSH.p (12 R282). -/
def execSflushP (c : Ctl) (_ : OpE) (s : State) : Host.Outcome State Fault Refusal :=
  issueWord c { sOnly := true, chnOk := false } s (fun x s =>
    let ts := match s.partOf x.G with | some p => p.tiles | none => []
    .done (dropStable (giveUpLines s ts) ts) [])

/-- HALT (12 R283). -/
def execHalt (c : Ctl) (o : OpE) (s : State) : Host.Outcome State Fault Refusal :=
  issueWord c { sOnly := true, chnOk := false } s (fun x s => .done (haltLaunch s x.G.launch (codeOf o) x.G.tile) [])

/-- KEYQ (12 R284). -/
def execKeyq (c : Ctl) (o : OpE) (s : State) : Host.Outcome State Fault Refusal :=
  issueWord c (({} : Meta).write o.dst false) s (fun x s =>
    let e := match s.partOf x.G with | some p => p.epoch % 2 ^ 32 | none => 0
    .done (s.updGroup x.g (fun G => putPlain x G o.dst false (fun _ => e))) [])

end Sys2Proof.Machine
end

