-- ==== Sys2Proof/Machine/Dispatcher.lean ====
section
/-!
DEFINITION. The partition dispatcher: its accesses, launch records, queues and budgets, ENQ, the start of launches and their
completion (spec 08 R198; 16 R344 to R362; 20 R424; 22 R434).
-/

namespace Sys2Proof.Machine

/-! ### Accesses of the dispatcher (16 R349; 15 R338) -/

/-- How a dispatcher access that does not succeed ends. -/
inductive DispStop where
  /-- waits for a fault's answer -/
  | wait
  /-- refused: a denied fault, any other access failure, or poison -/
  | fail
  deriving DecidableEq, Repr

/-- A denied fault of a dispatcher access, which the access that meets it uses up. -/
def usesDenied (s : State) (p : Nat) (k : FaultKey) : Bool :=
  match s.parts.look p with | some P => P.denied.contains k | none => false
def useDenied (s : State) (p : Nat) (k : FaultKey) : State := s.updPart p (fun P => { P with denied := P.denied.erase k })

/-- A VA translated for the dispatcher, made by no tile, core or group: the entry and the physical address. -/
def dispPlace (s : State) (p : Nat) (need : Need) (va : Nat) : State × Except DispStop (TlbEnt × Nat) :=
  if 2 ^ 48 ≤ va then (s, .error .fail)
  else
    match translate s dispTile p need false va with
    | (s1, .trap _) => (s1, .error .fail)
    | (s1, .busy _) => (s1, .error .wait)
    | (s1, .fault f) =>
      let k := faultKey dispTile p f
      if usesDenied s1 p k then (useDenied s1 p k, .error .fail) else (raiseFault s1 dispTile p 3 255 4 va f, .error .wait)
    | (s1, .ok e pa) =>
      let k1 : FaultKey := { tile := dispTile, stage := 1, part := p, page := va / granBytes }
      let k2 : FaultKey := { tile := dispTile, stage := 2, part := p, page := (e.ipa + (va - e.base)) / granBytes }
      if usesDenied s1 p k1 then (useDenied s1 p k1, .error .fail)
      else if usesDenied s1 p k2 then (useDenied s1 p k2, .error .fail)
      else (s1, .ok (e, pa))

/-- [a, a + n) cut at multiples of z. -/
def cutAt (z : Nat) : Nat → Nat → Nat → List (Nat × Nat)
  | 0, _, _ => []
  | k + 1, a, n => if n = 0 then [] else
      let m := min n (z - a % z)
      (a, m) :: cutAt z k (a + m) (n - m)

/-- A piece of an access within one page, translated: the IPA and PA of its first byte, its length, whether the leaf is managed. -/
structure DispPiece where
  ipa : Nat
  pa : Nat
  n : Nat
  mg : Bool
  deriving DecidableEq, Repr

/-- n bytes at va translated page by page, and what may hold them at their homes passed; reads of a stable page reach no class entry
(14 R319). -/
def dispPieces (s : State) (p : Nat) (need : Need) : List (Nat × Nat) → State × Except DispStop (List DispPiece)
  | [] => (s, .ok [])
  | (va, n) :: l =>
    match dispPlace s p need va with
    | (s1, .error e) => (s1, .error e)
    | (s1, .ok (e, pa)) =>
      match (if e.stb then (s1, true) else claimRange s1 .unit dispTile pa n need.w false) with
      | (s2, false) => (s2, .error .wait)
      | (s2, true) =>
        match dispPieces s2 p need l with
        | (s3, .error e) => (s3, .error e)
        | (s3, .ok r) => (s3, .ok ({ ipa := e.ipa + (va - e.base), pa, n, mg := e.mg } :: r))

/-- The line requests of a piece counted (15 R342). -/
def countPiece (s : State) (p : Nat) (q : DispPiece) : State :=
  (cutAt lineBytes (q.n / lineBytes + 2) q.pa q.n).foldl (fun s l => countHost s p (q.ipa + (l.1 - q.pa)) l.1 q.mg) s

/-- Bytes of one line at a physical address, with the poison mark. -/
def readLine (s : State) (pa n : Nat) : State × List Byte × Bool :=
  let s1 := drainLine (touchFrame s pa) (lineOf pa)
  (s1, s1.readBytes (locOf s1 pa) n, poisonedPa s1 pa)

def readLines (s : State) : List (Nat × Nat) → State × List Byte × Bool
  | [] => (s, [], false)
  | (a, n) :: l =>
    let (s1, b, p) := readLine s a n
    let (s2, bs, q) := readLines s1 l
    (s2, b ++ bs, p || q)

/-- n bytes read by the dispatcher; poison fails (16 R349). -/
def dispRead (s : State) (p va n : Nat) : State × Except DispStop (List Byte) :=
  match dispPieces s p .rd (cutAt granBytes (n / granBytes + 2) va n) with
  | (s1, .error e) => (s1, .error e)
  | (s1, .ok qs) =>
    match readLines (qs.foldl (fun s q => countPiece s p q) s1) (qs.flatMap (fun q => cutAt lineBytes (q.n / lineBytes + 2) q.pa q.n)) with
    | (s2, bs, psn) => if psn then (s2, .error .fail) else (s2, .ok bs)

/-- Bytes written by the dispatcher within one 64 KiB page. -/
def dispWrite (s : State) (p va : Nat) (bs : List Byte) : State × Except DispStop Unit :=
  match dispPieces s p .wr [(va, bs.length)] with
  | (s1, .error e) => (s1, .error e)
  | (s1, .ok qs) =>
    (qs.foldl (fun s q =>
      let s1 := countPiece s p q
      writePaBytes (if spaceOf q.pa = 2 then sendFlits s1 q.pa (1 + (q.n + 127) / 128) else s1) none p q.pa bs) s1, .ok ())

/-! ### Launch records (16 R344, R345, R349) -/

def byteOf (bs : List Byte) (i : Nat) : Nat := (bs.getD i 0).toNat
/-- A little-endian field of n bytes. -/
def fieldOf (bs : List Byte) (off n : Nat) : Nat := ofLeBytes ((bs.drop off).take n)

/-- The level count of a record. -/
def recLevels (bs : List Byte) : Nat := byteOf bs 0x1D

def recOf (bs : List Byte) : Rec :=
  { ver := fieldOf bs 0 2, flags := fieldOf bs 2 2, cls := byteOf bs 4, prio := byteOf bs 5, entry := BitVec.ofNat 64 (fieldOf bs 8 8),
    argva := fieldOf bs 0x10 8, argsz := fieldOf bs 0x18 4, wcode := byteOf bs 0x1C,
    levels := (List.range (min 8 (recLevels bs))).map (fun i =>
      let d := byteOf bs (0x24 + 8 * i)
      ⟨fieldOf bs (0x20 + 8 * i) 4, d % 16, d / 16⟩),
    v := fieldOf bs 0x60 2, t := byteOf bs 0x62, bars := (List.range 4).map (fun i => byteOf bs (0x64 + i)), scr := fieldOf bs 0x68 4,
    tmb := fieldOf bs 0x6C 4, pmapva := fieldOf bs 0x70 8,
    ranges := (List.range 8).map (fun j => (fieldOf bs (0x80 + 12 * j) 8, fieldOf bs (0x88 + 12 * j) 4)),
    cva := fieldOf bs 0xE0 8, cval := BitVec.ofNat 64 (fieldOf bs 0xE8 8), cost := fieldOf bs 0xF0 8, evt := fieldOf bs 0xF8 8 }

/-- Bytes that R344's table does not list. -/
def recReserved : List Nat :=
  [0x06, 0x07, 0x1E, 0x1F, 0x63] ++ (List.range 8).map (fun i => 0x78 + i) ++
  (List.range 8).flatMap (fun i => [0x25 + 8 * i, 0x26 + 8 * i, 0x27 + 8 * i])

def Rec.ordall (r : Rec) : Bool := bitN r.flags 0
def Rec.hasPmap (r : Rec) : Bool := bitN r.flags 1
def Rec.irq (r : Rec) : Bool := bitN r.flags 2

/-- Check 2 of R349 fails: a reserved byte or bit, a field out of range, a level beyond the last that is not zero, an unaligned address. -/
def recMalformed (maxcls : Nat) (bs : List Byte) (r : Rec) : Bool :=
  recReserved.any (fun i => byteOf bs i != 0) || decide (8 ≤ r.flags) || decide (min 3 maxcls < r.cls) || decide (3 < r.prio) ||
  r.argva % 8 != 0 || (r.argva == 0 && r.argsz != 0) || decide (65536 < r.argsz) || decide (3 < r.wcode) ||
  decide (r.v < 1) || decide (256 < r.v) || decide (8 < r.t) || r.scr % 4 != 0 || r.tmb % 4 != 0 || r.pmapva % 8 != 0 ||
  (r.pmapva != 0 && !r.hasPmap) || r.ranges.any (fun q => decide (2 ^ 48 ≤ q.1)) || r.cva % 16 != 0 || decide (2 ^ 63 ≤ r.cost) ||
  r.evt % 8 != 0 || decide (2 ^ 48 ≤ r.evt) ||
  (List.range 8).any (fun i => decide (recLevels bs ≤ i) && decide (recLevels bs ≤ 8) && fieldOf bs (0x20 + 8 * i) 5 != 0)

/-! ### Queues and budgets (16 R346 to R348, R362) -/

def Part.queue (P : Part) (q : Nat) : Queue := P.queues.lookD Queue.reset q
def State.updQueue (s : State) (p q : Nat) (f : Queue → Queue) : State :=
  s.updPart p (fun P => { P with queues := P.queues.setAt q (f (P.queue q)) })
def Queue.lvl (Q : Queue) (lv : Nat) : QLevel := Q.levels.getD lv ⟨0, 0, 0⟩
def Queue.setLvl (Q : Queue) (lv : Nat) (l : QLevel) : Queue := { Q with levels := listSet Q.levels lv l }
def Queue.entries (Q : Queue) : Nat := 2 ^ Q.log2n
/-- (a − b) mod 2^32. -/
def diff32 (a b : Nat) : Nat := (a % 2 ^ 32 + 2 ^ 32 - b % 2 ^ 32) % 2 ^ 32
def Queue.slotVa (Q : Queue) (lv idx : Nat) : Nat := (Q.lvl lv).rbase + 256 * (idx % Q.entries)

/-- A signed amount added to a budget, saturating (16 R348). -/
def budgetAdd (b d : Int) : Int := max (-(2 ^ 63)) (min (2 ^ 63 - 1) (b + d))

/-- Records that a host TAIL write covers. -/
def hostAppends (Q : Queue) (q lv tail : Nat) : List Append :=
  let old := (Q.lvl lv).tail
  (List.range (diff32 tail old)).map (fun i =>
    let k := (old + i) % 2 ^ 32
    { q, level := lv, idx := k, va := Q.slotVa lv k, parent := none, cost := 0, cancelled := false, passed := false })

/-- TAIL_WRITE (16 R347). -/
def tailNow (part q lv : Nat) (v : BitVec 32) (s : State) : State :=
  (s.updPart part (fun P =>
    if 64 ≤ q ∨ 4 ≤ lv then P
    else
      let Q := P.queue q
      let l := Q.lvl lv
      if Q.en && !Q.dev && decide (diff32 v.toNat l.head ≤ Q.entries) && decide (diff32 v.toNat l.tail ≤ Q.entries) then
        { P with queues := P.queues.setAt q (Q.setLvl lv { l with tail := v.toNat }), appended := P.appended ++ hostAppends Q q lv v.toNat }
      else { P with queues := P.queues.setAt q { Q with badtail := true } }))
def execTailWrite (part q lv : Nat) (v : BitVec 32) (s : State) : Host.Outcome State Fault Refusal := .next (tailNow part q lv v s)

/-- QBADD_WRITE (16 R348). -/
def qbaddNow (part q : Nat) (v : BitVec 64) (s : State) : State :=
  (if 64 ≤ q then s else s.updQueue part q (fun Q => { Q with budget := budgetAdd Q.budget (valOf true 64 v.toNat) }))
def execQbaddWrite (part q : Nat) (v : BitVec 64) (s : State) : Host.Outcome State Fault Refusal := .next (qbaddNow part q v s)

/-- A status word (16 R360). -/
def statusWord (status hcode tcode tcyc : Nat) : Nat := status + hcode * 2 ^ 8 + tcode * 2 ^ 16 + min tcyc (2 ^ 32 - 1) * 2 ^ 32

/-- A task that did not run ends with a status: a charged COST is returned (16 R348, R362). -/
def endTask (s : State) (p seq status : Nat) : State :=
  match s.parts.look p with
  | none => s
  | some P =>
    match P.tasks.look seq with
    | none => s
    | some t =>
      let s1 := s.updQueue p t.q (fun Q => { Q with budget := budgetAdd Q.budget (t.charged : Int) })
      s1.updPart p (fun P => { P with tasks := P.tasks.setAt seq { t with charged := 0, fin := some (statusWord status 0 0 0) } })

/-- Every record of a queue that has been appended and not started ends with status 9 (16 R362). -/
def cancelQueue (s : State) (p q : Nat) : State :=
  match s.parts.look p with
  | none => s
  | some P =>
    let s1 := (P.tasks.filter (fun e => e.2.q == q && e.2.launch.isNone && e.2.fin.isNone)).foldl (fun s e => endTask s p e.1 9) s
    s1.updPart p (fun P => { P with appended := P.appended.map (fun a => if a.q = q then { a with cancelled := true } else a) })

/-- EN := 0. -/
def disableQueue (s : State) (part q : Nat) : State :=
  match s.parts.look part with
  | none => s
  | some P => if (P.queue q).en then cancelQueue (s.updQueue part q (fun Q => { Q with en := false })) part q else s

/-- QUEUE_DISABLE (16 R362). -/
def execQueueDisable (part q : Nat) (s : State) : Host.Outcome State Fault Refusal := .next (disableQueue s part q)

/-- QUEUE_CONTROL_WRITE: the control word, RBASE of a level, or BADTAIL and FULLDROP; a write that sets a reserved bit is
ignored (16 R346). -/
def queueControlNow (part q off : Nat) (v : BitVec 64) (s : State) : State :=
  let x := v.toNat
  match s.parts.look part with
  | none => s
  | some P =>
    let Q := P.queue q
    if 64 ≤ q then s
    else if off = 0 then
      if bitsN x 63 19 != 0 || bitsN x 15 12 != 0 || bitsN x 7 2 != 0 then s
      else if Q.en then
        if bitN x 0 then s
        else (disableQueue s part q)
      else (s.updQueue part q (fun Q =>
        { Q with en := bitN x 0, dev := bitN x 1, log2n := max 2 (min 12 (bitsN x 11 8)), set := bitsN x 18 16 }))
    else if off = 0x88 then
      if 4 ≤ x then s
      else (s.updQueue part q (fun Q => { Q with badtail := Q.badtail && !bitN x 1, fulldrop := Q.fulldrop && !bitN x 0 }))
    else if off % 0x20 = 8 ∧ off < 0x80 then
      if Q.en || bitsN x 63 48 != 0 || bitsN x 7 0 != 0 then s
      else (s.updQueue part q (fun Q => Q.setLvl (off / 0x20) { (Q.lvl (off / 0x20)) with rbase := x }))
    else s
def execQueueControlWrite (part q off : Nat) (v : BitVec 64) (s : State) : Host.Outcome State Fault Refusal := .next (queueControlNow part q off v s)

/-! ### ENQ at the dispatcher (08 R198, R199) -/

/-- The status that R198's checks give; none: the record may be appended. -/
def enqStatus (P : Part) (e : EnqReq) (r : Rec) : Option Nat :=
  let Q := P.queue e.q.toNat
  let l := Q.lvl e.level
  if 63 < e.q.toNat || !Q.en || !Q.dev then some 4
  else if e.psn || r.ver != 1 || recMalformed P.maxcls e.bytes r then some 3
  else if Q.entries ≤ diff32 l.tail l.head then some 2
  else if Q.budget - (r.cost : Int) < 0 then some 1
  else none

/-- The ENQ's status is written: sd, pd, and the latch that the ENQ shifted (08 R184). -/
def enqDone (s : State) (g : Nat) (e : EnqReq) (status : Nat) : State :=
  s.updGroup g (fun G =>
    let G1 := { G with enq := none }
    let G2 := if e.nw then G1 else G1.setS e.sd.toNat (BitVec.ofNat 64 status) false
    G2.updLanes e.lanes (fun _ l => (l.setPred e.pd.toNat (status == 0)).fillEnq (BitVec.ofNat 64 status)))

/-- Does another ENQ hold a level of a queue, its record charged and not yet appended? One queue takes its ENQs in a single order (08 R198). -/
def enqHeld (s : State) (p g : Nat) (e : EnqReq) : Bool :=
  s.groups.any (fun x => x.1 != g && s.partNo x.2 == p && x.2.enq.any (fun d => d.charged && d.q == e.q))

/-- The record of a charged ENQ written into the ring slot at TAIL, and appended; a fault of that write is posted, and the ENQ waits; a
write that fails returns the charge (08 R198). A queue that was disabled meanwhile takes the record as cancelled, with status 0 (DESIGN
CHOICE, log 83). -/
def enqAppend (s : State) (g p : Nat) (G : Group) (P : Part) (e : EnqReq) : State :=
  let q := e.q.toNat
  let cost := (recOf e.bytes).cost
  let Q := P.queue q
  let idx := (Q.lvl e.level).tail
  match dispWrite s p (Q.slotVa e.level idx) e.bytes with
  | (s1, .error .wait) => s1
  | (s1, .error .fail) => enqDone (s1.updQueue p q (fun Q => { Q with budget := budgetAdd Q.budget (cost : Int) })) g e 5
  | (s1, .ok ()) =>
    let s2 := s1.updQueue p q (fun Q => Q.setLvl e.level { (Q.lvl e.level) with tail := (idx + 1) % 2 ^ 32 })
    let a : Append := { q, level := e.level, idx, va := Q.slotVa e.level idx, parent := some G.launch, cost, cancelled := !Q.en, passed := false }
    enqDone (s2.updPart p (fun P => { P with appended := P.appended ++ [a], enqc := P.enqc + cost })) g e 0

/-- An ENQ issued again reads the 256 bytes of its record anew: none where a fault or what stands at a home holds the read. A record that can
no longer be read is taken as it was read at first (DESIGN CHOICE, log 83). -/
def enqReread (s : State) (g : Nat) (G : Group) (e : EnqReq) : State × Option EnqReq :=
  let r := resolveAll s G .load 8 ((List.range 32).map (fun i => (e.lanes.headD 0, e.va + 8 * i)))
  if r.trap.isSome then (r.s, some { e with again := false })
  else if r.busy.isSome then (r.s, none)
  else match holdFault r G (s.partNo G) Need.rd.kind with
    | some (_, s1) => (s1, none)
    | none =>
      match holdAll r.s g G false false r.ok with
      | (s1, some _) => (s1, none)
      | (s1, none) =>
        let q := readLanes g G.tile 8 (fun v => v) (countReqs s1 (s.partNo G) r.req) r.ok
        (q.1, some { e with again := false, bytes := q.2.flatMap (fun w => leBytes 8 w.2.1), psn := q.2.any (fun w => w.2.2) })

/-- ENQ_AT_DISPATCHER, which comes while issue goes on (08 R199): checks and charge at once, then the append. One that has reached the
dispatcher when issue stops completes; of a group that ends, its counters and its side log come first (08 R188). -/
def execEnqAtDispatcher (g : Nat) (s : State) : Host.Outcome State Fault Refusal :=
  match s.groups.look g with
  | none => .next s
  | some G =>
    match G.enq, s.partOf G with
    | some e, some P =>
      let p := s.partNo G
      let q := e.q.toNat
      let r := recOf e.bytes
      if e.charged then .next (enqAppend s g p G P e)
      else if P.stopped || enqHeld s p g e || G.ending || (G.lanes.all Lane.exited && slgHolds s g G (List.range G.lanes.length)) then .next s
      else if e.again then
        .next (match enqReread s g G e with
          | (s1, some e1) => s1.updGroup g (fun G => { G with enq := some e1 })
          | (s1, none) => s1)
      else (match enqStatus P e r with
        | some st =>
          let s1 := if st = 2 then s.updQueue p q (fun Q => { Q with fulldrop := true }) else s
          .next (enqDone s1 g e st)
        | none =>
          let e1 := { e with charged := true }
          let s1 := (s.updQueue p q (fun Q => { Q with budget := Q.budget - (r.cost : Int) })).updGroup g (fun G => { G with enq := some e1 })
          .next (enqAppend s1 g p G P e1))
    | _, _ => .next s

/-! ### Completion (16 R359, R360; 22 R434) -/

/-- Tasks whose event word is read again, since a completion write has landed (16 R352). -/
def repoll (P : Part) : Part := { P with tasks := P.tasks.mapV (fun _ t => { t with polled := 0 }) }

/-- The open drop windows of a partition's tiles posted. -/
def postDrops (s : State) (p : Nat) : State :=
  match s.parts.look p with | some P => P.tiles.foldl postDrop s | none => s

/-- The open drop windows that STNs of a launch caused posted (22 R434). -/
def postStnDrops (s : State) (launch : Option Nat) : State :=
  (s.tiles.filter (fun e => e.2.drop.any (fun w => launch.any w.launches.contains))).foldl (fun s e => postDrop s e.1) s

/-- A completion that could not be written (20 R424, type 7). -/
def completionLost (s : State) (p cva sw : Nat) : State := s.postEvent p 7 (leBytes 8 cva ++ leBytes 8 sw)

/-- The completion of a task that has ended: false when its write waits. -/
def completeTask (s : State) (p seq : Nat) : State × Bool :=
  match (s.parts.look p).bind (fun P => P.tasks.look seq) with
  | none => (s, false)
  | some t =>
    match t.fin with
    | none => (s, false)
    | some sw =>
      let gone : State → State := fun s => s.updPart p (fun P => { P with tasks := P.tasks.remove seq })
      if t.unread then (gone (completionLost s p 0 sw), true)
      else if t.rc.cva % 16 != 0 then (gone (completionLost s p t.rc.cva sw), true)
      else if t.rc.cva = 0 then (gone s, true)
      else
        match dispWrite (postStnDrops s t.launch) p (t.rc.cva + 8) (leBytes 8 sw) with
        | (s1, .error .wait) => (s1, false)
        | (s1, .error .fail) => (gone (completionLost s1 p t.rc.cva sw), true)
        | (s1, .ok ()) =>
          match dispWrite s1 p t.rc.cva (leBytes 8 t.rc.cval.toNat) with
          | (s2, .error .wait) => (s2, false)
          | (s2, .error .fail) => (gone (completionLost s2 p t.rc.cva sw), true)
          | (s2, .ok ()) =>
            let s3 := (gone s2).updPart p repoll
            (if t.rc.irq then s3.reply (.irq p t.q) else s3, true)

/-- Ended tasks in sequence order; of a queue's cancelled records only the first (16 R362). -/
def endedTasks (P : Part) : List Nat :=
  let l := P.tasks.filter (fun e => e.2.fin.isSome)
  (l.filter (fun e => !(e.2.fin == some 9 && l.any (fun d => d.2.fin == some 9 && d.2.q == e.2.q && decide (d.1 < e.1))))).map Prod.fst

/-- The first completion that can be made. -/
def completeFirst (s : State) (p : Nat) : List Nat → State × Bool
  | [] => (s, false)
  | t :: ts => match completeTask s p t with | (s1, true) => (s1, true) | (s1, false) => completeFirst s1 p ts

/-! ### Taking a record (16 R347, R349) -/

/-- Entries of a placement map: one for each unit of the placement level. -/
def mapUnits (r : Rec) : Nat := match r.highest 3 with | some h => r.localLanes / r.lanesOf h | none => 0

/-- A map is malformed: an entry beyond the tiles, or two equal (16 R355). -/
def mapBad (P : Part) (m : List Nat) : Bool := m.any (fun k => decide (P.tiles.length ≤ k)) || !(decide m.Nodup)

def halves : List Byte → List Nat
  | a :: b :: l => (a.toNat + 256 * b.toNat) :: halves l
  | _ => []

/-- What the checks of R349 after the record's read answer. -/
inductive Taken where
  | wait
  | status (n : Nat)
  | task (pmap : List Nat)
  deriving DecidableEq, Repr

/-- Checks 1 to 3 of R349. -/
def checkHead (P : Part) (a : Append) (bs : List Byte) (r : Rec) : Option Nat :=
  if a.parent.isSome then none
  else if r.ver != 1 then some 3
  else if recMalformed P.maxcls bs r then some 4
  else if (P.queue a.q).budget - (r.cost : Int) < 0 then some 8
  else none

/-- Checks 4 to 6 of R349. -/
def checkTail (s : State) (p : Nat) (P : Part) (bs : List Byte) (r : Rec) : State × Taken :=
  match hierFail s P (recLevels bs) r with
  | some st => (s, .status st)
  | none =>
    let fits := fun (m : Option (List Nat)) => unitsFit r && (planEmpty s P r m).isSome
    if r.hasPmap then
      let n := min (mapUnits r) (P.tiles.length + 1)
      match dispRead s p r.pmapva (2 * n) with
      | (s1, .error .wait) => (s1, .wait)
      | (s1, .error .fail) => (s1, .status 10)
      | (s1, .ok b) =>
        let m := halves b
        if mapBad P m || decide (m.length < mapUnits r) then (s1, .status 4)
        else (s1, if fits (some m) then .task m else .status 7)
    else (s, if fits none then .task [] else .status 7)

/-- The record leaves its ring and becomes a task with the next sequence number (16 R347). -/
def takeInto (s : State) (p : Nat) (a : Append) (r : Rec) (pmap : List Nat) (charged : Nat) (unread ok : Bool) : State :=
  s.updPart p (fun P =>
    let Q := P.queue a.q
    let t : Task := { seq := P.seq, part := p, q := a.q, level := a.level, set := Q.set, rc := r, parent := a.parent, pmap, fired := false, polled := 0,
                      since := none, starved := false, launch := none, charged, fin := none, unread, ok }
    { P with
      appended := P.appended.drop 1, seq := P.seq + 1, tasks := P.tasks.setAt P.seq t,
      queues := P.queues.setAt a.q (Q.setLvl a.level { (Q.lvl a.level) with head := (a.idx + 1) % 2 ^ 32 }) })

/-- A record taken and ended at once; a cancelled one completes after the earlier ones of its queue (16 R362). -/
def takeEnd (s : State) (p : Nat) (a : Append) (r : Rec) (unread : Bool) (status : Nat) : State :=
  let seq := match s.parts.look p with | some P => P.seq | none => 0
  let s1 := endTask (takeInto s p a r [] a.cost unread false) p seq status
  match s1.parts.look p with
  | some P => if (endedTasks P).contains seq then (completeTask s1 p seq).1 else s1
  | none => s1

/-- A record that has passed the budget check: a host-appended one is charged (16 R348). -/
def chargeHost (s : State) (p : Nat) (a : Append) (r : Rec) : State × Append :=
  let a1 := { a with cost := if a.parent.isSome then a.cost else r.cost, passed := true }
  let s1 := if a.parent.isSome then s else s.updQueue p a.q (fun Q => { Q with budget := Q.budget - (r.cost : Int) })
  (s1.updPart p (fun P => { P with appended := a1 :: P.appended.drop 1 }), a1)

/-- Checks 4 to 6 of a charged record. -/
def takeTail (s : State) (p : Nat) (P : Part) (a : Append) (bs : List Byte) (r : Rec) : State :=
  match checkTail s p P bs r with
  | (s2, .wait) => s2
  | (s2, .status st) => takeEnd s2 p a r false st
  | (s2, .task m) => takeInto s2 p a r m a.cost false true

/-- The oldest appended record taken. -/
def takeRecord (s : State) (p : Nat) (P : Part) (a : Append) : State :=
  match dispRead s p a.va 256 with
  | (s1, .error .wait) => s1
  | (s1, .error .fail) =>
    takeEnd s1 p a (recOf []) true (if a.cancelled then 9 else 10)
  | (s1, .ok bs) =>
    let r := recOf bs
    if a.cancelled then takeEnd s1 p a r false 9
    else if a.passed then takeTail s1 p P a bs r
    else
      match checkHead P a bs r with
      | some st => takeEnd s1 p a r false st
      | none =>
        let c := chargeHost s1 p a r
        takeTail c.1 p P c.2 bs r

/-- RECORD_TAKE: a completion that waited is made, or the oldest appended record is taken. -/
def execRecordTake (part : Nat) (s : State) : Host.Outcome State Fault Refusal :=
  match s.parts.look part with
  | none => .next s
  | some P =>
    match completeFirst s part (endedTasks P) with
    | (s1, true) => .next s1
    | (s1, false) =>
      match P.appended with
      | [] => .next s1
      | a :: _ => .next (takeRecord s1 part P a)

/-! ### Dependence, events and rank (16 R351 to R353) -/

/-- A range widened to multiples of 256. -/
def widened (q : Nat × Nat) : Nat × Nat := (q.1 / 256 * 256, (q.1 + q.2 + 255) / 256 * 256)
def rangesMeet (a b : Nat × Nat) : Bool :=
  a.2 != 0 && b.2 != 0 && decide ((widened a).1 < (widened b).2) && decide ((widened b).1 < (widened a).2)

/-- A task is incomplete until its completion write, or until it is cancelled; a refused record is no task (16 R349). -/
def Task.incomplete (t : Task) : Bool := t.ok && t.fin != some 9

/-- Does task T depend on an earlier incomplete task U? -/
def dependsOn (t u : Task) : Bool :=
  decide (u.seq < t.seq) && u.incomplete && u.set == t.set && !(u.launch.isSome && u.launch == t.parent) &&
  (t.rc.ordall || u.rc.ordall ||
    (u.rc.ranges.drop 4).any (fun a => t.rc.ranges.any (rangesMeet a)) ||
    (u.rc.ranges.take 4).any (fun a => (t.rc.ranges.drop 4).any (rangesMeet a)))

def waitingTask (t : Task) : Bool := t.launch.isNone && t.fin.isNone
/-- No dependence is left. -/
def depsClear (P : Part) (t : Task) : Bool := !(P.tasks.any (fun e => dependsOn t e.2))
def eligible (P : Part) (t : Task) : Bool := waitingTask t && depsClear P t && (t.rc.evt == 0 || t.fired)

/-- EVENT_POLL: the event word read as an acquire (16 R352). -/
def execEventPoll (part task : Nat) (s : State) : Host.Outcome State Fault Refusal :=
  match s.parts.look part with
  | none => .next s
  | some P =>
    match P.tasks.look task with
    | none => .next s
    | some t =>
      if !(waitingTask t && depsClear P t && t.rc.evt != 0 && !t.fired) then .next s
      else
        match dispRead s part t.rc.evt 8 with
        | (s1, .error .wait) => .next s1
        | (s1, .error .fail) => .next (completeTask (endTask s1 part task 10) part task).1
        | (s1, .ok bs) =>
          let t1 := { t with fired := ofLeBytes bs != 0, polled := s.clock + 1 }
          .next (s1.updPart part (fun P => { P with tasks := P.tasks.setAt task t1 }))

/-- Has the task been eligible for 2^20 cycles? -/
def Task.overdue (t : Task) (clock : Nat) : Bool := t.starved || (match t.since with | some c => decide (c + 2 ^ 20 ≤ clock) | none => false)

/-- TASK_STARVATION: eligible for 2^20 cycles without starting (16 R353). -/
def execTaskStarvation (part task : Nat) (s : State) : Host.Outcome State Fault Refusal :=
  .next (s.updPart part (fun P =>
    match P.tasks.look task with
    | none => P
    | some t =>
      if eligible P t && t.overdue s.clock then
        { P with tasks := P.tasks.setAt task { t with starved := true } }
      else P))

/-- T ranks above U: queue level, then PRIO, then sequence number. -/
def ranksAbove (t u : Task) : Bool :=
  decide (u.level < t.level) || (t.level == u.level && (decide (u.rc.prio < t.rc.prio) || (t.rc.prio == u.rc.prio && decide (t.seq < u.seq))))

def Task.map? (t : Task) : Option (List Nat) := if t.rc.hasPmap then some t.pmap else none

/-- May T start now: no starved or startable eligible task ranks above it. -/
def firstInRank (s : State) (p : Nat) (P : Part) (t : Task) : Bool :=
  !(P.tasks.any (fun e => eligible P e.2 && ranksAbove e.2 t && (e.2.overdue s.clock || (planNow s p P e.2.rc e.2.map? false).isSome)))

/-! ### Start (16 R356; 01 R18) -/

/-- TM banks that a placement's TM runs touch (14 R325). -/
def planBanks (x : Plan) : List (Nat × GateUnit) :=
  (x.tm.flatMap (fun a =>
    (List.range ((a.base + a.size + 524287) / 524288 - a.base / 524288)).map (fun k => (a.tile, GateUnit.tmBank (a.base / 524288 + k))))).dedup

/-- The runs of a core's store that a placement takes. -/
def planRuns (x : Plan) (r : Rec) (tile core : Nat) : List (Nat × Nat) :=
  ((x.groups.filter (fun g => g.tile == tile && g.core == core)).map (fun g => (g.win, page4 (r.v * r.w * 4)))) ++
  ((x.scr.filter (fun a => a.tile == tile && a.core == core)).map (fun a => (a.base, a.size)))

/-- Gated units that a placement needs begin to wake; whether all of them are awake (14 R304, R326). Runs of the reserve are no more store
than is set aside already. -/
def wakePlan (s : State) (x : Plan) (r : Rec) (reserve : Bool) : State × Bool :=
  let a := ((x.groups.map (fun g => (g.tile, g.core))).dedup).foldl (fun (q : State × Bool) k =>
    let runs := planRuns x r k.1 k.2
    let w := wakeStore q.1 k.1 k.2 runs (if reserve then 0 else sumOf (runs.map Prod.snd))
    (w.1, q.2 && w.2)) (s, true)
  let us := planBanks x
  let s1 := us.foldl (fun (s : State) (u : Nat × GateUnit) => s.updTile u.1 (fun t =>
    if t.gated.contains u.2 then { t with gated := t.gated.filter (· != u.2), waking := t.waking ++ [u.2] } else t)) a.1
  (s1, a.2 && !us.any (fun u => (s1.tileAt u.1).waking.contains u.2))

def Lane.start (entry : BitVec 64) : Lane :=
  let l : Latch := { val := 0, valid := false, psn := false, enq := false }
  { pc := entry, v := [], vPsn := [], p := 0, lat := ⟨l, l, l, l⟩, fflags := 0, srctr := 0, exited := false, block := .free, held := false,
    yielded := none, chain := 0, chainPc := entry, wd := 0, wdDue := false, arr := [], slg := [], deny := none, heldWord := 0 }

/-- A group as it starts (01 R18). -/
def Group.start (launch age : Nat) (r : Rec) (x : Spot) : Group :=
  { launch, tile := x.tile, core := x.core, slot := x.slot, pos := x.pos, w := r.w, v := r.v, t := r.t, lin := x.lin, age, win := x.win,
    lanes := List.replicate r.w (Lane.start r.entry), s := [], sPsn := [], srseed := 0, arstat := 0, region := none, sb := [], cnt := [],
    issued := [], errs := [], stall := none, ra := none, priv := false, epc := 0, ecause := 0, eaddr := 0, emask := 0, einsl := 0, einsh := 0,
    escr0 := 0, escr1 := 0, acc := [], alatch := none, grow := none, shrnk := none, enq := none, mreset := false, frozen := false,
    fabLost := [] }

/-- Step 1 of R356: a launch that holds every resource of a placement, its groups not yet ready. -/
def reserveLaunch (s : State) (p : Nat) (t : Task) (x : Plan) (reserve : Bool) : State :=
  let lid := s.nextId
  let L : Launch := {
    part := p, q := t.q, level := t.level, seq := t.seq, rc := t.rc, args := [], tm := x.tm, scr := x.scr,
    slots := (x.groups.map (fun g => (g.tile, g.core, g.slot))).dedup, cbars := x.cbars, tbars := x.tbars, phase := [], halt := none,
    engErr := none, ended := [], times := [], fabric := none, calls := [], reserve, startSeq := lid, starting := true }
  let gs := x.groups.mapIdx (fun i g => (lid + 1 + i, Group.start lid 0 t.rc g))
  { s with
    launches := s.launches.setAt lid L
    groups := gs.foldl (fun (m : FMap Group) (e : Nat × Group) => m.setAt e.1 e.2) s.groups
    nextId := lid + 1 + gs.length
    parts := (s.updPart p (fun P => { P with tasks := P.tasks.setAt t.seq { t with launch := some lid } })).parts }

/-- The reservations of a launch released (16 R349). -/
def releaseLaunch (s : State) (p lid : Nat) (t : Task) : State :=
  let cores := ((s.groups.filter (fun e => e.2.launch == lid)).map (fun e => (e.2.tile, e.2.core))).dedup
  let s1 := { s with groups := s.groups.keep (fun _ G => G.launch != lid), launches := s.launches.remove lid }
  let s2 := carveIdle (cores.foldl (fun s c => leaveCore s lid c.1 c.2) s1) p (cores.map Prod.fst).dedup
  s2.updPart p (fun P => { P with tasks := P.tasks.setAt t.seq { t with launch := none } })

/-- Pending reductions to the lines of a TM range drained, then its bytes zeroed (14 R308, R321). -/
def zeroAlloc (s : State) (a : Alloc) : State :=
  let lines := (s.tileAt a.tile).wq.filter (fun e => (tmPieces a.tile a.base a.size).any (fun q => decide (q.1 ≤ e.line * lineBytes) &&
    decide (e.line * lineBytes < q.1 + q.2)))
  (lines.foldl (fun s e => drainLine s e.line) s).zeroTm a.tile a.base a.size

/-- Steps 2 to 4 of R356: the argument copy, TM and scratch zeroed, every group ready at ENTRY. The kernel begins: copies of stable pages
go (13 R303). -/
def startLaunch (s : State) (p lid : Nat) (L : Launch) (args : List Byte) : State :=
  let tiles := ((s.groups.filter (fun e => e.2.launch == lid)).map (fun e => e.2.tile)).dedup
  let fab := if (L.rc.levels.getLast?.map Level.dom) == some 5 then (s.parts.look p).map Part.fabLaunches else none
  let s1 := L.tm.foldl zeroAlloc (dropStable s tiles)
  let s2 := L.scr.foldl (fun s a => s.zeroRange (storeLoc a.tile a.core a.base) a.size) s1
  let s3 := { s2 with groups := s2.groups.mapV (fun _ G => if G.launch = lid then { G with age := s.clock } else G) }
  let s4 := s3.updLaunch lid (fun L => { L with
    args, fabric := fab, starting := false, times := tiles.foldl (fun (m : FMap (Nat × Nat)) q => m.setAt q (s.clock, s.clock)) [] })
  s4.updPart p (fun P => { P with lnch := P.lnch + 1, fabLaunches := if fab.isSome then P.fabLaunches + 1 else P.fabLaunches })

/-- A launch that holds its resources goes on; arguments that cannot be read end it (16 R349). -/
def startReserved (s : State) (p lid : Nat) (t : Task) : State :=
  match s.launches.look lid with
  | none => s
  | some L =>
    match dispRead s p t.rc.argva t.rc.argsz with
    | (s1, .error .wait) => s1
    | (s1, .error .fail) => (completeTask (endTask (releaseLaunch s1 p lid t) p t.seq 10) p t.seq).1
    | (s1, .ok args) => startLaunch s1 p lid L args

/-- A placed task starts once the gated units that it needs are awake. -/
def startPlaced (s : State) (p : Nat) (t : Task) (x : Plan) (reserve : Bool) : State :=
  match wakePlan s x t.rc reserve with
  | (s1, false) => s1
  | (s1, true) => startReserved (reserveLaunch s1 p t x reserve) p s1.nextId { t with launch := some s1.nextId }

/-- The launch of a task whose start is under way. -/
def Task.startingIn (t : Task) (s : State) : Option Nat :=
  match t.launch with
  | some l => (match s.launches.look l with | some L => if L.starting then some l else none | none => none)
  | none => none

/-- LAUNCH_START. -/
def execLaunchStart (part task : Nat) (s : State) : Host.Outcome State Fault Refusal :=
  match s.parts.look part with
  | none => .next s
  | some P =>
    match P.tasks.look task with
    | none => .next s
    | some t =>
      if P.stopped then .next s
      else match t.startingIn s with
      | some lid => .next (startReserved s part lid t)
      | none =>
      if !eligible P t || !firstInRank s part P t then .next s
      else match planNow s part P t.rc t.map? false with
        | none => .next s
        | some x => .next (startPlaced s part t x false)

/-- WINDOW_RELOCATION: a parked group's window moved to a lower free run (16 R356; 01 R28). -/
def execWindowRelocation (g base : Nat) (s : State) : Host.Outcome State Fault Refusal :=
  match s.groups.look g with
  | none => .next s
  | some G =>
    let (lo, hi) := areaOf s G
    let others := scratchTaken s G.tile G.core ++ windowsTaken s G.tile G.core [g]
    if parked s g G && !G.frozen && decide (base < G.win) && base % 4096 == 0 && runFree lo hi others base G.winSize then
      (match wakeStore s G.tile G.core [(base, G.winSize)] 0 with
        | (s1, true) => .next (s1.setGroup g { G with win := base })
        | (s1, false) => .next s1)
    else .next s

/-! ### The end of a launch (16 R359, R360) -/

/-- Tile-cycles: over each tile, first group start to last group end. -/
def tileCycles (L : Launch) : Nat := sumOf (L.times.map (fun e => e.2.2 - e.2.1))

/-- STATUS, HCODE and TCODE of a launch. -/
def launchStatus (L : Launch) : Nat :=
  match L.halt, L.engErr with
  | some (h, _), _ => statusWord 1 (h % 256) 0 (tileCycles L)
  | none, some c => statusWord 2 0 (c % 256) (tileCycles L)
  | none, none => statusWord 0 0 0 (tileCycles L)

/-- Do remote homes still owe a launch an acknowledgement (19 R402)? -/
def launchOwed (s : State) (launch : Nat) : Bool := s.ports.any (fun e => e.2.owed.any (fun o => o.launch == launch))

/-- LAUNCH_COMPLETION: the launch releases its resources and its completion write is made. -/
def execLaunchCompletion (launch : Nat) (s : State) : Host.Outcome State Fault Refusal :=
  match s.launches.look launch with
  | none => .next s
  | some L =>
    if s.groups.any (fun e => e.2.launch == launch) || s.ops.any (fun e => e.2.launch == launch) || launchOwed s launch then .next s
    else
      let s1 := match L.halt with
        | some (h, t) => s.postEvent L.part 3 (leBytes 8 L.rc.cva ++ leBytes 1 (h % 256) ++ leBytes 1 L.q ++ leBytes 1 L.level ++ leBytes 1 0 ++
            leBytes 2 t ++ leBytes 2 0)
        | none => s
      let s2 := carveIdle { s1 with
        launches := s1.launches.remove launch,
        calls := s1.calls.keep (fun _ c => c.launch != launch),
        tiles := s1.tiles.mapV (fun _ t => { t with cbufs := t.cbufs.keep (fun _ b => b.owner != launch) }) } L.part (L.slots.map (fun q => q.1)).dedup
      let s3 := s2.updPart L.part (fun P => { P with tasks := P.tasks.mapV (fun _ t =>
        if t.launch = some launch then { t with fin := some (launchStatus L) } else t) })
      .next (completeTask (endFabric s3 L) L.part L.seq).1

end Sys2Proof.Machine
end

