-- ==== Sys2Proof/Machine/Records.lean ====
section
/-!
DEFINITION. Usage records, the rings that the host reads, and what the device reads of a partition's frames (spec 15 R328;
20 R413, R422 to R424).
-/

namespace Sys2Proof.Machine

/-! ### Byte strings -/

/-- Exactly n bytes: cut, or padded with zeros. -/
def padTo (n : Nat) (bs : List Byte) : List Byte := (bs.take n) ++ List.replicate (n - bs.length) 0

def digest (bs : List Byte) : List Byte := padTo 48 (Config.sha3_384 bs)

/-- A fresh value consumed. -/
def State.tick (s : State) : State := { s with fresh := s.fresh + 1 }

/-! ### The leaves of stage 2 (15 R327 to R329) -/

/-- Offsets of the eight-byte entries of a table of n bytes that hold some byte. -/
def tableEntries (s : State) (tbl n : Nat) : List Nat :=
  let b := if spaceOf tbl = 3 then hostLoc (tbl % 2 ^ 45) else tbl
  ((s.mem.filter (fun e => b ≤ e.1 && e.1 < b + n)).map (fun e => (e.1 - b) / 8)).dedup

/-- Valid leaves below a table: IPA, page size, entry, and the address of the entry. -/
def leavesFrom (s : State) (tbl ipa : Nat) : Nat → List (Nat × Nat × Nat × Nat)
  | 0 => []
  | k + 1 =>
    let lvl := 4 - k
    (tableEntries s tbl (if lvl = 4 then 256 else 4096)).flatMap (fun i =>
      let e := s.readN (locOf s (tbl + 8 * i)) 8
      let a := ipa + i * 2 ^ lvlShift lvl
      if !bitN e 0 || pteBad true lvl e then []
      else if pteLeaf e then [(a, 2 ^ lvlShift lvl, e, tbl + 8 * i)]
      else leavesFrom s (pteAddr e) a k)

def s2Leaves (s : State) (P : Part) : List (Nat × Nat × Nat × Nat) := leavesFrom s P.s2root 0 4

/-- HBM ranges that a partition's stage-2 leaves map: (PA, bytes). -/
def hbmRanges (s : State) (P : Part) : List (Nat × Nat) :=
  ((s2Leaves s P).filter (fun l => spaceOf (pteAddr l.2.2.1) == 0)).map (fun l => (pteAddr l.2.2.1, l.2.1))

/-- 64 KiB frames that they map. -/
def mappedFrames (s : State) (P : Part) : Nat := sumOf ((hbmRanges s P).map (fun r => r.2 / granBytes))

/-! ### Usage records (20 R422) -/

/-- Tile-cycles of the partition up to now. -/
def tcycNow (s : State) (P : Part) : Nat := P.tcyc + (s.clock - P.tcycAt) * P.tiles.length

/-- Bytes 0x00 to 0x7F of a usage record. -/
def usageHead (s : State) (p : Nat) (P : Part) (kind lost : Nat) : List Byte :=
  leBytes 2 1 ++ leBytes 1 p ++ leBytes 1 kind ++ leBytes 4 lost ++ leBytes 8 P.useSeq ++ leBytes 8 s.clock ++ leBytes 8 (tcycNow s P) ++
  leBytes 8 P.frmt ++ leBytes 8 P.fabtx ++ leBytes 8 P.fabrx ++ leBytes 8 P.lnch ++ leBytes 8 P.enqc ++ leBytes 4 P.tiles.length ++
  leBytes 4 P.epoch ++ padTo 48 P.usePrev

/-- A head with its LOST field. -/
def withLost (head : List Byte) (lost : Nat) : List Byte := head.take 4 ++ leBytes 4 lost ++ head.drop 8

/-- The signed record: 3,437 bytes. -/
def signedUsage (key : Nat) (head : List Byte) : List Byte := head ++ padTo 3309 (Config.signature key head)

/-- A usage record written to a ring, an entry of 4 KiB: LOST says how many were dropped before it, and PREV is of the record as this ring
has it, where it has the one before in SEQ (DEDUCED, log 56). -/
def putUsage (key : Nat) (s : State) (r : Ring) (head : List Byte) : State × Ring :=
  let seq := ofLeBytes ((head.drop 8).take 8)
  let h := withLost head r.lost
  let full := signedUsage key (match r.last with | some (n, d) => if n + 1 = seq then h.take 80 ++ d ++ h.drop 128 else h | none => h)
  let q := putRecord 4096 s r (padTo 3456 full)
  (q.1, { q.2 with lost := 0, last := some (seq, digest full) })

/-- A usage record of a kind posted; `pfOnly`: to the PF ring only. -/
def postUsage (s : State) (p kind : Nat) (pfOnly : Bool) : State :=
  match s.parts.look p with
  | none => s
  | some P =>
    let head := usageHead s p P kind 0
    let a := Ring.give (putUsage P.attKey) s P.usagePf head
    let b := if pfOnly then (a.1, P.usageVf) else Ring.give (putUsage P.attKey) a.1 P.usageVf head
    let prev := match a.2.last with | some (n, d) => if n = P.useSeq then d else digest (signedUsage P.attKey head) | none => digest (signedUsage P.attKey head)
    signalVf (b.1.updPart p (fun Q => { Q with useSeq := Q.useSeq + 1, usePrev := prev, usagePf := a.2, usageVf := b.2 })) p P.usageVf b.2

/-- USAGE_RECORD_PERIODIC: sr.clock bits 30:0 are zero; a record for each partition (20 R422). -/
def execUsageRecordPeriodic (s : State) : Host.Outcome State Fault Refusal :=
  .next (s.parts.foldl (fun s e => postUsage s e.1 1 false) s)

/-- FRAME_TICK: the mapped frames are added to the frame-ticks (20 R422). -/
def execFrameTick (s : State) : Host.Outcome State Fault Refusal :=
  .next { s with parts := s.parts.mapV (fun _ P => { P with frmt := P.frmt + mappedFrames s P }) }

/-! ### Rings as their reader advances (20 R423; 15 R338, R343) -/

/-- The record that says how many event records a ring has lost (15 R343). -/
def lostRecord (r : Ring) : List Byte := leBytes 8 0 ++ leBytes 4 1 ++ leBytes 4 r.pi ++ leBytes 4 r.lost ++ leBytes 12 0

/-- A new CI: one below the previous or above PI is ignored; then held records are posted, and an event ring's lost count. -/
def ringAdvance (ci : Nat) (post : State → Ring → List Byte → State × Ring) (event : Bool) (s : State) (r : Ring) : State × Ring :=
  if diff32 r.pi r.ci < diff32 ci r.ci then (s, r)
  else
    let (s1, r1) := Ring.serve post s { r with ci := ci % 2 ^ 32 }
    if event && decide (0 < r1.lost) && r1.room && r1.en then
      let (s2, r2) := post s1 r1 (lostRecord r1)
      (s2, { r2 with lost := 0 })
    else (s1, r1)

/-- A ring's BASE, OVF, EN and SZ. -/
def ringWrite (r : Ring) (off v : Nat) : Ring :=
  match off with
  | 0 => { r with base := v / 4096 * 4096 }
  | 8 => { r with ovf := r.ovf && !bitN v 8, en := bitN v 4, sz := bitsN v 3 0 }
  | _ => r

/-- A register of a ring written: held records follow once it has room for them. -/
def ringSet (off v : Nat) (post : State → Ring → List Byte → State × Ring) (_ : Bool) (s : State) (r : Ring) : State × Ring :=
  Ring.serve post s (ringWrite r off v)

/-- A ring changed by f, told how its records are written and whether they are event records; what f posts is signalled (20 R409). -/
def withRing (part : Nat) (ring : RingId) (f : (State → Ring → List Byte → State × Ring) → Bool → State → Ring → State × Ring) (s : State) : State :=
  match ring, s.parts.look part with
  | .device, _ =>
    let (s1, r) := f (putRecord 32) true s s.devRing
    signalPfs { s1 with devRing := r } s.devRing r
  | .usagePf, some P =>
    let (s1, r) := f (putUsage P.attKey) false s P.usagePf
    s1.updPart part (fun P => { P with usagePf := r })
  | .usageVf, some P =>
    let (s1, r) := f (putUsage P.attKey) false s P.usageVf
    signalVf (s1.updPart part (fun P => { P with usageVf := r })) part P.usageVf r
  | .eventPf, some P =>
    let (s1, r) := f (putRecord 32) true s P.eventPf
    s1.updPart part (fun P => { P with eventPf := r })
  | .eventVf, some P =>
    let (s1, r) := f (putRecord 32) true s P.eventVf
    signalVf (s1.updPart part (fun P => { P with eventVf := r })) part P.eventVf r
  | _, none => s

/-- RING_CI_WRITE (20 R423). -/
def ringCiNow (part : Nat) (ring : RingId) (ci : BitVec 32) (s : State) : State := withRing part ring (ringAdvance ci.toNat) s
def execRingCiWrite (part : Nat) (ring : RingId) (ci : BitVec 32) (s : State) : Host.Outcome State Fault Refusal := .next (ringCiNow part ring ci s)

end Sys2Proof.Machine
end

