-- ==== Sys2Proof/Machine/Quiesce.lean ====
section
/-!
DEFINITION. Quiescence and drains, and what ends a partition's work: the stop, the drain's end, resume, wiping, and the effect of
a function level reset (spec 14 R306, R315, R323; 17 R365 to R367, R374; 18 R387, R391).
-/

namespace Sys2Proof.Machine

/-! ### The partition's work -/

def partLaunches (s : State) (p : Nat) : List Nat := (s.launches.keep (fun _ L => L.part == p)).keys
def partGroups (s : State) (p : Nat) : List Nat := (s.groups.keep (fun _ G => (partLaunches s p).contains G.launch)).keys
def partOps (s : State) (p : Nat) : List (Nat × EngOp) := s.ops.filter (fun e => (partLaunches s p).contains e.2.launch)

/-- Has the call of a COLL started? -/
def callStarted (s : State) (o : EngOp) : Bool :=
  match o.call with | some c => (s.calls.look c).any (fun q => q.start.isSome) | none => false

/-- Nothing of an operation is still to come before the drain may end: it is done, or it is an exact copy or a collective
whose call has not started (17 R367). -/
def opSettled (s : State) (o : EngOp) : Bool := o.fin || decide (o.kind < 4) || (o.isColl && !callStarted s o)

/-! ### The stop (17 R366 step 1, R367) -/

/-- A lane as issue stops: a chain is left, a held access is discarded, a pending GROW is executed again; a WAITA is
released with pd = 1. -/
def stopLane (l0 : Lane) : Lane :=
  let l := if l0.chain = 0 then { l0 with wd := 0, wdDue := false } else { (l0.clearMarks) with pc := l0.chainPc, chain := 0, wd := 0, wdDue := false }
  match l.block with
  | .fault _ _ _ _ | .busy _ _ | .flush _ | .acks _ | .wake _ _ | .locked _ | .shrnk | .stlbi | .enq => { l with block := .free }
  | .grow _ => { l with block := .free, pc := l.pc - 12 }
  | .waita _ _ pd => { ((l.setPred pd.toNat true).shift 1 false) with block := .free }
  | _ => l

/-- A group as issue stops: outstanding results are written, and a SHRNK that waited for them takes effect. An ENQ that has not reached the
dispatcher is issued again once issue resumes; its lanes have gone on (08 R199; log 34). -/
def stopGroupState (G : Group) : Group :=
  let G1 := match G.shrnk with | some n => shrinkGroup G n | none => G
  { G1 with sb := [], stall := none, shrnk := none, grow := none,
            enq := G1.enq.map (fun e => { e with again := e.again || !e.charged }), lanes := G1.lanes.map stopLane }

/-- Is a group's commit past its first step, so that it completes before the group stops (09 R222)? -/
def commits (s : State) (g : Nat) : Bool := (s.groups.look g).any Group.commits

/-- A group stops, its open region aborted. -/
def quietGroup (s : State) (g : Nat) : State :=
  let s1 := abortRegion s g 6 0 0
  { s1 with
    groups := (s1.updGroup g stopGroupState).groups,
    tiles := s1.tiles.mapV (fun _ t => { t with waiters := t.waiters.filter (fun w => w.g != g) }) }

/-- Issue stops; exact copies are cancelled where they stand. A group whose commit is past its first step stops after it. -/
def stopIssue (s : State) (p : Nat) : State :=
  let s1 := (partGroups s p).foldl (fun s g => if commits s g then s else quietGroup s g) s
  let ls := partLaunches s1 p
  let s2 := { s1 with ops := s1.ops.mapV (fun _ o => if o.kind < 4 && ls.contains o.launch then { o with wait := none } else o) }
  s2.updPart p (fun P => { P with stopped := true, stopAt := if P.stopped then P.stopAt else s.clock, token := P.token.filter (commits s1), tokenQ := [] })

/-- Has every in-flight item met its fate? A commit completes first, an ENQ that has reached the dispatcher has its status, the writes to
other wafers have reached their homes, and no packet of the partition is on its way (08 R199; 09 R222; 17 R367; 18 R387; 19 R402). -/
def drained (s : State) (p : Nat) : Bool :=
  match s.parts.look p with
  | some P => P.stopped && (partOps s p).all (fun e => opSettled s e.2) &&
      (partGroups s p).all (fun g => !commits s g && !(s.groups.look g).any (fun G => G.enq.any EnqReq.charged)) &&
      (partLaunches s p).all (fun l => !launchOwed s l) && !s.edges.any (fun e => e.2.wait.any (fun k => k.tag == P.tag))
  | none => false

/-! ### MAPS entries at a drain (14 R323) -/

/-- An entry's lines written back and deregistered; the entry itself stays. -/
def writeBackMap (s : State) (tile core n : Nat) (m : MapEnt) : State :=
  (unmapEntry s tile core n).updCore tile core (fun c => { c with maps := c.maps.setAt n m })

/-- Lines of an entry registered again, without reading memory. -/
def registerMap (s : State) (tile core n : Nat) (m : MapEnt) : State :=
  let s1 := m.pas.foldl (fun s q =>
    let gr := granOf q.2
    let e : ClassEnt := { cls := .sh, wr := true, flush := some (.sh, true) }
    endFlush { s with classes := s.classes.setAt gr e } gr) s
  (mapsLines m.va m.len m.pas).foldl (fun s l =>
    let e : DirEnt := { DirEnt.reset with st := .m tile core n, owner := tile }
    let s2 := drainLine s l
    { s2 with dir := s2.dir.setAt l e }) s1

/-- f applied to every MAPS entry of the cores of some tiles. -/
def overMaps (f : State → Nat → Nat → Nat → MapEnt → State) (tiles : List Nat) (s : State) : State :=
  tiles.foldl (fun s t => (List.range 4).foldl (fun s k => (s.coreAt t k).maps.foldl (fun s e => f s t k e.1 e.2) s) s) s

/-! ### The end of a drain (17 R366 step 3; 14 R306) -/

/-- Groups that a commit kept going stop; write-backs, and PCARVE's new value in effect. -/
def settleDrain (s : State) (p : Nat) : State :=
  match s.parts.look p with
  | none => s
  | some P =>
    let s0 := (partGroups s p).foldl quietGroup s
    let s1 := overMaps writeBackMap P.tiles (P.tiles.foldl drainTile s0)
    let s2 := dropStable (giveUpLines s1 P.tiles) P.tiles
    P.tiles.foldl (fun s t => setCarve s t P.pcarve) s2

/-- The head command is done: the next waits its turn, or issue resumes. -/
def endDrain (s : State) (p : Nat) : State :=
  match s.parts.look p with
  | none => s
  | some P =>
    let rest := P.pend.drop 1
    let s1 := s.updPart p (fun P => { P with pend := rest, stopped := !rest.isEmpty || P.stopped5 || P.lost })
    if rest.isEmpty && !P.stopped5 && !P.lost then overMaps registerMap P.tiles s1 else s1

/-- A command that runs under a drain: issue stops, and the command waits its turn. -/
def askDrain (s : State) (p : Nat) (c : Cmd) : State := stopIssue (s.updPart p (fun P => { P with pend := P.pend ++ [c] })) p

/-- The command whose drain is done. -/
def drainHead (s : State) (p : Nat) : Option Cmd :=
  if drained s p then (s.parts.look p).bind (fun P => P.pend.head?) else none

/-! ### Removal and wiping -/

/-- A core with nothing on it. -/
def bareCore (c : Core) : Core := { Core.reset with last := c.last, resets := c.resets, wdlog := c.wdlog, mxTime := c.mxTime }

/-- A tile's state that belongs to work: buffers, waiters, TLB, copies, queues. -/
def bareTile (t : Tile) : Tile :=
  { t with cbufs := [], waiters := [], tlb := [], walks := [], rdc := [], l2 := [], stable := [], wq := [], sloe := [], faults := [] }

/-- Everything resident of a partition leaves its tiles, with no completion write. -/
def removeWork (s : State) (p : Nat) : State :=
  match s.parts.look p with
  | none => s
  | some P =>
    let gs := partGroups s p
    let ls := partLaunches s p
    let s1 := { s with
      groups := s.groups.keep (fun g _ => !gs.contains g), ops := s.ops.keep (fun _ o => !ls.contains o.launch),
      calls := s.calls.keep (fun _ c => !ls.contains c.launch), launches := s.launches.keep (fun l _ => !ls.contains l),
      ports := s.ports.mapV (fun _ x => { x with owed := x.owed.filter (fun o => !ls.contains o.launch) }),
      tiles := s.tiles.mapV (fun _ t => { t with faults := t.faults.filter (fun f => f.key.part != p) }) }
    P.tiles.foldl (fun s t =>
      (List.range 4).foldl (fun s k => s.updCore t k bareCore) (s.updTile t bareTile)) s1

/-- A partition's dispatcher with nothing queued. -/
def bareDispatch (P : Part) : Part :=
  { P with tasks := [], appended := [], denied := [], token := none, tokenQ := [], symbols := [], fabEnded := [] }

/-- TM and unified stores of tiles zeroed. -/
def wipeTiles (s : State) (tiles : List Nat) : State :=
  tiles.foldl (fun s t =>
    (List.range 4).foldl (fun s k => s.zeroRange (storeLoc t k 0) (2 ^ 24)) (s.zeroTm t 0 (24 * 2 ^ 20))) s

/-- Class and directory entries of some granules dropped, every copy written back and invalidated before (14 R315). -/
def dropGranules (s : State) (sel : Nat → Bool) : State :=
  let s1 := dropLines s (fun _ => true) (fun l => sel (l / 1024))
  { s1 with
    classes := s1.classes.keep (fun g _ => !sel g), dir := s1.dir.keep (fun l _ => !sel (l / 1024))
    tiles := s1.tiles.mapV (fun _ t => { t with l2 := t.l2.keep (fun l _ => !sel (l / 1024)), stable := t.stable.keep (fun l _ => !sel (l / 1024)) }) }

/-- Is a granule one of some HBM ranges, or TM of some tiles? -/
def granuleOf (ranges : List (Nat × Nat)) (tiles : List Nat) (g : Nat) : Bool :=
  let pa := g * granBytes
  (spaceOf pa == 1 && tiles.contains (tmTile pa)) || ranges.any (fun r => decide (r.1 ≤ pa) && decide (pa < r.1 + r.2))

/-- SRAM and frames of a partition zeroed. -/
def wipePart (s : State) (p : Nat) : State :=
  match s.parts.look p with
  | none => s
  | some P =>
    let rs := hbmRanges s P
    let s1 := dropGranules s (granuleOf rs P.tiles)
    rs.foldl (fun s r => s.zeroRange r.1 r.2) (wipeTiles s1 P.tiles)

/-- Sequence numbers of the flows of tiles start at 0 again (18 R385). -/
def resetFlows (s : State) (tiles : List Nat) : State := tiles.foldl (fun s t => s.updTile t (fun x => { x with flows := [] })) s

/-! ### Function level reset (17 R374; 20 R411) -/

def Cmd.isReshape : Cmd → Bool
  | .grow _ | .shrink _ | .compact _ _ | .predicted _ _ _ | .tileLost _ _ => true
  | _ => false
/-- A command that writes an image: it holds a key slot. -/
def Cmd.isSave : Cmd → Bool
  | .save _ _ | .migStop _ _ => true
  | _ => false

/-- The migration key given up, and an exchange in progress ended (KSTAT STATUS 8). -/
def dropMigKey (s : State) (p : Nat) : State :=
  match s.parts.look p with
  | some P =>
    let n := (if P.migKey.isSome then 1 else 0) + (if P.migWait.isSome then 1 else 0)
    let km := if P.migWait.isSome then { s.km with seq := (s.km.seq + 1) % 2 ^ 32, busy := false, status := 8 } else s.km
    ({ s with keySlots := s.keySlots - n, km }).updPart p (fun P => { P with migKey := none, migWait := none })
  | none => s

/-- A save or a restore in progress is aborted: STATUS 5. -/
def abortSave (s : State) (p : Nat) : State :=
  match s.parts.look p with
  | none => s
  | some P =>
    let s1 := if P.pend.any Cmd.isSave then { s with keySlots := s.keySlots - 1 } else s
    s1.updPart p (fun P => { P with
      heldReqs := P.heldReqs.filter (fun h => match h with | .frame _ => false | _ => true),
      pend := P.pend.filter (fun c => !c.isSave && c != .flr && c != .rekey), rekeyBusy := false, ctxBusy := false, ctxStatus := if P.ctxBusy then 5 else P.ctxStatus })

/-- An FLR's effect; `t`: the TDI state that follows. -/
def flrEffect (s : State) (p : Nat) (t : Tdi) : State :=
  let s1 := dropMigKey (abortSave s p) p
  let s2 := wipePart (removeWork s1 p) p
  match s2.parts.look p with
  | none => s2
  | some P =>
    let s3 := resetFlows { s2 with nextKey := s2.nextKey + 2 } P.tiles
    let s4 := s3.updPart p (fun P =>
      let P1 := bareDispatch P
      { P1 with queues := P1.queues.mapV (fun _ q => { q with en := false }), world := s2.nextKey, traffic := s2.nextKey + 1, epoch := 0, tdi := t, meas5 := none,
                fwAck := none, ctxs := P1.ctxs.mapV (fun _ c => { c with saved := false }), stopped := !P1.pend.isEmpty || P1.stopped5 || P1.lost })
    postUsage s4 p 7 false

/-- The TDI state after an FLR of the VF: ERROR is left only by STOP_INTERFACE_REQUEST (20 R411). -/
def flrAfter (P : Part) : Tdi := if P.tdi = .error then .error else .unlocked

/-- An FLR: it waits for the drain of a reshape in progress (18 R392), and for nothing else; a save is aborted at once. -/
def startFlr (s : State) (p : Nat) (t : Tdi) : State :=
  match (s.parts.look p).map Part.pend with
  | none => s
  | some (c :: _) =>
    if c.isReshape then
      (abortSave s p).updPart p (fun P =>
        { P with tdi := if t = .error then .error else P.tdi, pend := P.pend.take 1 ++ .flr :: P.pend.drop 1 })
    else flrEffect s p t
  | some [] => flrEffect s p t

end Sys2Proof.Machine
end

