-- ==== Sys2Proof/Machine/Contexts.lean ====
section
/-!
DEFINITION. Fast pre-emption, save images and contexts, the dirty log, migration, and function level reset (spec 17 R363 to
R374; 27 R453 to R456).
-/

namespace Sys2Proof.Machine

/-! ### Fast pre-emption (17 R363 to R365) -/

/-- Slots of a core that a task of class c may freeze, in the order in which they are chosen: lowest class, then the launch that
started last, then the highest slot. -/
def freezable (s : State) (tile core c : Nat) : List Nat :=
  let key := fun k =>
    let gs := s.groups.filter (fun e => e.2.tile == tile && e.2.core == core && e.2.slot == k)
    match gs.head?.bind (fun e => s.launchOf e.2) with
    | some L => if gs.all (fun e => !e.2.frozen && (s.launchOf e.2).any (fun L => decide (L.rc.cls < c) && !L.reserve))
        then some (L.rc.cls, L.startSeq, k) else none
    | none => none
  let before := fun (a b : Nat × Nat × Nat) =>
    decide (a.1 < b.1) || (a.1 == b.1 && (decide (b.2.1 < a.2.1) || (a.2.1 == b.2.1 && decide (b.2.2 < a.2.2))))
  let rec put (x : Nat × Nat × Nat) : List (Nat × Nat × Nat) → List (Nat × Nat × Nat)
    | [] => [x]
    | y :: l => if before x y then x :: y :: l else y :: put x l
  ((((List.range 16).filterMap key).foldl (fun l x => put x l) []).map (fun x => x.2.2))

/-- What a core offers a pre-emptor: the reserve, and slots. -/
def reserveRes (s : State) (slots : Nat → Nat → List Nat) (tile core : Nat) : CoreRes :=
  { (coreRes s tile core true) with slots := slots tile core }

/-- The placement of a pre-emptor in the reserve. -/
def planReserve (s : State) (p : Nat) (P : Part) (t : Task) (slots : Nat → Nat → List Nat) : Option Plan :=
  if 8 < partBars s p 2 + t.rc.bars.getD 2 0 || 4 < partBars s p 3 + t.rc.bars.getD 3 0 then none
  else planAll (planCtx P t.rc t.map? (reserveRes s slots) (tileRes s))

/-- Slots to be frozen: none on a core whose reserve is in use. -/
def freezeChoice (s : State) (t : Task) (tile core : Nat) : List Nat :=
  let c := s.coreAt tile core
  if c.reserve.isSome || c.pre.isSome then [] else freezable s tile core t.rc.cls

/-- The cores and slots that a plan uses. -/
def planSlots (x : Plan) : List (Nat × Nat × List Nat) :=
  ((x.groups.map (fun g => (g.tile, g.core))).dedup).map (fun q =>
    (q.1, q.2, ((x.groups.filter (fun g => g.tile == q.1 && g.core == q.2)).map Spot.slot).dedup))

/-- A plan whose groups fill the frozen slots in ascending order. -/
def sortSlots (x : Plan) : Plan :=
  { x with groups := x.groups.map (fun g =>
      match (planSlots x).find? (fun q => q.1 == g.tile && q.2.1 == g.core) with
      | some q => { g with slot := ((q.2.2.foldl setAdd []).getD (q.2.2.idxOf g.slot) g.slot) }
      | none => g) }

/-- Cores marked for a task of a partition. -/
def markedCores (s : State) (P : Part) (seq : Nat) : List (Nat × Nat) :=
  P.tiles.flatMap (fun t => ((List.range 4).filter (fun k => (s.coreAt t k).pre == some seq)).map (fun k => (t, k)))

/-- A core gives up its marks and its frozen slots (17 R365). -/
def thawCore (s : State) (tile core : Nat) : State :=
  let c := s.coreAt tile core
  let s1 := s.setCore tile core { c with pre := none, freezing := [], given := [],
                                         since := c.given.foldl (fun m k => m.setAt k s.clock) c.since }
  { s1 with groups := s1.groups.mapV (fun _ G => if G.tile = tile ∧ G.core = core then { G with frozen := false } else G) }

/-- FAST_PREEMPTION: slots are marked, and once every marked slot is frozen the task starts in them. A task that no longer
waits gives its marks up. -/
def execFastPreemption (part task : Nat) (s : State) : Host.Outcome State Fault Refusal :=
  match s.parts.look part with
  | none => .next s
  | some P =>
    let marked := markedCores s P task
    let drop := marked.foldl (fun s q => thawCore s q.1 q.2) s
    match P.tasks.look task with
    | none => .next drop
    | some t =>
      if !eligible P t then .next drop
      else if P.stopped then .next s
      else if marked.isEmpty then
        if (planNow s part P t.rc t.map? false).isSome || !firstInRank s part P t then .next s
        else match planReserve s part P t (freezeChoice s t) with
          | none => .next s
          | some x => .next ((planSlots x).foldl (fun s q => s.updCore q.1 q.2.1 (fun c => { c with pre := some task, freezing := q.2.2 })) s)
      else if marked.any (fun q => !(s.coreAt q.1 q.2).freezing.isEmpty) then .next s
      else
        match planReserve s part P t (fun a k => if (s.coreAt a k).pre = some task then (s.coreAt a k).given else []) with
        | none => .next drop
        | some x =>
          let s1 := startPlaced s part t (sortSlots x) true
          if s1.launches.any (fun e => e.2.part == part && e.2.seq == t.seq && e.2.reserve) then
            .next (marked.foldl (fun u q => u.updCore q.1 q.2 (fun c => { c with pre := none, reserve := some s.nextId })) s1)
          else .next s1

/-- A group is at a boundary outside a chain, with no serialised region open and no commit past its first step (09 R222, R223). -/
def atBoundary (G : Group) : Bool :=
  G.lanes.all (fun l => l.chain == 0) && (match G.region with | some r => !r.ser && !r.commit | none => true)

/-- SLOT_FREEZE (17 R364). -/
def execSlotFreeze (tile core slot : Nat) (s : State) : Host.Outcome State Fault Refusal :=
  let c := s.coreAt tile core
  let gs := s.groups.filter (fun e => e.2.tile == tile && e.2.core == core && e.2.slot == slot)
  if !c.freezing.contains slot || !gs.all (fun e => atBoundary e.2) then .next s
  else
    let s1 := gs.foldl (fun s e => (abortRegion s e.1 6 0 0).updGroup e.1 (fun G =>
      { G with frozen := true, lanes := G.lanes.map (fun l => { l with wd := 0, wdDue := false }) })) s
    .next (s1.updCore tile core (fun c => { c with freezing := c.freezing.erase slot, given := c.given ++ [slot] }))

/-! ### Save images (17 R369, R370, R373; 27 R455) -/

/-- CKEY (17 R373). -/
def ckey (s : State) : List Byte := digest (leBytes 8 Config.stepping.toNat ++ leBytes 8 s.fused ++ leBytes 8 1)

/-- Is a location in the SRAM of some tiles? -/
def sramOf (tiles : List Nat) (loc : Nat) : Bool :=
  (spaceOf loc == 1 && tiles.contains (tmTile loc)) ||
  (decide (2 ^ 48 ≤ loc) && decide (loc < 2 ^ 49) && tiles.contains ((loc - 2 ^ 48) / 2 ^ 26))

/-- A location of one tile's SRAM as it lies on another tile. -/
def moveLoc (f : Nat → Nat) (loc : Nat) : Nat :=
  if spaceOf loc = 1 then tmPa (f (tmTile loc)) (tmOff loc)
  else if 2 ^ 48 ≤ loc ∧ loc < 2 ^ 49 then
    let q := loc - 2 ^ 48
    2 ^ 48 + f (q / 2 ^ 26) * 2 ^ 26 + q % 2 ^ 26
  else loc

/-- The header of an image. -/
def imageHeader (kind ctx ntiles size : Nat) (key : List Byte) (epoch seq : Nat) (iv : BitVec 96) : List Byte :=
  leBytes 2 1 ++ leBytes 1 kind ++ leBytes 1 ctx ++ leBytes 4 ntiles ++ leBytes 8 size ++ padTo 48 key ++ leBytes 4 epoch ++ leBytes 4 0 ++
  leBytes 8 seq ++ leBytes 12 iv.toNat ++ leBytes 4 0

def Image.header (m : Image) : List Byte := imageHeader m.kind m.ctx m.ntiles m.size m.ckey m.epoch m.seq (Config.imageIv m.no)

def Part.ctx (P : Part) (c : Nat) : SaveCtx := P.ctxs.lookD { lastSeq := 0, saved := false } c

/-- The bytes of the n-th image's body, its 16-byte tag included: as many as the state needs, at most what 17 R369 allows. -/
def imageBody (key n tiles : Nat) : List Byte :=
  padTo (16 + Config.imageSize n % (2 ^ 20 + tiles * 2 ^ 25 + 1)) (Config.sealed key (leBytes 8 n))

/-- The image of what is on a partition's tiles; frozen groups are saved as not frozen, and a slice switch frees the A latches (11 R254). -/
def takeImage (s : State) (p : Nat) (P : Part) (kind ctx area : Nat) : Image :=
  let gs := partGroups s p
  let ls := partLaunches s p
  let inTiles := fun (k : Nat) => P.tiles.contains (k / 4)
  let cs := s.cores.filter (fun e => inTiles e.1)
  let body := imageBody (if kind = 1 then P.world else P.migKey.getD 0) s.fresh P.tiles.length
  { area, kind, ctx, ntiles := P.tiles.length, size := 96 + body.length, ckey := ckey s, epoch := P.epoch, seq := (P.ctx ctx).lastSeq + 1,
    no := s.fresh,
    key := if kind = 1 then P.world else P.migKey.getD 0, tiles := P.tiles,
    groups := (s.groups.keep (fun g _ => gs.contains g)).mapV (fun _ G => { G with frozen := false, alatch := if kind = 1 then none else G.alatch }),
    launches := s.launches.keep (fun l _ => ls.contains l), ops := s.ops.keep (fun _ o => ls.contains o.launch),
    calls := s.calls.keep (fun _ c => ls.contains c.launch),
    slog := cs.flatMap (fun e => e.2.slog.map (fun q => (e.1, q))),
    maps := cs.flatMap (fun e => e.2.maps.map (fun q => (e.1, q.1, q.2))),
    cbufs := (s.tiles.filter (fun e => P.tiles.contains e.1)).map (fun e => (e.1, e.2.cbufs)),
    reserves := cs.filterMap (fun e => e.2.reserve.map (fun l => (e.1 / 4, e.1 % 4, l))),
    mem := s.mem.filter (fun e => sramOf P.tiles e.1), poison := s.poison.filter (fun l => sramOf P.tiles (l * lineBytes)),
    queues := P.queues, tasks := P.tasks, appended := P.appended, nextSeq := P.seq, clock := P.stopAt,
    body, tvec := P.tvec, s1root := P.s1root, s1ctl := P.s1ctl, wdlog := P.wdlog, symbols := P.symbols, fabLaunches := P.fabLaunches,
    fabEnded := P.fabEnded }

/-- The image written at its area, and the tiles left empty: the queues belong to the context. Images stay known, since the host may keep a
copy elsewhere. -/
def writeImage (s : State) (p : Nat) (kind ctx area : Nat) : State :=
  match s.parts.look p with
  | none => s
  | some P =>
    let m := takeImage s p P kind ctx area
    let h := m.header
    let s1 := (s.writeBytes (hostLoc area) h).writeBytes (hostLoc (area + 96)) m.body
    let s2 := wipeTiles (removeWork s1 p) P.tiles
    let s3 := { s2 with images := m :: s2.images, keySlots := s2.keySlots - 1 }
    s3.tick.updPart p (fun P =>
      let P1 := bareDispatch P
      { P1 with
        queues := [], seq := 0, ctxs := P1.ctxs.setAt ctx { lastSeq := m.seq, saved := true }, imgsz := (m.size + 4095) / 4096 % 2 ^ 32,
        ctxBusy := false, ctxStatus := 0, stopped5 := P1.stopped5 || kind == 2 })

/-- A command of the context registers that drains: dropped while another is in progress; refused with a status by `bad`. -/
def ctxCommand (s : State) (p : Nat) (c : Cmd) (bad : Part → Option Nat) : State :=
  match s.parts.look p with
  | none => s
  | some P =>
    if P.ctxBusy then s.updPart p (fun P => { P with ctxDrop := true })
    else match bad P with
      | some st => s.updPart p (fun P => { P with ctxStatus := st })
      | none => askDrain (({ s with keySlots := s.keySlots + 1 }).updPart p (fun P => { P with ctxBusy := true })) p c

/-- The host address that a 64-bit register names in bits 63:12. -/
def areaOf12 (v : BitVec 64) : Nat := v.toNat / 4096 * 4096

/-- CTX_SAVE: OP 1 (17 R370). The image is written when the drain is done. -/
def saveAsk (part ctx : Nat) (area : BitVec 64) (s : State) : State :=
  (ctxCommand s part (.save (ctx % 4) (areaOf12 area))
    (fun P => if P.stopped5 then some 1 else if 256 ≤ s.keySlots then some 7 else none))
def execCtxSave (part ctx : Nat) (area : BitVec 64) (s : State) : Host.Outcome State Fault Refusal := .next (saveAsk part ctx area s)

/-- MIGRATION_STOP: OP 5 (17 R372). -/
def migStopAsk (part ctx : Nat) (area : BitVec 64) (s : State) : State :=
  (ctxCommand s part (.migStop (ctx % 4) (areaOf12 area))
    (fun P => if P.stopped5 then some 1 else if P.migKey.isNone then some 6 else if 256 ≤ s.keySlots then some 7 else none))
def execMigrationStop (part ctx : Nat) (area : BitVec 64) (s : State) : Host.Outcome State Fault Refusal := .next (migStopAsk part ctx area s)

/-- The image of a migration stop written, and its usage record. -/
def writeStop (s : State) (p ctx area : Nat) : State := postUsage (writeImage s p 2 ctx area) p 5 false

/-! ### Restore (17 R370; 27 R455, R456) -/

/-- How an image's numbers and tiles map to those of the machine it is restored on. -/
structure Remap where
  /-- added to the number of every group, launch, operation and call -/
  up : Nat
  part : Nat
  tiles : List (Nat × Nat)
  /-- the clock now and the clock at the stop, which the clock counts on from (27 R456); equal where times stand as they are -/
  now : Nat
  stop : Nat
  deriving DecidableEq, Repr

def Remap.tile (r : Remap) (t : Nat) : Nat := match r.tiles.find? (fun q => q.1 == t) with | some q => q.2 | none => t
def Remap.loc (r : Remap) (l : Nat) : Nat := moveLoc r.tile l

/-- A time of the image as the machine it is restored on counts it. -/
def Remap.time (r : Remap) (t : Nat) : Nat := t + r.now - r.stop

/-- A sleeping lane keeps what remains of its delay, 0 if nothing does. -/
def Remap.lane (r : Remap) (l : Lane) : Lane :=
  match l.block with
  | .sleep t => { l with block := .sleep (if r.now = r.stop then t else max r.now (r.time t)) }
  | _ => l

def Remap.group (r : Remap) (G : Group) : Group :=
  { G with launch := G.launch + r.up, tile := r.tile G.tile, age := r.time G.age, lanes := G.lanes.map r.lane }

def Remap.alloc (r : Remap) (a : Alloc) : Alloc := { a with tile := r.tile a.tile }

def Remap.launch (r : Remap) (L : Launch) : Launch :=
  { L with
    part := r.part, tm := L.tm.map r.alloc, scr := L.scr.map r.alloc, slots := L.slots.map (fun q => (r.tile q.1, q.2)),
    ended := L.ended.map (fun q => (r.tile q.1, q.2)), cbars := L.cbars.map (fun q => (r.tile q.1, q.2)), tbars := L.tbars.map (fun q => (r.tile q.1, q.2)),
    times := L.times.foldl (fun (m : FMap (Nat × Nat)) e => m.setAt (r.tile e.1) (r.time e.2.1, r.time e.2.2)) [], startSeq := L.startSeq + r.up }

def Remap.op (r : Remap) (o : EngOp) : EngOp :=
  { o with g := o.g + r.up, launch := o.launch + r.up, tile := r.tile o.tile, scr := r.loc o.scr, call := o.call.map (· + r.up), wait := none }

def Remap.call (r : Remap) (c : Call) : Call :=
  { c with launch := c.launch + r.up, members := c.members.map (fun q => (q.1, q.2 + r.up)) }

def Remap.slg (r : Remap) (e : SlgEnt) : SlgEnt :=
  { e with g := e.g + r.up, key := { e.key with tile := r.tile e.key.tile, part := r.part } }

def Remap.map (r : Remap) (m : MapEnt) : MapEnt := { m with launch := m.launch + r.up, part := r.part, loc := r.loc m.loc }

def Remap.cbuf (r : Remap) (b : CBuf) : CBuf :=
  { b with owner := b.owner + r.up, loc := r.loc b.loc, waiters := b.waiters.map (fun w => (w.1 + r.up, w.2)) }

def Remap.task (r : Remap) (t : Task) : Task :=
  { t with part := r.part, launch := t.launch.map (· + r.up), parent := t.parent.map (· + r.up) }

def shiftKeys {α β : Type} (m : FMap α) (up : Nat) (f : α → β) : FMap β := m.map (fun e => (e.1 + up, f e.2))

/-- Addresses of a buffer, listed under the tile it now lies on. -/
def putCbufs (r : Remap) (s : State) (e : Nat × FMap CBuf) : State :=
  s.updTile (r.tile e.1) (fun t => { t with cbufs := e.2.mapV (fun _ b => r.cbuf b) })

/-- The frames of a MAPS entry's range as the partition's tables map them now (07 R173; 17 R370): a piece that they do not map is no longer
registered. -/
def remapPas (s : State) (tile p : Nat) (m : MapEnt) : MapEnt :=
  { m with pas := m.pas.filterMap (fun q => match (translate s tile p .rmw true q.1).2 with
      | .ok _ pa => some (q.1, pa / granBytes * granBytes)
      | _ => none) }

/-- The state of an image loaded; the tiles' copies of stable pages go, as at a kernel's start (13 R303). -/
def loadImage (s0 : State) (p : Nat) (P : Part) (m : Image) : State :=
  let s := dropStable s0 P.tiles
  let r : Remap := { up := s.nextId, part := p, tiles := m.tiles.zip P.tiles, now := s.clock, stop := if m.kind = 2 then m.clock else s.clock }
  let key := fun (k : Nat) => (r.tile (k / 4), k % 4)
  let s1 := { s with
    groups := s.groups ++ shiftKeys m.groups r.up r.group, launches := s.launches ++ shiftKeys m.launches r.up r.launch,
    ops := s.ops ++ shiftKeys m.ops r.up r.op, calls := s.calls ++ shiftKeys m.calls r.up r.call, nextId := 2 * s.nextId }
  let s2 := m.mem.foldl (fun (s : State) e => s.setByte (r.loc e.1) e.2) s1
  let s3 := m.poison.foldl (fun (s : State) l => s.setPoison (lineOf (r.loc (l * lineBytes)))) s2
  let s4 := m.slog.foldl (fun (s : State) e => s.updCore (key e.1).1 (key e.1).2 (fun c => { c with slog := c.slog ++ [r.slg e.2] })) s3
  let s5 := m.reserves.foldl (fun (s : State) e => s.updCore (r.tile e.1) e.2.1 (fun c => { c with reserve := some (e.2.2 + r.up) })) s4
  let s6 := m.cbufs.foldl (putCbufs r) s5
  let s7 := s6.updPart p (fun P => { P with
    queues := m.queues, tasks := m.tasks.mapV (fun _ t => r.task t),
    appended := m.appended.map (fun a => { a with parent := a.parent.map (· + r.up) }), seq := m.nextSeq, tvec := m.tvec, s1root := m.s1root,
    s1ctl := m.s1ctl, wdlog := m.wdlog, symbols := m.symbols ++ P.symbols.filter (fun q => !m.symbols.contains q), fabLaunches := m.fabLaunches,
    fabEnded := m.fabEnded,
    ctxs := if m.kind = 1 then P.ctxs.setAt m.ctx { (P.ctx m.ctx) with saved := false } else P.ctxs })
  m.maps.foldl (fun (s : State) e =>
    let k := key e.1
    let x := remapPas s k.1 p (r.map e.2.2)
    registerMap (s.updCore k.1 k.2 (fun c => { c with maps := c.maps.setAt e.2.1 x })) k.1 k.2 e.2.1 x) s7

/-- The image of this module that an area of host memory holds unaltered, wherever it was written to first. -/
def imageAt (s : State) (area : Nat) : Option Image :=
  s.images.find? (fun m => s.readBytes (hostLoc (area + 96)) m.body.length == m.body && s.readBytes (hostLoc area) 96 == m.header)

/-- DESIGN CHOICE (log 8). The image of KIND 2 that another module has sealed under the migration key of the given number, opened: none where
its tag does not verify (17 R372). -/
opaque foreignImage : Nat → List Byte → List Byte → Option Image

/-- An image of another module at an area, with the header fields that stand there (17 R369, R372). -/
def importedImage (s : State) (P : Part) (area : Nat) : Option Image :=
  let h := s.readBytes (hostLoc area) 96
  let size := fieldOf h 8 8
  match P.migKey with
  | none => none
  | some k =>
    if fieldOf h 0 2 != 1 || fieldOf h 2 1 != 2 || decide (size < 112) || decide (96 + 16 + 2 ^ 20 + fieldOf h 4 4 * 2 ^ 25 < size) then none
    else (foreignImage k h (s.readBytes (hostLoc (area + 96)) (size - 96))).map (fun m =>
      { m with area, kind := 2, ctx := fieldOf h 3 1, ntiles := fieldOf h 4 4, size, seq := fieldOf h 0x48 8, key := k })

/-- Does the device accept an image for a partition's context? -/
def imageOk (P : Part) (ctx : Nat) (m : Image) : Bool :=
  if m.kind = 1 then m.key == P.world && m.ctx == ctx && m.seq == (P.ctx ctx).lastSeq
  else P.migKey == some m.key && m.seq == P.impseq && m.ntiles == P.tiles.length

/-- CTX_RESTORE: OP 2 (17 R370). -/
def restoreNow (part ctx : Nat) (area : BitVec 64) (s : State) : State :=
  match s.parts.look part with
  | none => s
  | some P =>
    let a := areaOf12 area
    let end_ := fun (s : State) (st : Nat) => s.updPart part (fun P => { P with ctxStatus := st })
    if P.ctxBusy then (s.updPart part (fun P => { P with ctxDrop := true }))
    else if P.stopped5 || !(partLaunches s part).isEmpty then (end_ s 1)
    else if 256 ≤ s.keySlots then (end_ s 7)
    else if s.readBytes (hostLoc (a + 0x10)) 48 != ckey s then (end_ s 3)
    else match (imageAt s a).or (importedImage s P a) with
      | none => (end_ s 4)
      | some m =>
        if !imageOk P (ctx % 4) m then (end_ s 4)
        else
          postUsage (end_ (loadImage s part P m) 0) part 6 false
def execCtxRestore (part ctx : Nat) (area : BitVec 64) (s : State) : Host.Outcome State Fault Refusal := .next (restoreNow part ctx area s)

/-! ### The dirty log and frames (17 R371, R372; 27 R453, R454) -/

/-- A context command that completes at once. -/
def atOnce (s : State) (p : Nat) (f : Part → State × Nat) : State :=
  match s.parts.look p with
  | none => s
  | some P =>
    if P.ctxBusy then s.updPart p (fun P => { P with ctxDrop := true })
    else let r := f P; r.1.updPart p (fun P => { P with ctxStatus := r.2 })

/-- DIRTY_LOG_ON: OP 3. -/
def dirtyLogOn (part : Nat) (s : State) : State :=
  (atOnce s part (fun _ => (s.updPart part (fun P => { P with dirtyOn := true, dirty := [] }), 0)))
def execDirtyLogOn (part : Nat) (s : State) : Host.Outcome State Fault Refusal := .next (dirtyLogOn part s)

/-- DIRTY_LOG_OFF: OP 8. -/
def dirtyLogOff (part : Nat) (s : State) : State :=
  (atOnce s part (fun _ => (s.updPart part (fun P => { P with dirtyOn := false }), 0)))
def execDirtyLogOff (part : Nat) (s : State) : Host.Outcome State Fault Refusal := .next (dirtyLogOff part s)

/-- A byte of the bitmap. -/
def dirtyByte (fs : List Nat) (i : Nat) : Nat := sumOf ((fs.filter (fun f => f / 8 == i)).map (fun f => 2 ^ (f % 8)))

/-- HARVEST: OP 4. Dirty lines of HBM are written back and stay clean, write-queue entries drain, and the bitmap is cut (27 R453). -/
def harvestNow (part : Nat) (area : BitVec 64) (s : State) : State :=
  (atOnce s part (fun P =>
    if !P.dirtyOn then (s, 1)
    else
      let s1 := P.tiles.foldl drainTile (cleanLines s P.tiles.contains (fun l => spaceOf (l * lineBytes) == 0))
      let fs := match s1.parts.look part with | some P => P.dirty | none => []
      let a := hostLoc (areaOf12 area)
      let s2 := ((fs.map (· / 8)).dedup).foldl (fun (s : State) i => s.setByte (a + i) (BitVec.ofNat 8 (dirtyByte fs i))) (s1.zeroRange a (2 ^ 22))
      (s2.updPart part (fun P => { P with dirty := [] }), 0)))
def execHarvest (part : Nat) (area : BitVec 64) (s : State) : Host.Outcome State Fault Refusal := .next (harvestNow part area s)

/-- The HBM frame that a partition's stage 2 maps at FIPA. -/
def frameAt (s : State) (P : Part) (ipa : Nat) : Option Nat :=
  match stage2 s P ipa with
  | (_, .page b _ pa _ _ _ _) => let a := pa + (ipa - b); if spaceOf a = 0 then some (a / granBytes * granBytes) else none
  | _ => none

/-- EXPORT_FRAME: OP 6; the frame as it stands, sealed under the migration key: 64 KiB, and a trailer of the 16-byte tag and CKEY (17 R372,
R373; log 46). -/
def exportNow (part : Nat) (area : BitVec 64) (s : State) : State :=
  (atOnce s part (fun P =>
    match P.migKey, frameAt s P P.fipa with
    | none, _ => (s, 6)
    | some _, none => (s, 2)
    | some k, some f =>
      let a := areaOf12 area
      let lines := (s.tiles.flatMap (fun t => (t.2.wq.filter (fun e => e.line / 1024 == granOf f)).map WqEnt.line))
      let s1 := lines.foldl drainLine (madeClean s (fun _ => true) (fun l => l / 1024 == granOf f))
      let bs := (List.range 1024).flatMap (fun i => s1.readBytes (locOf s1 (f + 64 * i)) 64)
      let ps := (List.range 1024).filter (fun i => s1.isPoisoned (locOf s1 (f + 64 * i)))
      let c := padTo (65536 + 16) (Config.sealed k (leBytes 8 s.fresh)) ++ padTo 48 (ckey s)
      let s2 := { (s1.writeBytes (hostLoc a) c) with exportsOut := (a, k, bs, ps, c) :: s1.exportsOut }
      (s2.tick, 0)))
def execExportFrame (part : Nat) (area : BitVec 64) (s : State) : Host.Outcome State Fault Refusal := .next (exportNow part area s)

/-- The frame that stands sealed at an area: one that this module has exported, to whatever area, or another. -/
def sealedFrame (s : State) (k a : Nat) : Option (List Byte × List Nat) :=
  let c := s.readBytes (hostLoc a) (65536 + 64)
  match s.exportsOut.find? (fun e => e.2.1 == k && c == e.2.2.2.2) with
  | some e => some (e.2.2.1, e.2.2.2.1)
  | none => Config.openFrame k c

/-- A command that has ended with a status, and waits no more. -/
def ctxDone (s : State) (p st : Nat) (i : HeldReq) : State :=
  s.updPart p (fun P => { P with ctxStatus := st, ctxBusy := false, heldReqs := P.heldReqs.erase i })

/-- A frame of another compatibility key is refused before its transfer, one that does not authenticate after it. The transfer is an access
of the device: what holds such an access at the frame's lines holds the command, which stays BUSY (09 R223; 14 R314). Copies of stable pages
of the frame go. -/
def importTry (s : State) (part a : Nat) : State :=
  let i : HeldReq := .frame a
  match s.parts.look part with
  | none => s
  | some P =>
    match P.migKey, frameAt s P P.fipa with
    | none, _ => ctxDone s part 6 i
    | some _, none => ctxDone s part 2 i
    | some k, some f =>
      if s.readBytes (hostLoc (a + 65552)) 48 != padTo 48 (ckey s) then ctxDone s part 3 i
      else match sealedFrame s k a with
      | none => ctxDone s part 4 i
      | some e =>
        match claimRange s (.req i) 1024 f granBytes true false with
        | (s1, false) => s1.updPart part (fun P => { P with
            ctxBusy := true, heldReqs := if P.heldReqs.contains i then P.heldReqs else P.heldReqs ++ [i] })
        | (s1, true) =>
          let s2 := (List.range 1024).foldl (fun (s : State) j =>
            let l := f / 64 + j
            let s2 := writePaBytes s none part (64 * l) ((padTo granBytes e.1).drop (64 * j) |>.take 64)
            if e.2.contains j then poisonPa s2 (64 * l) else s2.clearPoison (lineOf (locOf s2 (64 * l)))) s1
          ctxDone { s2 with tiles := s2.tiles.mapV (fun _ t => { t with stable := t.stable.keep (fun l _ => l / 1024 != granOf f) }) } part 0 i

/-- IMPORT_FRAME: OP 7. -/
def importNow (part : Nat) (area : BitVec 64) (s : State) : State :=
  match s.parts.look part with
  | none => s
  | some P => if P.ctxBusy then s.updPart part (fun P => { P with ctxDrop := true }) else importTry s part (areaOf12 area)
def execImportFrame (part : Nat) (area : BitVec 64) (s : State) : Host.Outcome State Fault Refusal := .next (importNow part area s)

/-- FLR (17 R374; 20 R411). -/
def flrNow (part : Nat) (s : State) : State :=
  (match s.parts.look part with | some P => startFlr s part (flrAfter P) | none => s)
def execFlr (part : Nat) (s : State) : Host.Outcome State Fault Refusal := .next (flrNow part s)

end Sys2Proof.Machine
end

