-- ==== Sys2Proof/Machine/Choose.lean ====
section
/-!
DEFINITION. What a core issues: the instruction fetch, words that must wait, and the selection of a slot and its PC-sets
(spec 01 R19, R20, R36, R37, R44; 02 R47, R48; 08 R191; 09 R222; 16 R357; 17 R364).
-/

namespace Sys2Proof.Machine

/-! ### Fetch (02 R47, R48) -/

/-- How the fetch of a word ends. -/
inductive Fetched where
  | word (w : Nat)
  | trap (code : Nat)
  | hold (b : Block)
  deriving DecidableEq, Repr

/-- The lowest n parcels of a word at va, each wholly on one page; a stable page is read without its class entry (14 R319). The first parcel of
each 64-byte line stands for its line request (15 R342). -/
def fetchParcels (s : State) (g : Nat) (G : Group) (p : Nat) : Nat → Nat → State × Fetched
  | 0, _ => (s, .word 0)
  | n + 1, va =>
    if 2 ^ 48 ≤ va then (s, .trap 0x07)
    else
      match coreTranslate s G.tile G.core p .fetch G.priv va with
      | (s1, .trap c) => (s1, .trap c)
      | (s1, .busy i) => (s1, .hold (.busy p i))
      | (s1, .fault f) => (raiseFault s1 G.tile p G.core G.number 3 va f, .hold (.fault (faultKey G.tile p f) va true []))
      | (s1, .ok e pa) =>
        match (if e.stb then (s1, none) else claim s1 (.lanes g) G.tile G.core pa false false) with
        | (s2, some b) => (s2, .hold b)
        | (s2, none) =>
          let r := readPlace (if n = 2 ∨ va % 64 = 0 then countHost s2 p (e.ipa + (va - e.base)) pa e.mg else s2) g G.tile 4 (.pa pa e.stb)
          match fetchParcels r.1 g G p n (va + 4) with
          | (s3, .word w) => (s3, .word (r.2.1 + 2 ^ 32 * w))
          | q => q

/-- The word at a program counter, as a group fetches it. -/
def fetchWord (s : State) (g : Nat) (G : Group) (pc : BitVec 64) : State × Fetched :=
  if 2 ^ 48 ≤ pc.toNat then (s, .trap 0x07)
  else if pc.toNat % 4 != 0 then (s, .trap 0x06)
  else fetchParcels s g G (s.partNo G) 3 pc.toNat

/-- The lanes of a group that a word is selected for, of those still ready. -/
def readyAt (s : State) (g : Nat) (G : Group) (ls : List Nat) (pc : BitVec 64) : List Nat :=
  ls.filter (fun i => laneReady s g { G with stall := none } i && G.laneTest i (fun l => l.pc == pc))

/-- A denied fetch fault of one of the lanes: code, address and S2 (12 R278). -/
def deniedFetch (G : Group) (ls : List Nat) : Option (Nat × Nat × Bool) :=
  ls.findSome? (fun i => match G.lane? i with
    | some l => (match l.deny with | some (c, a, s2, true) => some (c, a, s2) | _ => none)
    | none => none)

/-- What the fetch leaves for one group: the state, the word if it came, and whether the group trapped. -/
def fetchFor (s : State) (g : Nat) (ls : List Nat) (pc : BitVec 64) : State × Option Nat × Bool :=
  match s.groups.look g with
  | none => (s, none, false)
  | some G =>
    let iss := readyAt s g G ls pc
    if iss.isEmpty then (s, none, false)
    else
      match deniedFetch G iss with
      | some (code, addr, s2) =>
        let s1 := s.updGroup g (fun G => G.updLanes iss (fun _ l => { l with deny := none }))
        (trapEntry s1 g iss pc 0 { code, addr, s2, fet := true }, none, true)
      | none =>
        match fetchWord s g G pc with
        | (s1, .word w) => (s1, some w, false)
        | (s1, .hold b) => (s1.updGroup g (fun G => holdLanes G iss b 0), none, false)
        | (s1, .trap code) => (trapEntry s1 g iss pc 0 { code, addr := pc.toNat, fet := true }, none, true)

/-! ### Words that must wait before they issue (01 R19, R36, R37; 10 R226; 11 R247) -/

def wordOp (w : Nat) : Nat := w / 2 ^ 90 % 64
def wordFn (w : Nat) : Nat := w / 2 ^ 84 % 64
def wordGuard (w : Nat) : BitVec 5 := BitVec.ofNat 5 (if wordOp w = 0x3E then w / 2 ^ 85 else w / 2 ^ 79)

/-- The scoreboard hints of a word: a pair word has none (02 R49, R58). -/
def wordHints (w : Nat) : Ctl :=
  match wordOp w, splitFull w with
  | 0x3E, _ | _, .error _ => { guard := wordGuard w, stall := 0, chn := false, wsb := 0, ssb := 0, yh := false }
  | _, .ok r => r.ctl

/-- The class, and for OP 0x30 the channel, of a word that hands an operation to an engine. -/
def wordEngine (w : Nat) : Option (Nat × Option Nat) :=
  match wordOp w, wordFn w with
  | 0x2D, _ => some (2, none)
  | 0x30, fn => some (if fn = 4 ∨ fn = 0x24 then 3 else 0, some (bitsN w 62 60))
  | 0x34, fn => if fn = 5 then none else some (1, none)
  | _, _ => none

/-- What keeps a group's next word from issuing: a scoreboard or an ENQ's result, and for an engine word with an active lane its counter
at 63 and the room in its channel or job queue. -/
def wordWait (s : State) (G : Group) (ls : List Nat) (w : Nat) : Option Block :=
  match issueWait G (wordHints w) w with
  | some b => some b
  | none =>
    match wordEngine w with
    | none => none
    | some (cls, ch) =>
      if (passing G ls (wordGuard w)).isEmpty then none
      else if 63 ≤ G.counter cls then some (.cntFull cls)
      else match ch with
        | some c => if 32 ≤ chanLen s G.tile c then some (.chan c) else none
        | none => if cls = 1 && decide (16 ≤ jobLen s G.tile G.core) then some .jobs else none

/-- The ready lanes of a group. -/
def readyOf (s : State) (g : Nat) (G : Group) : List Nat := (List.range G.lanes.length).filter (laneReady s g G)

/-- A group's lanes whose next word must wait are not ready (01 R19): each is blocked by what its word waits for. -/
def markWaits (s : State) (g : Nat) (G : Group) : Group :=
  let rs := readyOf s g G
  let at_ := fun (pc : BitVec 64) => rs.filter (fun i => G.laneTest i (fun l => l.pc == pc))
  ((rs.filterMap G.lane?).map Lane.pc).dedup.foldl (fun (K : Group) pc =>
    match (fetchWord s g G pc).2 with
    | .word w => (match wordWait s G (at_ pc) w with
        | some b => K.updLanes (at_ pc) (fun _ l => { l with block := b })
        | none => K)
    | _ => K) G

/-! ### Selection (01 R20, R44; 16 R357; 17 R364) -/

/-- A ready lane: its group, its number in the slot, and what ranks it. -/
structure Rdy where
  g : Nat
  lane : Nat
  slot : Nat
  sl : Nat
  pc : BitVec 64
  chain : Bool
  yielded : Bool
  debt : Bool
  ra : Bool
  /-- in a serialised region, which defers a freeze (17 R364), or in a commit past its first step, which completes first (09 R222) -/
  ser : Bool
  deriving DecidableEq, Repr

/-- Has a slot a group that may still issue? A debt to another slot is void (01 R44). -/
def slotAlive (gs : List (Nat × Group)) (k : Nat) : Bool := gs.any (fun e => e.2.slot == k && !e.2.frozen && !e.2.live.isEmpty)

def readyLanes (s : State) (gs : List (Nat × Group)) : List Rdy :=
  gs.flatMap (fun e =>
    (List.range e.2.lanes.length).filterMap (fun i =>
      match e.2.lane? i with
      | none => none
      | some l =>
        if laneReady s e.1 e.2 i then
          some { g := e.1, lane := i, slot := e.2.slot, sl := e.2.pos * e.2.w + i, pc := l.pc, chain := l.chain != 0,
                 yielded := l.yielded.isSome, debt := (match l.yielded with | some d => d.any (slotAlive gs) | none => false),
                 ra := e.2.ra == some l.pc, ser := (match e.2.region with | some r => r.ser || r.commit | none => false) }
        else none))

/-- A PC-set: the ready lanes of a slot at one program counter (01 R19). -/
structure PcSet where
  pc : BitVec 64
  lanes : FMap (List Nat)
  count : Nat
  low : Nat
  chain : Bool
  yielded : Bool
  debt : Bool
  ra : Bool
  ser : Bool
  deriving DecidableEq, Repr

def lanesByGroup (rs : List Rdy) : FMap (List Nat) :=
  ((rs.map Rdy.g).dedup).map (fun g => (g, (rs.filter (fun r => r.g == g)).map Rdy.lane))

def minOf : List Nat → Nat
  | [] => 0
  | [a] => a
  | a :: l => min a (minOf l)

def pcSets (rs : List Rdy) (slot : Nat) : List PcSet :=
  let xs := rs.filter (fun r => r.slot == slot)
  ((xs.map Rdy.pc).dedup).map (fun pc =>
    let ys := xs.filter (fun r => r.pc == pc)
    { pc, lanes := lanesByGroup ys, count := ys.length, low := minOf (ys.map Rdy.sl), chain := ys.any Rdy.chain, yielded := ys.all Rdy.yielded,
      debt := ys.any Rdy.debt, ra := ys.any Rdy.ra, ser := ys.any Rdy.ser })

/-- The PC-sets of a slot that may be selected: R44 holds back a set whose lanes are all yielded; in a slot that is to freeze,
only a chain, a serialised region or a commit that has begun goes on. -/
def eligibleSets (sets : List PcSet) (freezing : Bool) : List PcSet :=
  sets.filter (fun x => !(x.yielded && (x.debt || sets.any (fun y => !y.yielded))) && (!freezing || x.chain || x.ser))

/-- Does set a rank above b (01 R20; 08 R191)? -/
def outranks (a b : PcSet) : Bool :=
  if a.chain != b.chain then a.chain
  else if a.count != b.count then decide (b.count < a.count)
  else if a.ra != b.ra then b.ra
  else decide (a.low < b.low)

/-- The highest-ranked set, with the others. -/
def firstSet : List PcSet → Option (PcSet × List PcSet)
  | [] => none
  | a :: l =>
    match firstSet l with
    | none => some (a, [])
    | some (b, r) => if outranks b a then some (b, a :: r) else some (a, b :: r)

/-- A slot as a candidate: number, class, ready-since time. -/
structure Cand where
  slot : Nat
  cls : Nat
  since : Nat
  deriving DecidableEq, Repr

/-- Does candidate a come before b (16 R357)? -/
def before (last : Nat) (a b : Cand) : Bool :=
  if a.cls != b.cls then decide (b.cls < a.cls)
  else if a.since != b.since then decide (a.since < b.since)
  else decide ((a.slot + 15 - last) % 16 < (b.slot + 15 - last) % 16)

def firstCand (last : Nat) : List Cand → Option Cand
  | [] => none
  | a :: l => match firstCand last l with | none => some a | some b => if before last b a then some b else some a

/-- Slots with a lane inside a chain that is ready, or held back by a STALL hint only (01 R33). -/
def chainSlots (s : State) (gs : List (Nat × Group)) : List Nat :=
  ((gs.filter (fun e => (List.range e.2.lanes.length).any (fun i =>
    laneReady s e.1 { e.2 with stall := none } i && e.2.laneTest i (fun l => l.chain != 0)))).map (fun e => e.2.slot)).dedup

/-- Ready-since times as eligibility stands (16 R357). -/
def sinceNow (c : Core) (clock : Nat) (slots : List Nat) : FMap Nat :=
  slots.foldl (fun (m : FMap Nat) k => m.setAt k (c.since.lookD clock k)) []

/-- A slot, its two highest-ranked PC-sets and whether a ready one is left over. -/
structure Choice where
  slot : Nat
  first : PcSet
  next : Option (BitVec 64 × FMap (List Nat))
  waiting : Bool
  deriving DecidableEq, Repr

/-- The PC-sets of each slot of a core that may be selected. -/
def eligibleAt (s : State) (tile core : Nat) (rs : List Rdy) (k : Nat) : List PcSet :=
  eligibleSets (pcSets rs k) ((s.coreAt tile core).freezing.contains k)

/-- Slots with an eligible PC-set. -/
def openSlots (s : State) (tile core : Nat) : List Nat :=
  let rs := readyLanes s (coreGroups s tile core)
  (List.range 16).filter (fun k => !(eligibleAt s tile core rs k).isEmpty)

/-- What a core selects in this cycle, with the ready-since times as they stand; none: no lane issues (01 R20; 16 R357). -/
def choose (s : State) (tile core : Nat) (since : FMap Nat) : Option Choice :=
  let gs := coreGroups s tile core
  let rs := readyLanes s gs
  let elig := eligibleAt s tile core rs
  let cls := fun (k : Nat) => match gs.find? (fun e => e.2.slot == k && !e.2.frozen) with | some e => classOf s e.2 | none => 0
  let hot := chainSlots s gs
  let slots := if hot.isEmpty then openSlots s tile core else hot
  match firstCand (s.coreAt tile core).last (slots.map (fun k => ({ slot := k, cls := cls k, since := since.lookD s.clock k } : Cand))) with
  | none => none
  | some q =>
    (firstSet (if hot.isEmpty then elig q.slot else (elig q.slot).filter PcSet.chain)).map (fun r =>
      let next := (firstSet ((elig q.slot).filter (fun x => x.pc != r.1.pc))).map (fun r => (r.1.pc, r.1.lanes))
      { slot := q.slot, first := r.1, next,
        waiting := rs.any (fun e => !(e.slot == q.slot && (e.pc == r.1.pc || (match next with | some n => e.pc == n.1 | none => false)))) })

end Sys2Proof.Machine
end

