-- ==== Sys2Proof/Machine/MemEvents.lean ====
section
/-!
DEFINITION. Events of memory and translation: flushes, the directory, the write queue, SRAM errors and power gating, fault queues
and replay, stage-2 commands and managed frames (spec 14; 15; 12 R278, R281; 07 R175).
-/

namespace Sys2Proof.Machine

/-! ### Classes and the directory (14 R314 to R318) -/

/-- CLASS_FLUSH_COMPLETE (14 R314). -/
def execClassFlushComplete (granule : Nat) (s : State) : Host.Outcome State Fault Refusal := .next (endFlush s granule)

/-- READ_MISS: the owner's line is written back and shared, and the sharer is recorded (14 R316); held while the line waits for
acknowledgements (R317). -/
def execReadMiss (tile line : Nat) (s : State) : Host.Outcome State Fault Refusal :=
  .next (if lineShared s line then (dirClaim s tile 4 (line * lineBytes) false false).1 else s)

/-- OWNERSHIP_REQUEST: invalidations go out; with none to send the request proceeds (14 R316); held as a read miss is. -/
def execOwnershipRequest (tile line : Nat) (rmw : Bool) (s : State) : Host.Outcome State Fault Refusal :=
  .next (if lineShared s line then (dirClaim s tile 4 (line * lineBytes) true rmw).1 else s)

/-- INVALIDATION: a tile gives up its copy, a dirty one returning with the acknowledgement; one without a copy acknowledges too (14 R316). -/
def execInvalidation (tile line : Nat) (s : State) : Host.Outcome State Fault Refusal :=
  .next (if (s.dir.look line).any (fun d => d.acks.contains tile) then
      updDir (dropLines s (· == tile) (· == line)) line (fun d => { d with acks := d.acks.filter (· != tile) })
    else s)

/-- INVALIDATION_ACKS_DONE: the waiting request proceeds (14 R316, R317). -/
def execInvalidationAcksDone (line : Nat) (s : State) : Host.Outcome State Fault Refusal :=
  .next (updDir s line (fun d =>
    match d.acks, d.pend with
    | [], some (u, rmw) => dirOwn d u rmw
    | _, _ => d))

/-- L2_EVICTION (14 R318). -/
def execL2Eviction (line : Nat) (s : State) : Host.Outcome State Fault Refusal := .next (evictL2 s line)

/-- RDC_EVICTION: an O line is written back, and its state becomes I; an S line is dropped silently (14 R316). -/
def execRdcEviction (tile line : Nat) (s : State) : Host.Outcome State Fault Refusal :=
  .next (evictRdc s tile line)

/-! ### The write queue and atomics at a home (14 R320, R321; 07 R175) -/

/-- A request held at its target. -/
def holdReq (s : State) (p : Nat) (i : HeldReq) : State :=
  s.updPart p (fun P => if P.heldReqs.contains i then P else { P with heldReqs := P.heldReqs ++ [i] })

/-- Is a word of partition memory homed on a tile? -/
def homedOn (s : State) (tile pa : Nat) : Bool := spaceOf pa < 2 && homeTile s (partOfTile s tile) pa == some tile

/-- A reduction at the home of its word, false where it must wait: merged, or for a line of a MAPS entry applied (14 R322). -/
def reduceAtHome (s : State) (tile pa op : Nat) (ty : Ty) (v : Nat) : State × Bool :=
  match claimUnit s (.req (.reduction tile pa op ty (BitVec.ofNat 64 v))) tile pa true true with
  | (s1, false) => (s1, false)
  | (s1, true) =>
    (if mapped s1 pa then (atomicPa s1 none (partOfTile s tile) pa ty (fun old => atomOp op ty old v)).1 else mergeRed s1 tile pa op ty v, true)

/-- REDUCTION_ARRIVAL; what holds its granule or its line holds it (09 R223; 14 R314, R317). -/
def execReductionArrival (tile pa op : Nat) (ty : Ty) (v : BitVec 64) (s : State) : Host.Outcome State Fault Refusal :=
  if homedOn s tile pa && pa % (tyW ty / 8) == 0 && decide (op < 7) then
    (match reduceAtHome s tile pa op ty v.toNat with
      | (s1, true) => .next s1
      | (s1, false) => .next (holdReq s1 (partOfTile s tile) (.reduction tile pa op ty v)))
  else .next s

/-- WRITE_QUEUE_DRAIN: an entry 512 cycles old drains. -/
def execWriteQueueDrain (tile line : Nat) (s : State) : Host.Outcome State Fault Refusal :=
  .next (if (s.tileAt tile).wq.any (fun e => e.line == line && decide (e.since + 512 ≤ s.clock)) then drainLine s line else s)

/-- A returning atomic at the home of its word, false where it must wait; an AADDT that crosses its threshold wakes the waiters (07 R177). -/
def atomicAtHome (s : State) (tile pa op : Nat) (ty : Ty) (b c : DWord) : State × Bool :=
  match claimUnit s (.req (.atomic tile pa op ty b c)) tile pa true true with
  | (s1, false) => (s1, false)
  | (s1, true) =>
    let p := partOfTile s tile
    let f := atomFun op ty b.toNat c.toNat
    let (s2, old, psn) := atomicPa s1 none p pa ty f
    let v := fun x => valOf ty.signed (tyW ty) x
    (if op = 9 ∧ !psn ∧ v old < v c.toNat ∧ v c.toNat ≤ v (f old) then wakeAt s2 p tile (.pa pa false) else s2, true)

/-- ATOMIC_AT_HOME: a returning atomic on a word of the tile; held as a reduction is. -/
def execAtomicAtHome (tile pa op : Nat) (ty : Ty) (b c : BitVec 64) (s : State) : Host.Outcome State Fault Refusal :=
  if !homedOn s tile pa || pa % (tyW ty / 8) != 0 || decide (9 < op) then .next s
  else match atomicAtHome s tile pa op ty b c with
    | (s1, true) => .next s1
    | (s1, false) => .next (holdReq s1 (partOfTile s tile) (.atomic tile pa op ty b c))

/-! ### SRAM errors and power gating (14 R324 to R326) -/

/-- Damson has a record of an entry that was lost. -/
def tellDamson (s : State) (tile : Nat) (hit : SramHit) : State := { s with damson := s.damson ++ [(s.clock, tile, hit)] }

/-- SRAM_ERROR: a correction is counted; what cannot be corrected poisons a data line, every line that a tag, directory or class entry
described, a register, or an accumulator tile. -/
def execSramError (tile : Nat) (hit : SramHit) (s : State) : Host.Outcome State Fault Refusal :=
  .next (match hit with
    | .corrected a => s.updTile tile (fun t => { t with corr := t.corr.setAt a (s.clock :: t.corr.lookD [] a) })
    | .dataLine loc => s.setPoison (lineOf loc)
    | .entry g => (List.range 1024).foldl (fun (s : State) i => poisonPa s (g * granBytes + 64 * i)) (tellDamson s tile hit)
    | .tag l => poisonPa (tellDamson s tile hit) (l * lineBytes)
    | .register g lane reg => s.updGroup g (fun G => G.updLane lane (fun l => { l with vPsn := setAdd l.vPsn reg }))
    | .operand g lane reg => s.updGroup g (fun G => G.updLane lane (fun l => { l with vPsn := setAdd l.vPsn reg }))
    | .scalar g reg => s.updGroup g (fun G => { G with sPsn := setAdd G.sPsn reg })
    | .acc g t => s.updGroup g (fun G =>
        let a := G.acc.lookD { words := [], flags := 0 } t
        { G with acc := G.acc.setAt t { a with flags := a.flags ||| 32 } }))

/-- Bytes of a core's store that are gated or wake. -/
def gatedStore (t : Tile) (core : Nat) : Nat := 65536 * ((t.gated ++ t.waking).filter (fun u => bankOf u core)).length

/-- HBM lines in a way of a tile's L2. -/
def wayLines (t : Tile) (i : Nat) : List Nat := (t.l2.filter (fun e => e.2 == i)).map Prod.fst

/-- May a unit be gated (14 R325)? -/
def mayGate (s : State) (tile : Nat) (u : GateUnit) : Bool :=
  let t := s.tileAt tile
  !t.gated.contains u && !t.waking.contains u &&
  (match u with
    | .storeBank core b =>
      let used := scratchTaken s tile core ++ windowsTaken s tile core [] ++ [storeArea t.carve true |> fun a => (a.1, a.2 - a.1)]
      decide (b < 24) && decide (core < 4) && used.all (fun q => !meets q.1 q.2 (b * 65536) 65536) &&
      decide (storeUsed s tile core + gatedStore t core + 65536 + l1Least ≤ storeSize)
    | .tmBank i =>
      decide ((i + 1) * 524288 ≤ t.carve.2.1 * 2 ^ 18) &&
      s.launches.all (fun e => e.2.tm.all (fun a => a.tile != tile || !meets a.base a.size (i * 524288) 524288))
    | .l2Way i => decide (i < 16) && (wayLines t i).all (fun l => !(s.dir.look l).any (fun d => d.pend.isSome)))

/-- POWER_GATE: the L1's lines are written back first, or a way's lines evicted. -/
def execPowerGate (tile : Nat) (u : GateUnit) (s : State) : Host.Outcome State Fault Refusal :=
  .next (if mayGate s tile u then
      let s1 := match u with
        | .storeBank core _ => writeBackL1 s tile core
        | .l2Way i => (wayLines (s.tileAt tile) i).foldl evictL2 s
        | .tmBank _ => s
      s1.updTile tile (fun t => { t with gated := t.gated ++ [u] })
    else s)

/-- POWER_WAKE_DONE: the unit is released with zeros in every byte (14 R326). -/
def execPowerWakeDone (tile : Nat) (u : GateUnit) (s : State) : Host.Outcome State Fault Refusal :=
  let t := s.tileAt tile
  if !t.waking.contains u && !t.gated.contains u then .next s
  else
    let s1 := match u with
      | .storeBank core b => s.zeroRange (storeLoc tile core (b * 65536)) 65536
      | .tmBank i => s.zeroTm tile (i * 524288) 524288
      | .l2Way _ => s
    .next (s1.updTile tile (fun t => { t with gated := t.gated.filter (· != u), waking := t.waking.filter (· != u) }))

/-- PCARVE_TAKE_EFFECT: no launch is resident on the tile (14 R306). -/
def execPcarveTakeEffect (part tile : Nat) (s : State) : Host.Outcome State Fault Refusal :=
  .next (carveIdle s part [tile])

/-- No lane issues on a core in this cycle: none has, and the core has nothing to select. -/
def coreQuiet (s : State) (tile core : Nat) : Bool :=
  (s.coreAt tile core).since.all (fun e => decide (e.2 < s.clock)) &&
  (choose { s with groups := s.groups.mapV (markWaits s) } tile core (s.coreAt tile core).since).isNone

/-- PSCHED_TAKE_EFFECT: a new watchdog limit on a core, in a cycle in which no lane of the partition issues there (16 R358). -/
def execPschedTakeEffect (tile core : Nat) (s : State) : Host.Outcome State Fault Refusal :=
  .next (match s.parts.look (partOfTile s tile) with
    | some P => if coreQuiet s tile core then s.updCore tile core (fun c => { c with wdlog := P.wdlog }) else s
    | none => s)

/-! ### Walks (15 R332, R336) -/

def needOf : AccKind → Need
  | .read => .rd | .write => .wr | .rmw => .rmw | .fetch => .fetch | .engine => .rd | .table => .rd | .fatal => .rd
def kindOf : AccKind → Nat
  | .read => 0 | .write => 1 | .rmw => 2 | .fetch => 3 | .engine => 4 | .table => 5 | .fatal => 7

/-- PAGE_WALK_COMPLETE: the walk fills the tile's TLB, or its fault is entered. -/
def execPageWalkComplete (tile part : Nat) (va : BitVec 64) (kind : AccKind) (sup : Bool) (s : State) : Host.Outcome State Fault Refusal :=
  match translate s tile part (needOf kind) sup va.toNat with
  | (s1, .fault f) => .next (raiseFault s1 tile part 3 255 (kindOf kind) va.toNat f)
  | (s1, _) => .next s1

/-- STLBI_DONE: the walks that began before the drop are over; the lanes resume (12 R281). -/
def execStlbiDone (g : Nat) (s : State) : Host.Outcome State Fault Refusal :=
  .next (s.updGroup g (fun G => { G with lanes := G.lanes.map (fun l => match l.block with | .stlbi => { l with block := .free } | _ => l) }))

/-! ### Fault queues (15 R336 to R339) -/

/-- The 64 bytes of a fault's record. -/
def faultRecord (f : FaultEnt) (seq : Nat) : List Byte :=
  leBytes 8 f.addr ++ leBytes 8 f.ova ++
  leBytes 4 (f.kind + (f.key.stage - 1) * 8 + f.reason * 16 + f.key.tile * 2 ^ 12 + f.core * 2 ^ 22 + f.group * 2 ^ 24) ++ leBytes 4 seq ++ leBytes 40 0

/-- A fatal record with its number. -/
def numbered (rcd : List Byte) (seq : Nat) : List Byte := rcd.take 0x14 ++ leBytes 4 seq ++ rcd.drop 0x18

/-- Outstanding faults of a partition and stage that have no record yet. -/
def unposted (s : State) (p stage : Nat) : List FaultEnt :=
  s.tiles.flatMap (fun t => t.2.faults.filter (fun f => f.key.part == p && f.key.stage == stage && f.posted.isNone))

def setPosted (s : State) (k : FaultKey) (seq : Nat) : State :=
  s.updTile k.tile (fun t => { t with faults := t.faults.map (fun f => if f.key = k then { f with posted := some seq } else f) })

/-- The number of records of a queue. -/
def queueSize (sz : Nat) : Nat := 2 ^ (sz + 4)

/-- The next record of the VF fault queue: a fatal one, then a stage-2 fault's (15 R338, R339). -/
def postStage2 (s : State) (p : Nat) (P : Part) : State :=
  if !P.fqen || decide (queueSize P.fqsz ≤ diff32 P.fqpi P.fqci) then s
  else
    let at_ := hostLoc (P.fqbase + 64 + 64 * (P.fqpi % queueSize P.fqsz))
    let next := fun (s : State) (k : Option FaultKey) =>
      (s.updPart p (fun P => { P with fqpi := (P.fqpi + 1) % 2 ^ 32, fqOpen := P.fqOpen ++ [(P.fqpi, k)] })).reply
        (.irq (64 + p / 16) (1 + p % 16))
    match P.fatals, unposted s p 2 with
    | r :: rs, _ => next ((s.writeBytes at_ (numbered r P.fqpi)).updPart p (fun P => { P with fatals := rs })) none
    | [], f :: _ => next (setPosted (s.writeBytes at_ (faultRecord f P.fqpi)) f.key P.fqpi) (some f.key)
    | [], [] => s

def s1Base (P : Part) : Nat := bitsN P.s1ctl 47 12 * 4096
def s1Size (P : Part) : Nat := queueSize (bitsN P.s1ctl 11 8)

/-- The fault under which the stage-1 queue is unreachable (15 R339). -/
def stuckFault (p va : Nat) : FaultEnt :=
  { key := { tile := dispTile, stage := 2, part := p, page := va / granBytes }, kind := 4, addr := va, ova := va, reason := 3, core := 3,
    group := 255, posted := none }

/-- The place of an access of the device to the stage-1 queue; one that cannot be made is posted to the VF fault queue, and PI, a word that
an atomic writes, may not lie in host space (07 R175). -/
def s1Place (s : State) (p va : Nat) (need : Need) : State × Option Nat :=
  let stuck := fun (s : State) =>
    let f := stuckFault p va
    if s.hasFault f.key then s else s.updTile dispTile (fun t => { t with faults := t.faults ++ [f] })
  match translate s dispTile p need true va with
  | (s1, .ok e pa) =>
    if need = .rmw ∧ spaceOf pa = 3 then (stuck s1, none)
    else match claimUnit s1 .unit dispTile pa need.w (need == .rmw) with
      | (s2, true) => (countHost s2 p (e.ipa + (va - e.base)) pa e.mg, some pa)
      | (s2, false) => (s2, none)
  | (s1, .busy _) => (s1, none)
  | (s1, _) => (stuck s1, none)

/-- The next stage-1 record, then PI: an AADDT.rel.p of 1 on its word, whose threshold is the new value (15 R339). -/
def postStage1 (s : State) (p : Nat) (P : Part) : State :=
  match unposted s p 1 with
  | [] => s
  | f :: _ =>
    let va := s1Base P + 64 + 64 * (P.s1pi % s1Size P)
    if !bitN P.s1ctl 0 || decide (s1Size P ≤ diff32 P.s1pi P.s1ci) || s.hasFault (stuckFault p va).key || s.hasFault (stuckFault p (s1Base P)).key then s
    else match s1Place s p va .wr with
      | (s1, none) => s1
      | (s1, some ra) =>
        match s1Place s1 p (s1Base P) .rmw with
        | (s2, none) => s2
        | (s2, some pa) =>
          let new := (P.s1pi + 1) % 2 ^ 32
          let r := atomicPa (writePaBytes s2 none p ra (faultRecord f P.s1pi)) none p pa .n32 (fun old => atomOp 0 .n32 old 1)
          let s3 := setPosted r.1 f.key P.s1pi
          let s4 := s3.updPart p (fun P => { P with s1pi := new, s1Open := P.s1Open ++ [(P.s1pi, some f.key)] })
          let s5 := if !r.2.2 ∧ r.2.1 < new ∧ new ≤ (r.2.1 + 1) % 2 ^ 32 then wakeAt s4 p dispTile (.pa pa false) else s4
          s5.reply (.irq p 64)

/-- FAULT_RECORD_POST. -/
def execFaultRecordPost (part stage : Nat) (s : State) : Host.Outcome State Fault Refusal :=
  match s.parts.look part with
  | none => .next s
  | some P => .next (if stage = 1 then postStage1 s part P else postStage2 s part P)

/-- What the device does about a record it passes: RESP 2 denies, 1 or 0 retries; the fault must still stand under that record. -/
def answer (s : State) (q : Nat × Option FaultKey) (resp : Nat) : State :=
  match q.2 with
  | none => s
  | some k =>
    if (s.tileAt k.tile).faults.any (fun f => f.key == k && f.posted == some q.1) then
      (if resp = 2 then denyFault s k else endFault s k)
    else s

/-- A word of the stage-1 queue as the device reads it, counted as a request (15 R342). -/
def s1Word (s : State) (p va : Nat) : State × Option Nat :=
  match translate s dispTile p .rd true va with
  | (s1, .ok e pa) => let r := readPa (countHost s1 p (e.ipa + (va - e.base)) pa e.mg) pa 4; (r.1, some r.2)
  | (s1, _) => (s1, none)

/-- CI of the stage-1 queue, as its runtime has written it. -/
def s1Ci (s : State) (p : Nat) (P : Part) : State × Option Nat := s1Word s p (s1Base P + 8)

/-- A record of the stage-1 queue answered by its RESP. -/
def s1Answer (p : Nat) (P : Part) (s : State) (q : Nat × Option FaultKey) : State :=
  let r := s1Word s p (s1Base P + 64 + 64 * (q.1 % s1Size P) + 0x18)
  answer r.1 q (r.2.getD 0)

/-- FAULT_CI_ADVANCE: a host write of FQCI, or the stage-1 queue's CI as it stands in memory; every record passed is answered. A CI
below the previous or above PI is ignored (15 R338). -/
def faultCiNow (part stage ci : Nat) (s : State) : State :=
  match s.parts.look part with
  | none => s
  | some P =>
    if stage = 1 then
      let r := s1Ci s part P
      if r.2 != some (ci % 2 ^ 32) || decide (diff32 P.s1pi P.s1ci < diff32 ci P.s1ci) then s
      else
        let done := P.s1Open.filter (fun q => decide (diff32 q.1 P.s1ci < diff32 ci P.s1ci))
        let s1 := r.1.updPart part (fun P => { P with s1ci := ci % 2 ^ 32, s1Open := P.s1Open.filter (fun q => !done.contains q) })
        (done.foldl (s1Answer part P) s1)
    else if diff32 P.fqpi P.fqci < diff32 ci P.fqci then s
    else
      let done := P.fqOpen.filter (fun q => decide (diff32 q.1 P.fqci < diff32 ci P.fqci))
      let s1 := s.updPart part (fun P => { P with fqci := ci % 2 ^ 32, fqOpen := P.fqOpen.filter (fun q => !done.contains q) })
      (done.foldl (fun t q =>
        answer t q (s.readN (hostLoc (P.fqbase + 64 + 64 * (q.1 % queueSize P.fqsz) + 0x18)) 4)) s1)
def execFaultCiAdvance (part stage ci : Nat) (s : State) : Host.Outcome State Fault Refusal := .next (faultCiNow part stage ci s)

/-- HELD_ACCESS_RETRY: lanes that a fault of a page held are free to retry once it has ended (15 R336). -/
def execHeldAccessRetry (part fault : Nat) (s : State) : Host.Outcome State Fault Refusal :=
  .next { s with groups := s.groups.mapV (fun _ G => { G with lanes := G.lanes.map (fun l =>
    match l.block with
    | .fault k _ _ _ => if k.part = part ∧ k.page = fault ∧ !s.hasFault k then { l with block := .free } else l
    | _ => l) }) }

/-! ### Replay of the side log (15 R337) -/

/-- The places of an entry's accesses, each with the IPA and whether its leaf is managed, or how the first that fails fails. -/
def slogPlaces (s : State) (tile core p : Nat) (e : SlgEnt) : List SlgAcc → State × Except Tr (List (SlgAcc × Nat × Nat × Bool))
  | [] => (s, .ok [])
  | a :: as =>
    match coreTranslate s tile core p (if e.op.isSome then .rmw else .wr) e.priv a.va with
    | (s1, .ok t pa) =>
      if spaceOf pa = 3 ∧ e.op.isSome then (s1, .error (.trap 0x07))
      else
        match slogPlaces s1 tile core p e as with
        | (s2, .ok r) => (s2, .ok ((a, pa, t.ipa + (a.va - t.base), t.mg) :: r))
        | (s2, .error f) => (s2, .error f)
    | (s1, f) => (s1, .error f)

/-- What may hold the accesses at their homes passed, for the group that made them. -/
def slogClaim (s : State) (tile core : Nat) (e : SlgEnt) (as : List (SlgAcc × Nat × Nat × Bool)) : State × Bool :=
  as.foldl (fun (r : State × Bool) q =>
    if r.2 then
      let c := claim r.1 (.lanes e.g) tile core q.2.1 true e.op.isSome
      (c.1, c.2.isNone)
    else r) (s, true)

/-- An entry's accesses performed in lane order. A replay is no access of the region that its group may have opened since: it marks that
region's inputs as any other write does (09 R217). -/
def slogPerform (s : State) (p : Nat) (e : SlgEnt) (as : List (SlgAcc × Nat × Nat × Bool)) : State :=
  let s0 := countReqs s p (as.map (fun q => (q.2.2.1, q.2.1, q.2.2.2)))
  let s1 := as.foldl (fun s q =>
    let pa := q.2.1
    let s1 := match e.op with
      | none => writePlace s e.g p q.1.n q.1.val.toNat q.1.psn (.pa pa false)
      | some op => redPlace s e.g p op e.ty q.1.val.toNat (.pa pa false)
    let s2 := if e.op.isSome ∧ poisonedPa s1 pa then s1 else oweLane s1 e.g (q.1.lanes.headD 0) pa q.1.va
    if e.op.isSome ∧ spaceOf pa < 2 ∧ !mapped s pa then s2 else markLine s2 none (lineOf pa)) s0
  match e.op, as.head? with
  | none, some q => clearStored s1 q.1.n (as.map (fun x => (locOf s1 x.2.1, x.1.psn)))
  | _, _ => s1

/-- SIDE_LOG_REPLAY: the first entry whose fault has ended, none of its page before it; a fault leaves it waiting in its place, another
failure discards it. While issue stands stopped an entry stays as it is (17 R367); of a group that ends, its counters come first
(08 R188). -/
def execSideLogReplay (tile core : Nat) (s : State) : Host.Outcome State Fault Refusal :=
  let log := (s.coreAt tile core).slog
  let ready := (List.range log.length).find? (fun i => match log[i]? with
    | some e => !s.hasFault e.key && !((log.take i).any (fun d => d.page == e.page)) && !(s.groups.look e.g).any Group.ending
    | none => false)
  match ready.bind (fun i => (log[i]?).map (fun e => (i, e))) with
  | none => .next s
  | some (i, e) =>
    let p := match s.groups.look e.g with | some G => s.partNo G | none => e.key.part
    let num := match s.groups.look e.g with | some G => G.number | none => 255
    let rest := fun (c : Core) => { c with slog := c.slog.eraseIdx i }
    if (s.parts.look p).any Part.stopped then .next s
    else match slogPlaces s tile core p e e.accs with
      | (s1, .ok as) =>
        (match slogClaim s1 tile core e as with
          | (s2, true) => .next ((slogPerform s2 p e as).updCore tile core rest)
          | (s2, false) => .next s2)
      | (s1, .error (.trap c)) => .next ((dropEntry s1 e c false).updCore tile core rest)
      | (s1, .error (.fault f)) =>
        let va := match e.accs.head? with | some a => a.va | none => 0
        .next ((raiseFault s1 tile p core num (if e.op.isSome then 2 else 1) va f).updCore tile core (fun c =>
          { c with slog := c.slog.mapIdx (fun j d => if j = i then { d with key := faultKey tile p f } else d) }))
      | (s1, .error _) => .next s1

/-! ### Stage-2 commands (15 R334, R336) -/

/-- The frame of a granule is still where a walk saw it: the IPA, the PA and the size of its page. -/
def sameFrame (s : State) (P : Part) (e : Nat × Nat × Nat) (gr : Nat) : Bool :=
  let ipa := e.1 + (gr * granBytes - e.2.1)
  match (stage2 s P ipa).2 with
  | .page b _ pa _ _ _ _ => pa + (ipa - b) == gr * granBytes
  | .busy _ _ _ _ => true
  | _ => false

/-- Is an HBM granule mapped by some partition's stage 2? -/
def frameNamed (s : State) (gr : Nat) : Bool :=
  s.parts.any (fun e => (hbmRanges s e.2).any (fun r => decide (r.1 ≤ gr * granBytes) && decide (gr * granBytes < r.1 + r.2)))

/-- Granules whose mapping has changed or been removed return to NONE (14 R315): those that a walk saw in one of the chosen pages and that
the tables now have elsewhere, and those of HBM that no table maps. What was seen is seen anew. -/
def resetChanged (s : State) (p : Nat) (P : Part) (sel : Nat × Nat → Bool) : State :=
  let es := P.seen.filter (fun e => sel (e.1, e.2.2))
  let gone := s.classes.keys.filter (fun gr =>
    let pa := gr * granBytes
    es.any (fun e => decide (e.2.1 ≤ pa) && decide (pa < e.2.1 + e.2.2) && !sameFrame s P e gr) || (spaceOf pa == 0 && !frameNamed s gr))
  let same := fun (e : Nat × Nat × Nat) => match (stage2 s P e.1).2 with
    | .page b z pa _ _ _ _ => b == e.1 && pa == e.2.1 && z == e.2.2
    | .busy _ _ _ _ => true
    | _ => false
  (gone.foldl classReset s).updPart p (fun Q => { Q with seen := Q.seen.filter (fun e => !sel (e.1, e.2.2) || same e) })

/-- Entries that derive from chosen stage-2 pages, and pointers that do, are dropped; faults whose page the invalidation covers end by
retry. -/
def s2Drop (s : State) (p : Nat) (sel : Nat × Nat → Bool) (page : Nat → Bool) : State :=
  match s.parts.look p with
  | none => s
  | some P =>
    retryFaults (resetChanged (dropTlb s p (fun e => e.s2.any sel) (fun e => e.s2.any sel)) p P sel) p 2 page

/-- A stage-2 command: dropped while one is in progress. -/
def s2Command (s : State) (p : Nat) (f : State → State) : State :=
  match s.parts.look p with
  | none => s
  | some P => if P.s2busy then s.updPart p (fun P => { P with s2drop := true }) else f s

def s2Done (s : State) (p status : Nat) : State :=
  s.updPart p (fun P => { P with s2busy := false, s2status := status, s2seq := (P.s2seq + 1) % 2 ^ 32, mig := none })

/-- S2CMD_INVALIDATE_IPA: OP 1. -/
def s2InvalidateIpa (part : Nat) (ipa : BitVec 64) (s : State) : State :=
  let a := bitsN ipa.toNat 47 16 * granBytes
  (s2Command s part (fun s =>
    (s2Drop s part (pageHas a) (fun pg => pg == a / granBytes)).updPart part (fun P => { P with s2busy := true })))
def execS2cmdInvalidateIpa (part : Nat) (ipa : BitVec 64) (s : State) : Host.Outcome State Fault Refusal := .next (s2InvalidateIpa part ipa s)

/-- S2CMD_INVALIDATE_ALL: OP 2. -/
def s2InvalidateAll (part : Nat) (s : State) : State :=
  (s2Command s part (fun s => (s2Drop s part (fun _ => true) (fun _ => true)).updPart part (fun P => { P with s2busy := true })))
def execS2cmdInvalidateAll (part : Nat) (s : State) : Host.Outcome State Fault Refusal := .next (s2InvalidateAll part s)

/-- S2_INVALIDATION_DONE (15 R334). -/
def execS2InvalidationDone (part : Nat) (s : State) : Host.Outcome State Fault Refusal :=
  .next (match s.parts.look part with
    | some P => if P.s2busy && P.mig.isNone then s2Done s part 0 else s
    | none => s)

/-! ### Managed frames (15 R340, R341) -/

def bsyBit : Nat := 2 ^ 59
/-- A leaf of level 4 with MG set. -/
def managedLeaves (s : State) (P : Part) : List (Nat × Nat × Nat × Nat) :=
  (s2Leaves s P).filter (fun l => l.2.1 == granBytes && bitN l.2.2.1 63 && !bitN l.2.2.1 59)

/-- Host-form managed pages of a 2 MiB region, in increasing IPA. -/
def regionPages (s : State) (P : Part) (r : Nat) : List (Nat × Nat × Nat × Nat) :=
  (managedLeaves s P).filter (fun l => decide (r ≤ l.1) && decide (l.1 < r + 2 ^ 21) && spaceOf (pteAddr l.2.2.1) == 3)

/-- Is a frame covered by a live MAPS entry, or locked by a commit (09 R218, R223)? -/
def framePinned (s : State) (f : Nat) : Bool :=
  s.cores.any (fun c => c.2.maps.any (fun m => m.2.pas.any (fun q => granOf q.2 == f))) ||
  s.groups.any (fun e => match e.2.region with
    | some r => (r.commit || (r.ser && (s.partOf e.2).any (fun P => P.token == some e.1))) &&
        (r.inputs.any (fun x => granOf x.pa == f) || r.stores.any (fun x => granOf x.pa == f))
    | none => false)

/-- The LRU frame of a partition among those that `ok` admits by IPA, with the leaf that names it: none where the host has changed
the leaf so that it names the frame no longer. A frame whose changed leaf still names it stays as it is (15 R340, R341). -/
def lruFrame (s : State) (u : Nat) (ok : Nat → Bool) : Option (Nat × Frame × Option (Nat × Nat × Nat × Nat)) :=
  match s.parts.look u with
  | none => none
  | some P =>
    let all := s2Leaves s P
    let ls := managedLeaves s P
    let names := fun (f : Nat) (l : Nat × Nat × Nat × Nat) => pteAddr l.2.2.1 == f * granBytes
    ((s.frames.filter (fun e => e.2.part == u && ok e.2.ipa && !framePinned s e.1 && (ls.any (names e.1) || !all.any (names e.1)))).foldl
      (fun (b : Option (Nat × Frame)) e => match b with | some q => if e.2.age < q.2.age then some e else b | none => some e) none).map
      (fun e => (e.1, e.2, ls.find? (names e.1)))

/-- Frames of the pool that hold nothing and that no move is filling. -/
def poolFree (s : State) : List Nat :=
  (List.range s.mpool).filter (fun f => (s.frames.look f).isNone && !s.parts.any (fun e => e.2.move.any (fun m => m.target == f * granBytes)))

/-- Frames in excess of another partition's guarantee: the largest, ties to the lowest number. -/
def richest (s : State) (v : Nat) : Option Nat :=
  ((s.parts.filter (fun e => e.1 != v && decide (e.2.guar < e.2.res))).foldl (fun (b : Option (Nat × Nat)) e =>
    match b with
    | some q => if q.2 < e.2.res - e.2.guar then some (e.1, e.2.res - e.2.guar) else b
    | none => some (e.1, e.2.res - e.2.guar)) none).map Prod.fst

/-- The first steps of a move: BSY, the invalidation, and the granule's copies flushed (15 R340). -/
def beginMove (s : State) (u : Nat) (l : Nat × Nat × Nat × Nat) (target : Nat) (heir : Option Nat) : State :=
  let e := l.2.2.1 + bsyBit
  let s1 := s.writeN (locOf s l.2.2.2) 8 e
  let s2 := s2Drop s1 u (pageHas l.1) (fun pg => pg == l.1 / granBytes)
  let a := pteAddr l.2.2.1
  let s3 := if spaceOf a = 0 then classReset s2 (granOf a) else classReset s2 (granOf target)
  s3.updPart u (fun P => { P with move := some { leaf := l.2.2.2, ipa := l.1, val := e, target, heir } })

/-- The next page of a migrate-in command (15 R341). A frame whose leaf no longer names it returns to the pool, and the choice is
made anew (R340). -/
def migrateFrom : Nat → State → Nat → State
  | 0, s, _ => s
  | n + 1, s, v =>
    match s.parts.look v with
    | none => s
    | some P =>
      match P.mig with
      | none => s
      | some (r, reserve) =>
        if P.move.isSome then s
        else match regionPages s P r with
          | [] => s2Done s v 0
          | l :: _ =>
            let out := fun (u : Nat) (ok : Nat → Bool) =>
              if (s.parts.look u).any (fun U => U.move.isSome) then s
              else match lruFrame s u ok with
                | none => s2Done s v 1
                | some (_, f, some k) => beginMove s u k f.backing (some v)
                | some (k, _, none) =>
                  migrateFrom n (({ s with frames := s.frames.remove k }).updPart u (fun P => { P with res := P.res - 1 })) v
            let free := poolFree s
            if P.res = P.burst then out v (fun i => decide (i < r) || decide (r + 2 ^ 21 ≤ i))
            else if reserve < free.length || (decide (P.res < P.guar) && !free.isEmpty) then
              beginMove s v l (free.headD 0 * granBytes) none
            else match richest s v with
              | none => s2Done s v 1
              | some u => out u (fun _ => true)

def migrateStep (s : State) (v : Nat) : State := migrateFrom (s.frames.length + 1) s v

/-- The frames that a command leaves to the other partitions' guarantees, as they stand when it begins. -/
def reserveNow (s : State) (v : Nat) : Nat := sumOf ((s.parts.filter (fun e => e.1 != v)).map (fun e => e.2.guar - e.2.res))

/-- S2CMD_MIGRATE_IN: OP 3 (15 R341). -/
def s2MigrateIn (part : Nat) (ipa : BitVec 64) (s : State) : State :=
  let r := bitsN ipa.toNat 47 16 * granBytes
  (s2Command s part (fun s =>
    if r % 2 ^ 21 != 0 then s.updPart part (fun P => { P with s2status := 2, s2seq := (P.s2seq + 1) % 2 ^ 32 })
    else
      migrateStep (s.updPart part (fun P =>
        { P with s2busy := true, mig := some (r, reserveNow s part), act := P.act.setAt (r / 2 ^ 21) { count := 0, pending := false, note := none } })) part))
def execS2cmdMigrateIn (part : Nat) (ipa : BitVec 64) (s : State) : Host.Outcome State Fault Refusal := .next (s2MigrateIn part ipa s)

/-- A move ended: the 64 KiB copied, and the leaf rewritten unless the host has changed it (15 R340). -/
def finishMove (s : State) (u : Nat) (m : Move) : State × Bool :=
  let a := pteAddr m.val
  let cur := s.readN (locOf s m.leaf) 8
  let s1 := s.moveRange (locOf s a) (locOf s m.target) granBytes
  let new := m.val - bsyBit - a + m.target
  let s2 := if cur = m.val then s1.writeN (locOf s1 m.leaf) 8 new else s1
  let s3 := markDirty (s2.updPart u (fun P => { P with move := none })) u m.target
  if spaceOf a = 3 then
    if cur = m.val then
      let fr : Frame := { part := u, ipa := m.ipa, backing := a, age := s.clock / 2 ^ 20 }
      ((({ s3 with frames := s3.frames.setAt (granOf m.target) fr }).updPart u (fun P => { P with res := P.res + 1 })), true)
    else (s3, true)
  else if cur = m.val || pteAddr cur != a then
    ((({ s3 with frames := s3.frames.remove (granOf a) }).updPart u (fun P => { P with res := P.res - 1 })), true)
  else (s3, false)

/-- FRAME_MOVE_DONE: a frame moved out for another page is filled at once; then the commands that wait go on. -/
def execFrameMoveDone (part : Nat) (s : State) : Host.Outcome State Fault Refusal :=
  match s.parts.look part with
  | none => .next s
  | some P =>
    match P.move with
    | none => .next s
    | some m =>
      let (s1, freed) := finishMove s part m
      let s2 := match m.heir.bind (fun v => (s1.parts.look v).map (fun V => (v, V))), freed with
        | some (v, V), true => (match (V.mig.map Prod.fst).map (regionPages s1 V) with
            | some (l :: _) => if V.move.isSome && v != part then s1 else beginMove s1 v l (pteAddr m.val) none
            | _ => s1)
        | _, _ => s1
      .next ((s2.parts.filter (fun e => e.2.mig.isSome)).foldl (fun s e => migrateStep s e.1) s2)

/-! ### Access counters and notifications (15 R342, R343) -/

/-- A 32-byte notification: region, KIND, count, SEQ, lost count. -/
def noteRecord (ipa kind count seq lost : Nat) : List Byte :=
  leBytes 8 ipa ++ leBytes 4 (kind + count * 2 ^ 16) ++ leBytes 4 seq ++ leBytes 8 lost ++ leBytes 8 0

def postNote (s : State) (p : Nat) (P : Part) (ipa kind count lost : Nat) : State :=
  let s1 := s.writeBytes (hostLoc (P.nqbase + 64 + 32 * (P.nqpi % queueSize P.nqsz))) (noteRecord ipa kind count P.nqpi lost)
  (s1.updPart p (fun P => { P with nqpi := (P.nqpi + 1) % 2 ^ 32 })).reply (.irq (64 + p / 16) (1 + p % 16))

def noteRoom (P : Part) : Bool := decide (diff32 P.nqpi P.nqci < queueSize P.nqsz)

/-- ACCESS_COUNT_THRESHOLD: the count rose to ACTHR, and is posted as it then was. -/
def execAccessCountThreshold (part region : Nat) (s : State) : Host.Outcome State Fault Refusal :=
  match s.parts.look part with
  | none => .next s
  | some P =>
    let a := P.act.lookD { count := 0, pending := false, note := none } region
    match a.note with
    | none => .next s
    | some n =>
    if a.pending || !P.nqen then .next s
    else if noteRoom P then
      .next (postNote (s.updPart part (fun P => { P with act := P.act.setAt region { a with pending := true, note := none } })) part P (region * 2 ^ 21) 0 n 0)
    else .next (s.updPart part (fun P => { P with
      act := P.act.setAt region { count := 0, pending := false, note := none }, nqovf := true, nqlost := P.nqlost + 1 }))

/-- NQCI_WRITE: the consumer advances; a lost count is posted (15 R343). -/
def nqciNow (part : Nat) (v : BitVec 32) (s : State) : State :=
  match s.parts.look part with
  | none => s
  | some P =>
    if diff32 P.nqpi P.nqci < diff32 v.toNat P.nqci then s
    else
      let s1 := s.updPart part (fun P => { P with nqci := v.toNat })
      let P1 := { P with nqci := v.toNat }
      (if 0 < P.nqlost ∧ noteRoom P1 ∧ P.nqen then
        (postNote s1 part P1 0 1 0 P.nqlost).updPart part (fun P => { P with nqlost := 0 })
      else s1)
def execNqciWrite (part : Nat) (v : BitVec 32) (s : State) : Host.Outcome State Fault Refusal := .next (nqciNow part v s)

end Sys2Proof.Machine
end

