-- ==== Sys2Proof/Machine/Mesh.lean ====
section
/-!
DEFINITION. Partitions on the mesh: routing tables and the Rowan tree, packets and drops, rekeying, partition commands, and tiles
that fail (spec 17 R375 to R377; 18 R378 to R392).
-/

namespace Sys2Proof.Machine

/-! ### Shapes (00 R4) -/

/-- Neighbours of a tile among some tiles, by port: 0 N, 1 E, 2 S, 3 W. -/
def portsIn (ts : List Nat) (t : Nat) : List (Nat × Nat) :=
  (List.range 4).filterMap (fun d => match neighbour t d with
    | some v => if ts.contains v then some (d, v) else none
    | none => none)

/-- Distances from a frontier: `step` gives what is one hop further; at most n rounds. -/
def spread (step : Nat → List Nat) : Nat → Nat → List Nat → FMap Nat → FMap Nat
  | 0, _, _, m => m
  | n + 1, d, front, m =>
    let new := ((front.flatMap step).dedup).filter (fun v => (m.look v).isNone)
    if new.isEmpty then m else spread step n (d + 1) new (new.foldl (fun (m : FMap Nat) v => m.setAt v (d + 1)) m)

def distances (step : Nat → List Nat) (n a : Nat) : FMap Nat := spread step n 0 [a] [(a, 0)]

/-- A non-empty connected set of tiles. -/
def connectedTiles (ts : List Nat) : Bool :=
  match ts with
  | [] => false
  | a :: _ =>
    let m := distances (fun t => (portsIn ts t).map Prod.snd) ts.length a
    ts.all (fun t => (m.look t).isSome)

/-! ### Routing tables (18 R380) -/

/-- Depths of a partition's tiles: hops from local tile 0. -/
def tileDepths (ts : List Nat) : FMap Nat := distances (fun t => (portsIn ts t).map Prod.snd) ts.length (ts.headD 0)

/-- (depth, local index) of v is less than that of u: the link from u to v is up. -/
def isUp (ts : List Nat) (dep : FMap Nat) (u v : Nat) : Bool :=
  let du := dep.lookD 0 u
  let dv := dep.lookD 0 v
  decide (dv < du) || (dv == du && decide (ts.idxOf v < ts.idxOf u))

/-- Distances to d over down hops only. -/
def downDist (ts : List Nat) (dep : FMap Nat) (d : Nat) : FMap Nat :=
  distances (fun z => ((portsIn ts z).map Prod.snd).filter (fun y => isUp ts dep z y)) ts.length d

/-- The lesser of two distances, where one may be absent. -/
def minDist : Option Nat → Option Nat → Option Nat
  | some a, some b => some (min a b)
  | some a, none => some a
  | none, b => b

/-- A distance table of legal paths, from the root downwards: up hops lead to tiles of lesser (depth, index). -/
def legalTable (ts : List Nat) (dep dd : FMap Nat) (order : List Nat) : FMap Nat :=
  order.foldl (fun (m : FMap Nat) u =>
    let best := (((portsIn ts u).map Prod.snd).filter (isUp ts dep u)).foldl
      (fun (b : Option Nat) v => minDist b ((m.look v).map (· + 1))) (dd.look u)
    match best with | some x => m.setAt u x | none => m) []

/-- Tiles by rising (depth, local index). -/
def rootOrder (ts : List Nat) (dep : FMap Nat) : List Nat :=
  (List.range (ts.length + 1)).flatMap (fun k => ts.filter (fun t => dep.lookD 0 t == k))

/-- The entry of tile u for destination d: UP in bits 2:0, DN in bits 6:4; port 4 is local, 7 none. -/
def routeEntry (ts : List Nat) (u d : Nat) : Nat :=
  if u = d then 0x44
  else
    let dep := tileDepths ts
    let dd := downDist ts dep d
    let dl := legalTable ts dep dd (rootOrder ts dep)
    let dn := match dd.look u with
      | none => 7
      | some x => (((portsIn ts u).find? (fun q => !isUp ts dep u q.2 && (dd.look q.2).map (· + 1) == some x)).map Prod.fst).getD 7
    let up := match dl.look u with
      | none => 7
      | some x => (((portsIn ts u).find? (fun q =>
          (if isUp ts dep u q.2 then dl.look q.2 else dd.look q.2).map (· + 1) == some x)).map Prod.fst).getD 7
    16 * dn + up

/-- The parent of a tile in the Rowan tree: its neighbour of lesser depth with the least (depth, local index) (18 R388). -/
def rowanParent (ts : List Nat) (t : Nat) : Option Nat :=
  let dep := tileDepths ts
  (((portsIn ts t).map Prod.snd).filter (fun v => decide (dep.lookD 0 v < dep.lookD 0 t))).foldl
    (fun (b : Option Nat) v => match b with
      | some w => if isUp ts dep w v then some v else some w
      | none => some v) none

/-- The tables and the tree written on every tile of a partition (18 R380, R388; R392 step 4). -/
def writeTables (s : State) (ts : List Nat) : State :=
  ts.foldl (fun s t => s.updTile t (fun x => { x with
    table := (List.range ts.length).map (fun i => (i, routeEntry ts t (ts.getD i 0))), tree := rowanParent ts t })) s

/-- The hops of a tile-plane packet at tile u to a local index, at most n, as (port, virtual channel): UP on VC0 until the first down hop, from
which on it is DN on VC1 (18 R380). -/
def tilePath (s : State) (ts : List Nat) (d : Nat) : Nat → Nat → Bool → List (Nat × Nat)
  | 0, _, _ => []
  | n + 1, u, down =>
    let e := (s.tileAt u).table.lookD 0x77 d
    let port := if down then bitsN e 6 4 else bitsN e 2 0
    match (if port < 4 then neighbour u port else none) with
    | none => []
    | some v =>
      let down' := down || !isUp ts (tileDepths ts) u v
      (port, if down' then 1 else 0) :: tilePath s ts d n v down'

/-- The hops of a transit packet between two places of the grid: along x, then along y; VC0 towards the edge, VC1 from it (18 R379). -/
def transitPath (a b : Nat × Nat) (inbound : Bool) : List (Nat × Nat) :=
  let vc := if inbound then 1 else 0
  List.replicate (b.1 - a.1) (1, vc) ++ List.replicate (a.1 - b.1) (3, vc) ++
  List.replicate (b.2 - a.2) (2, vc) ++ List.replicate (a.2 - b.2) (0, vc)

/-- Every tile's home-map entry i names local tile i mod n (14 R310; 18 R392). -/
def homeMap (ts : List Nat) : FMap Nat := if ts.isEmpty then [] else (List.range 4096).map (fun i => (i, ts.getD (i % ts.length) 0))

/-! ### Packets (18 R381 to R385) -/

/-- Does partition n own the frame, port or VF that a transit packet names at edge resource e? An optical port is its own for the exports that
its window and its import table reach. -/
def edgeOwner (s : State) (n : Nat) (P : Part) (e addr vf : Nat) : Bool :=
  if e < 32 then (hbmRanges s P).any (fun r => decide (r.1 ≤ addr) && decide (addr < r.1 + r.2))
  else if e < 48 then bitN P.fwin.toNat 0 && importOk P (bitsN addr 44 39) (bitsN addr 38 33) false false
  else n / 16 == e - 48 && n == vf

/-- Does a packet stop at an edge resource, and not at a tile? -/
def packetToEdge (k : Packet) : Bool := k.transit && !k.inbound

/-- The partition whose tile or resource a packet reaches. -/
def packetTarget (s : State) (k : Packet) : Option (Nat × Part) :=
  s.parts.find? (fun e => if packetToEdge k then edgeOwner s e.1 e.2 k.dst k.addr k.vf else e.2.tiles.contains k.dst)

/-- The partition that a packet is delivered to: none when the check of R382 fails. -/
def packetOwner (s : State) (k : Packet) : Option Nat :=
  (s.parts.find? (fun e => e.2.tag == k.tag &&
    (if packetToEdge k then edgeOwner s e.1 e.2 k.dst k.addr k.vf else e.2.tiles.contains k.dst))).map Prod.fst

/-- A receiver counts a packet that it drops (18 R386). -/
def countRxDrop (s : State) (p : Nat) : State := s.updPart p (fun P => { P with rxdrop := (P.rxdrop + 1) % 2 ^ 32 })

/-- A packet dropped before any effect: the drop is noted at its source tile, the receiver counts it, a REQ is refused. One from an edge
resource has no source tile and leaves no record. -/
def dropPacket (s : State) (k : Packet) : State :=
  let line := k.addr % 2 ^ 48 / 64 * 64
  let s1 := if k.inbound then s
    else noteDrop s k.src (if k.transit then 0x8000 + k.dst % 64 else k.dst) k.tag (k.cls + (if k.transit then 0x80 else 0)) line []
  let s2 := if k.transit then (match packetTarget s1 k with | some e => countRxDrop s1 e.1 | none => s1) else s1
  if k.cls = 0 then s2.reply .refusal else s2

/-- Lines that the payload of a packet touches. -/
def poisonPayload (s : State) (addr n : Nat) : State :=
  (List.range (n / lineBytes + 1)).foldl (fun s i => if lineBytes * i < n then poisonPa s (addr + lineBytes * i) else s) s

/-- The write that a packet brings, false where it must wait at its home. -/
def packetWrite (s : State) (p : Nat) (k : Packet) : State × Bool :=
  match claimRange s (.req (.packet k)) 1024 k.addr k.payload.length true false with
  | (s1, true) => (writePaBytes s1 none p k.addr k.payload, true)
  | (s1, false) => (s1, false)

/-- A posted write takes effect, or is held at its home. -/
def postWrite (s : State) (p : Nat) (k : Packet) : State :=
  if k.cls != 3 then s
  else match packetWrite s p k with
    | (s1, true) => s1
    | (s1, false) => holdReq s1 p (.packet k)

/-- The tile that holds a flow's expected number, and the flow's key there: a flow is a source port, a destination port and a class. -/
def flowOf (k : Packet) : Nat × Nat :=
  if k.inbound then (k.dst, 2 ^ 17 + 8 * k.src + k.cls) else (k.src, 8 * k.dst + k.cls + (if k.transit then 2 ^ 16 else 0))

/-- The IV under which a packet of a flow is sealed (18 R385). -/
def cipherIv (srcPort dstPort cls seq : Nat) : BitVec 96 :=
  BitVec.ofNat 96 (srcPort % 2 ^ 12 * 2 ^ 84 + dstPort % 2 ^ 12 * 2 ^ 72 + cls % 16 * 2 ^ 68 + seq % 2 ^ 64)

/-- A packet at its destination: the tag is checked, then the sealing of the flow. In the exact class the next number is taken, a lower one
is a duplicate, and a failed tag or a higher one poisons the data or refuses the request; in the lossy class every number not yet passed is
taken, and a failed block becomes zeros (18 R382, R385). -/
def deliver (s : State) (k : Packet) : State :=
  match packetOwner s k with
  | none => dropPacket s k
  | some p =>
    let (at_, key) := flowOf k
    let want := (s.tileAt at_).flows.lookD 0 key
    let bump := fun (s : State) (n : Nat) => s.updTile at_ (fun t => { t with flows := t.flows.setAt key n })
    if k.tagOk && k.seq < want then countRxDrop s p
    else if k.lossy then
      if k.tagOk then postWrite (bump s (k.seq + 1)) p k
      else postWrite s p { k with payload := k.payload.map (fun _ => 0) }
    else if !k.tagOk || want < k.seq then
      if k.cls = 0 then s.reply .refusal else if k.cls = 2 then s else poisonPayload s k.addr k.payload.length
    else postWrite (bump s (want + 1)) p k

/-! ### Shares at an edge resource (18 R384) -/

def Edge.reset : Edge := { wait := [], freeAt := 0, credit := [], turn := 0 }

/-- Flits of a packet: a header, and 128 bytes of payload each (18 R378). -/
def packetFlits (k : Packet) : Nat := 1 + (k.payload.length + 127) / 128

/-- The weight of a tag: of the partition that holds it. -/
def tagWeight (s : State) (tag : Nat) : Nat := match s.parts.find? (fun e => e.2.tag == tag) with | some e => e.2.weight | none => 1

/-- The tag that follows another in the round, of those that wait. -/
def nextTag (tags : List Nat) (t : Nat) : Nat :=
  let least := fun (l : List Nat) => l.foldl (fun (b : Option Nat) k => match b with | some c => some (min c k) | none => some k) none
  match least (tags.filter (fun k => decide (t < k))) with
  | some k => k
  | none => (least tags).getD 0

/-- Deficit round-robin: the tag whose turn it is sends while its credit covers its oldest packet; the next one is credited with its
weight. -/
def drrPick (weight : Nat → Nat) : Nat → Edge → Option (Nat × Edge)
  | 0, _ => none
  | n + 1, e =>
    match e.wait.find? (fun k => k.tag == e.turn) with
    | some k =>
      if packetFlits k ≤ e.credit.lookD 0 e.turn then some (e.turn, e)
      else
        let t := nextTag ((e.wait.map Packet.tag).dedup) e.turn
        drrPick weight n { e with turn := t, credit := e.credit.setAt t (e.credit.lookD 0 t + weight t) }
    | none =>
      let t := nextTag ((e.wait.map Packet.tag).dedup) e.turn
      drrPick weight n { e with turn := t, credit := (e.credit.remove e.turn).setAt t ((e.credit.remove e.turn).lookD 0 t + weight t) }

/-- The tag served next: tag 0 before every other. -/
def edgePick (s : State) (e : Edge) : Option (Nat × Edge) :=
  if e.wait.any (fun k => k.tag == 0) then some (0, e)
  else drrPick (tagWeight s) ((maxOf (e.wait.map packetFlits) + 1) * ((e.wait.map Packet.tag).dedup.length + 1)) e

/-- An edge resource that is free takes its next packet, whose flits occupy it one a cycle. -/
def edgeServe (s : State) (n : Nat) (e : Edge) : Option State :=
  if e.wait.isEmpty || decide (s.clock < e.freeAt) then none
  else match edgePick s e with
    | none => none
    | some (t, e1) =>
      match e1.wait.find? (fun k => k.tag == t) with
      | none => none
      | some k =>
        let rest := e1.wait.erase k
        let c := e1.credit.lookD 0 t - packetFlits k
        let credit := if t = 0 then e1.credit else if rest.any (fun q => q.tag == t) then e1.credit.setAt t c else e1.credit.remove t
        some (deliver { s with edges := s.edges.setAt n { e1 with wait := rest, freeAt := s.clock + packetFlits k, credit } } k)

/-- PACKET_DELIVERY: on the transit plane a packet waits at its edge resource for its tag's share; on the tile plane it is at its
destination. -/
def execPacketDelivery (k : Packet) (s : State) : Host.Outcome State Fault Refusal :=
  .next (if packetToEdge k then
      let e := s.edges.lookD Edge.reset k.dst
      { s with edges := s.edges.setAt k.dst { e with wait := e.wait ++ [k] } }
    else deliver s k)

/-- DROP_WINDOW_CLOSE: 1,024 cycles after the first drop (18 R383). -/
def execDropWindowClose (tile : Nat) (s : State) : Host.Outcome State Fault Refusal :=
  .next (match (s.tileAt tile).drop with
    | some w => if w.time + 1024 ≤ s.clock then postDrop s tile else s
    | none => s)

/-! ### Rekeying (18 R387) -/

/-- A GO write, from the VF or the PF; absorbed while one is pending. -/
def askRekey (s : State) (p : Nat) (pf : Bool) : State :=
  match s.parts.look p with
  | none => s
  | some P =>
    if P.rekeyBusy then s
    else
      let cause := if P.pend.any Cmd.isReshape then 2 else if pf then 1 else 0
      askDrain (s.updPart p (fun P => { P with rekeyBusy := true, rekeyCause := cause })) p .rekey

/-- REKEY_REQUEST. -/
def execRekeyRequest (part : Nat) (pf : Bool) (s : State) : Host.Outcome State Fault Refusal := .next (askRekey s part pf)

/-- A new traffic key in the world's slot: flows restart, EPOCH rises, the records are posted. -/
def rekeyNow (s : State) (p : Nat) : State :=
  match s.parts.look p with
  | none => s
  | some P =>
    let e := (P.epoch + 1) % 2 ^ 32
    let s1 := (resetFlows { s with nextKey := s.nextKey + 1 } P.tiles).updPart p (fun P =>
      { P with epoch := e, rekeyBusy := false, traffic := s.nextKey })
    postUsage (s1.postEvent p 6 (leBytes 4 e ++ leBytes 1 P.rekeyCause)) p 8 false

/-- REKEY_EXECUTE: once the drain is done. -/
def execRekeyExecute (part : Nat) (s : State) : Host.Outcome State Fault Refusal :=
  .next (if drainHead s part = some .rekey then endDrain (rekeyNow (settleDrain s part) part) part else s)

/-! ### Partition commands (18 R390 to R392) -/

/-- A tile that no partition holds, and that has neither failed nor been retired. -/
def freeTile (s : State) (t : Nat) : Bool :=
  decide (t < 960) && !(s.tileAt t).failed && !(s.tileAt t).retired && !s.parts.any (fun e => e.2.tiles.contains t)

/-- A bitmap of 128 bytes in host memory, as rising ids. -/
def bitmapAt (s : State) (a : Nat) : List Nat :=
  (List.range 128).flatMap (fun i => let b := (s.byteAt (hostLoc (a + i))).toNat; if b = 0 then [] else
    ((List.range 8).filter (fun j => bitN b j)).map (fun j => 8 * i + j))

/-- Bitmaps A and B of a command's argument. -/
def dmArgument (s : State) (area : Nat) : List Nat × List Nat := (bitmapAt s area, bitmapAt s (area + 128))

def badIds (ids : List Nat) : Bool := ids.any (fun t => decide (960 ≤ t))
def sortIds (ids : List Nat) : List Nat := ids.foldl setAdd []

/-- DMSTAT as a command completes. -/
def dmEnd (s : State) (status : Nat) : State := { s with dm := { s.dm with seq := (s.dm.seq + 1) % 2 ^ 32, busy := false, status } }
def dmDrop (s : State) : State := { s with dm := { s.dm with drop := true } }
def holdCmd (s : State) (i : Held) : State := { s with heldCmds := s.heldCmds ++ [i] }

/-- The lowest free tag; a tag is not free while packets that carry it are on their way (18 R381). -/
def freeTag (s : State) : Option Nat :=
  (List.range 128).find? (fun k => k != 0 && !s.parts.any (fun e => e.2.tag == k) && !s.edges.any (fun e => e.2.wait.any (fun q => q.tag == k)))

/-- A partition as create leaves it. -/
def Part.fresh (tag : Nat) (tiles : List Nat) (key now : Nat) : Part :=
  { tag, tiles, homes := homeMap tiles, weight := 16, rxdrop := 0, stndrop := 0, epoch := 0, rekeyBusy := false, rekeyCause := 0,
    tvec := 0, s1root := 0, s1ctl := 0, pcarve := (12, 48, 32), maxcls := 3, wdlog := 24, guar := 0, burst := 0, res := 0,
    s2root := 0, s2seq := 0, s2drop := false, s2busy := false, s2status := 0, fqbase := 0, fqen := false, fqsz := 0, fqci := 0, fqpi := 0,
    fqOpen := [], fatals := [], s1Open := [], denied := [], s1pi := 0, s1ci := 0, nqbase := 0, nqen := false, nqsz := 0, nqovf := false,
    nqci := 0, nqpi := 0, nqlost := 0, acthr := 256, act := [], move := none, mig := none, fwin := 0, fjob := 0, members := [], imports := [],
    exports := [], queues := [], appended := [], seq := 0, tasks := [], ctxs := [], ctxDrop := false, ctxBusy := false, ctxStatus := 0,
    fipa := 0, imgsz := 0, impseq := 0, stopped5 := false, migKey := none, migWait := none, bound := [], world := key, attKey := key + 1, traffic := key + 2, seen := [], fabEnded := [],
    dirtyOn := false, dirty := [], token := none, tokenQ := [], tdi := .unlocked, session := false, fwAck := none, meas5 := none, sgen := 0,
    ideKey := none, stopped := false, stopAt := 0, pend := [], lost := false, heldReqs := [], tcyc := 0, tcycAt := now, frmt := 0, fabtx := 0,
    fabrx := 0, lnch := 0, enqc := 0, useSeq := 0, usePrev := [], usagePf := Ring.reset, usageVf := Ring.reset, eventPf := Ring.reset,
    eventVf := Ring.reset, evSeq := 0, log := [], fabLaunches := 0, symbols := [] }

/-- Tiles as they join or leave a partition. -/
def bareTiles (s : State) (tiles : List Nat) (carve : Nat × Nat × Nat) : State :=
  tiles.foldl (fun s t =>
    (List.range 4).foldl (fun s k => s.updCore t k bareCore)
      (s.updTile t (fun x => { (bareTile x) with gated := [], waking := [], flows := [], carve, table := [], tree := none }))) s

/-- The checks of create, in their order (18 R391; 20 R425). -/
def createStatus (s : State) (p : Nat) (ids : List Nat) : Nat :=
  if badIds ids then 6
  else if (s.parts.look p).isSome || s.lcs != 2 || !s.identity then 5
  else if !ids.all (freeTile s) then 1
  else if !connectedTiles ids then 2
  else if (freeTag s).isNone then 4
  else if 256 < s.keySlots + 2 then 7
  else 0

/-- A partition created. -/
def createPart (s : State) (p : Nat) (ids : List Nat) : State :=
  let P := Part.fresh ((freeTag s).getD 0) ids s.nextKey s.clock
  let s1 := bareTiles { s with keySlots := s.keySlots + 2, nextKey := s.nextKey + 3, parts := s.parts.setAt p P } ids P.pcarve
  postUsage (writeTables s1 ids) p 2 false

/-- DMCMD OP 1: held during an activation, dropped while a command is in progress. -/
def askCreate (s : State) (p area : Nat) : State :=
  if 64 ≤ p then s
  else if s.fwHold then holdCmd s (.create p area)
  else if s.dm.busy then dmDrop s
  else
    let ids := (dmArgument s area).1
    match createStatus s p ids with
    | 0 => dmEnd (createPart s p ids) 0
    | st => dmEnd s st

/-- PARTITION_CREATE. -/
def execPartitionCreate (part : Nat) (area : BitVec 64) (s : State) : Host.Outcome State Fault Refusal :=
  .next (askCreate s part (areaOf12 area))

/-- A partition destroyed, its drain done: every SRAM byte and frame zero, the keys retired, those that commands behind the destroy hold among
them, tiles and tag free. -/
def destroyPart (s : State) (p : Nat) : State :=
  match s.parts.look p with
  | none => s
  | some P =>
    let s1 := postUsage (wipePart (removeWork (postDrops (dropMigKey s p) p) p) p) p 3 true
    let s2 := bareTiles s1 P.tiles (12, 48, 32)
    { s2 with parts := s2.parts.remove p, keySlots := s2.keySlots - 2 - P.bound.length - (P.pend.filter Cmd.isSave).length, frames := s2.frames.keep (fun _ f => f.part != p) }

/-- A DMCMD on an existing partition, which runs under a drain: `arg` are the ids that its argument names, and `bad` gives the status that ends
it at once. -/
def dmCommand (s : State) (p : Nat) (h : Held) (c : Cmd) (arg : List Nat) (bad : Part → Nat) : State :=
  if 64 ≤ p then s
  else if s.fwHold then holdCmd s h
  else if s.dm.busy then dmDrop s
  else if badIds arg then dmEnd s 6
  else match s.parts.look p with
    | none => dmEnd s 5
    | some P => if bad P != 0 then dmEnd s (bad P) else askDrain { s with dm := { s.dm with busy := true } } p c

/-- DMCMD OP 2. -/
def askDestroy (s : State) (p : Nat) : State := dmCommand s p (.destroy p) .destroy [] (fun _ => 0)
/-- PARTITION_DESTROY. -/
def execPartitionDestroy (part : Nat) (s : State) : Host.Outcome State Fault Refusal := .next (askDestroy s part)

/-- Does a launch hold anything on a tile? -/
def launchOn (L : Launch) (t : Nat) : Bool :=
  L.slots.any (fun q => q.1 == t) || L.tm.any (fun a => a.tile == t) || L.scr.any (fun a => a.tile == t) || L.tbars.any (fun q => q.1 == t)

/-- Does a tile hold a launch unit of some partition? -/
def tileUsed (s : State) (t : Nat) : Bool := s.launches.any (fun e => launchOn e.2 t)

/-- The home of a granule under a map of tiles. -/
def granHome (homes : FMap Nat) (g : Nat) : Option Nat :=
  if spaceOf (g * granBytes) = 1 then some (tmTile (g * granBytes)) else homes.look (g % 4096)

/-- Steps 3 to 5 of R392: granules whose home changes, and those that a leaving tile's own classes name, are flushed and reset;
tables, home map and tree follow from the new tiles; leaving tiles are zeroed. -/
def reshapeTo (s : State) (p : Nat) (new : List Nat) : State :=
  match s.parts.look p with
  | none => s
  | some P =>
    let ts := sortIds new
    let gone := P.tiles.filter (fun t => !ts.contains t)
    let came := ts.filter (fun t => !P.tiles.contains t)
    let homes := homeMap ts
    let mine := fun (g : Nat) => granuleOf (hbmRanges s P) P.tiles g
    let moved := s.classes.keys.filter (fun g => mine g &&
      (granHome P.homes g != granHome homes g || gone.contains ((granHome P.homes g).getD 960) ||
        (match s.classes.look g with | some c => (c.cls.tile?).any gone.contains | none => false)))
    let s1 := moved.foldl classReset s
    let s2 := bareTiles (wipeTiles (gone.foldl postDrop s1) gone) gone (12, 48, 32)
    let s3 := came.foldl (fun (s : State) t => s.updTile t (fun x => { x with flows := [], carve := P.pcarve })) s2
    let s4 := (writeTables s3 ts).updPart p (fun P => { P with
      tcyc := tcycNow s3 P, tcycAt := s3.clock, tiles := ts, homes, sgen := (P.sgen + 1) % 2 ^ 32, lost := false })
    postUsage s4 p 4 false

/-- The end of a reshape command: its checks again, since a tile may have failed meanwhile, then its effect. -/
def dmReshape (s : State) (p : Nat) (bad : State → Part → Nat) (k : State → Part → State) : State :=
  match s.parts.look p with
  | none => s
  | some P => if bad s P = 0 then dmEnd (k s P) 0 else dmEnd s (bad s P)

def growBad (ids : List Nat) (s : State) (P : Part) : Nat :=
  if badIds ids then 6 else if !ids.all (freeTile s) then 1 else if !connectedTiles (sortIds (P.tiles ++ ids)) then 2 else 0
/-- DMCMD OP 3. -/
def askGrow (s : State) (p area : Nat) : State :=
  let ids := (dmArgument s area).1
  dmCommand s p (.grow p area) (.grow ids) ids (growBad ids s)
/-- PARTITION_GROW. -/
def execPartitionGrow (part : Nat) (area : BitVec 64) (s : State) : Host.Outcome State Fault Refusal := .next (askGrow s part (areaOf12 area))
def growNow (s : State) (p : Nat) (ids : List Nat) : State :=
  dmReshape s p (growBad ids) (fun s P => reshapeTo (bareTiles s ids P.pcarve) p (P.tiles ++ ids))

def shrunk (ids : List Nat) (P : Part) : List Nat := P.tiles.filter (fun t => !ids.contains t)
def shrinkBad (ids : List Nat) (s : State) (P : Part) : Nat :=
  if badIds ids then 6 else if !ids.all P.tiles.contains then 1 else if !connectedTiles (shrunk ids P) then 2
  else if ids.any (tileUsed s) then 3 else 0
/-- DMCMD OP 4. -/
def askShrink (s : State) (p area : Nat) : State :=
  let ids := (dmArgument s area).1
  dmCommand s p (.shrink p area) (.shrink ids) ids (shrinkBad ids s)
/-- PARTITION_SHRINK. -/
def execPartitionShrink (part : Nat) (area : BitVec 64) (s : State) : Host.Outcome State Fault Refusal := .next (askShrink s part (areaOf12 area))
def shrinkNow (s : State) (p : Nat) (ids : List Nat) : State := dmReshape s p (shrinkBad ids) (fun s P => reshapeTo s p (shrunk ids P))

/-! ### Moving tiles (18 R392 step 2; 17 R376) -/

def Remap.key (r : Remap) (k : FaultKey) : FaultKey := { k with tile := r.tile k.tile }

/-- One tile's slice copied to another's. -/
def moveSlice (s : State) (a b : Nat) : State :=
  ((tmPieces a 0 (24 * 2 ^ 20)).zip (tmPieces b 0 (24 * 2 ^ 20))).foldl (fun s q => s.moveRange q.1.1 q.2.1 q.1.2) s

/-- One tile's SRAM, cores, buffers and units moved to a free tile. -/
def moveTile (r : Remap) (s : State) (a b : Nat) : State :=
  let s1 := (List.range 4).foldl (fun s k => s.moveRange (storeLoc a k 0) (storeLoc b k 0) (2 ^ 24)) (moveSlice s a b)
  let s2 := (List.range 4).foldl (fun s k =>
    let c := s.coreAt a k
    let d := s.coreAt b k
    let c1 := { c with l1 := [], tlb := [], slog := c.slog.map r.slg, maps := c.maps.mapV (fun _ m => r.map m), resets := d.resets, mxTime := d.mxTime }
    (s.setCore b k c1).updCore a k bareCore) s1
  let x := s2.tileAt a
  let y : Tile := { (s2.tileAt b) with
    cbufs := x.cbufs.mapV (fun _ c => r.cbuf c), faults := x.faults.map (fun f => { f with key := r.key f.key }), carve := x.carve,
    gated := x.gated, waking := x.waking, tlb := [], walks := [], rdc := [], l2 := [], stable := [], wq := [], sloe := [], waiters := [], flows := [] }
  s2.setTile b y

/-- The tiles of a partition moved, each to its replacement: everything that names a tile follows. -/
def moveTiles (s : State) (p : Nat) (pairs : List (Nat × Nat)) : State :=
  let r : Remap := { up := 0, part := p, tiles := pairs, now := 0, stop := 0 }
  let ls := partLaunches s p
  let s1 := pairs.foldl (fun s q => moveTile r s q.1 q.2) s
  let s2 := { s1 with
    groups := s1.groups.mapV (fun _ G => if ls.contains G.launch then r.group G else G),
    launches := s1.launches.mapV (fun l L => if ls.contains l then r.launch L else L),
    ops := s1.ops.mapV (fun _ o => if ls.contains o.launch then r.op o else o) }
  s2.updPart p (fun P => { P with
    fqOpen := P.fqOpen.map (fun q => (q.1, q.2.map r.key)), s1Open := P.s1Open.map (fun q => (q.1, q.2.map r.key)) })

/-- The tiles after a move. -/
def movedTiles (tiles : List Nat) (pairs : List (Nat × Nat)) : List Nat :=
  tiles.map (fun t => match pairs.find? (fun q => q.1 == t) with | some q => q.2 | none => t)

def compactBad (ia ib : List Nat) (s : State) (P : Part) : Nat :=
  if badIds ia || badIds ib then 6
  else if !ia.all P.tiles.contains || !ib.all (freeTile s) || ia.length != ib.length then 1
  else if !connectedTiles (sortIds (movedTiles P.tiles (ia.zip ib))) then 2 else 0
/-- DMCMD OP 5. -/
def askCompact (s : State) (p area : Nat) : State :=
  let (ia, ib) := dmArgument s area
  dmCommand s p (.compact p area) (.compact ia ib) (ia ++ ib) (compactBad ia ib s)
/-- PARTITION_COMPACT. -/
def execPartitionCompact (part : Nat) (area : BitVec 64) (s : State) : Host.Outcome State Fault Refusal :=
  .next (askCompact s part (areaOf12 area))
def compactNow (s : State) (p : Nat) (ia ib : List Nat) : State :=
  dmReshape s p (compactBad ia ib) (fun s P => reshapeTo (moveTiles s p (ia.zip ib)) p (movedTiles P.tiles (ia.zip ib)))

/-! ### Predicted failure and tile loss (17 R376, R377) -/

/-- The replacement of a tile: the lowest free tile next to the partition that keeps it connected. -/
def replacementFor (s : State) (P : Part) (t : Nat) : Option Nat :=
  (List.range 960).find? (fun r => freeTile s r && (portsIn P.tiles r).length != 0 &&
    connectedTiles (sortIds (r :: P.tiles.filter (· != t))))

def repOf : Option Nat → Nat
  | some r => r
  | none => 0xFFFF

/-- Corrections of an array of a tile within the last 2^34 cycles. -/
def recentCorr (s : State) (tile array : Nat) : Nat := (((s.tileAt tile).corr.lookD [] array).filter (fun c => s.clock < c + 2 ^ 34)).length

/-- Are the registers of R412 locked? -/
def regLocked (P : Part) : Bool := P.tdi == .locked || P.tdi == .run

/-- Does a tile lie within the bounding box of some tiles (20 R416)? -/
def inBox (ts : List Nat) (t : Nat) : Bool :=
  ts.any (· / 30 ≤ t / 30) && ts.any (t / 30 ≤ · / 30) && ts.any (· % 30 ≤ t % 30) && ts.any (t % 30 ≤ · % 30)

/-- The record of a tile that is lost or retired, with the time at which it failed or was predicted to: to its partition and the device, and,
since it is a hole of their shape reports, to the locked partitions around it (20 R412, R424). -/
def postTile (s : State) (p tile etype time : Nat) (body : List Byte) : State :=
  let others := (s.parts.filter (fun e => e.1 != p && regLocked e.2 && inBox e.2.tiles tile)).map Prod.fst
  atTime time (fun s => (others.foldl (fun (s : State) q => s.postEvent q etype body) (s.postEvent p etype body)).postDevice etype body) s

/-- What a predicted failure does once the drain is done. -/
def predictedNow (s : State) (p tile array time : Nat) : State :=
  match s.parts.look p with
  | none => s
  | some P =>
    let n := recentCorr s tile array
    let s0 := s.updTile tile (fun t => { t with corr := t.corr.remove array })
    if !P.tiles.contains tile then s0
    else
      let rep := replacementFor s0 P tile
      let s1 := match rep with
        | some r => (reshapeTo (moveTiles s0 p [(tile, r)]) p (movedTiles P.tiles [(tile, r)])).updTile tile (fun t => { t with retired := true })
        | none => s0
      let body := leBytes 2 tile ++ leBytes 2 (repOf rep) ++ leBytes 1 array ++ leBytes 3 0 ++ leBytes 4 n ++ leBytes 4 0
      postTile s1 p tile 8 time body

/-- TILE_PREDICTED_FAILURE: an array exceeds 64 corrections within 2^34 cycles. A tile of no partition is retired. -/
def execTilePredictedFailure (tile array : Nat) (s : State) : Host.Outcome State Fault Refusal :=
  let p := partOfTile s tile
  if recentCorr s tile array ≤ 64 || (s.tileAt tile).failed || (s.tileAt tile).retired then .next s
  else match s.parts.look p with
    | none =>
      let body := leBytes 2 tile ++ leBytes 2 0xFFFF ++ leBytes 1 array ++ leBytes 3 0 ++ leBytes 4 (recentCorr s tile array) ++ leBytes 4 0
      .next (postTile (s.updTile tile (fun t => { t with retired := true })) p tile 8 s.clock body)
    | some P => .next (if P.pend.any (fun c => match c with | .predicted t a _ => t == tile && a == array | _ => false) then s
        else askDrain s p (.predicted tile array s.clock))

/-- A line poisoned, a MAPS entry's hold on it gone. -/
def loseLine (s : State) (line : Nat) : State := ({ s with dir := s.dir.remove line }).setPoison line

/-- Lines that a tile's L1s and RDC hold dirty. -/
def dirtyLines (s : State) (t : Nat) : List Nat :=
  ((s.tileAt t).rdc.filter (fun e => e.2)).map Prod.fst ++ (List.range 4).flatMap (fun k => ((s.coreAt t k).l1.filter (fun e => e.2)).map Prod.fst)

/-- Lines lost with a tile: of the granules homed on it, and those that it held dirty, in a cache or in a MAPS entry. -/
def loseLines (s : State) (P : Part) (t : Nat) : State :=
  let homed := (hbmRanges s P).flatMap (fun r =>
    ((List.range (r.2 / granBytes)).map (fun i => r.1 / granBytes + i)).filter (fun g => P.homes.look (g % 4096) == some t))
  let lines := dirtyLines s t ++ (s.dir.filter (fun e => match e.2.st with | .m t' _ _ => t' == t | _ => false)).map Prod.fst
  let s1 := lines.foldl loseLine s
  homed.foldl (fun s g => (List.range 1024).foldl (fun s i => loseLine s (1024 * g + i)) s) s1

/-- The tile's contents and everything resident on it are gone; launches with a unit there end as at S. -/
def loseTile (s : State) (p t : Nat) : State :=
  match s.parts.look p with
  | none => s
  | some P =>
    let ls := (s.launches.keep (fun _ L => launchOn L t)).keys
    let s1 := ls.foldl (fun s l => haltLaunch s l 0xFF 0xFFFF) (loseLines s P t)
    let s2 := { s1 with
      groups := s1.groups.keep (fun _ G => G.tile != t), ops := s1.ops.keep (fun _ o => o.tile != t),
      launches := s1.launches.mapV (fun _ L => { L with times := match L.times.look t with
        | some q => L.times.setAt t (q.1, s.clock) | none => L.times }) }
    bareTiles (wipeTiles s2 [t]) [t] P.pcarve

/-- What a tile's loss does once the drain is done: it is replaced or removed, or the partition stays drained. A command before it may have
taken the tile out already. -/
def lossNow (s0 : State) (p t time : Nat) : State :=
  let s := postDrop s0 t
  match s.parts.look p with
  | none => s
  | some P =>
    if !P.tiles.contains t then postTile s p t 9 time (leBytes 2 t ++ leBytes 2 0xFFFF)
    else
      let rest := P.tiles.filter (· != t)
      let rep := replacementFor s P t
      let tm := (s.tileAt t).carve.2.1 * 2 ^ 18
      let s1 := match rep with
        | some r => (tmPieces r 0 tm).foldl (fun (s : State) (q : Nat × Nat) =>
            (List.range (q.2 / lineBytes)).foldl (fun (s : State) i => s.setPoison (lineOf q.1 + i)) s) (reshapeTo s p (r :: rest))
        | none => if connectedTiles rest then reshapeTo s p rest else s.updPart p (fun P => { P with
            tcyc := tcycNow s P, tcycAt := s.clock, tiles := rest, lost := true })
      postTile s1 p t 9 time (leBytes 2 t ++ leBytes 2 (repOf rep))

/-- TILE_FAILURE. -/
def execTileFailure (tile : Nat) (s : State) : Host.Outcome State Fault Refusal :=
  let p := partOfTile s tile
  if 960 ≤ tile || (s.tileAt tile).failed then .next s
  else
    let s1 := s.updTile tile (fun t => { t with failed := true })
    if (s.parts.look p).isNone then .next (postTile s1 p tile 9 s.clock (leBytes 2 tile ++ leBytes 2 0xFFFF))
    else .next (askDrain (loseTile s1 p tile) p (.tileLost tile s.clock))

end Sys2Proof.Machine
end

