-- ==== Sys2Proof/Machine/Ports.lean ====
section
/-!
DEFINITION. Optical ports, the route table, laser failures, requests from other wafers and fabric barriers (spec 19 R393 to R407;
26 R449, R450).
-/

namespace Sys2Proof.Machine

/-! ### Ports and routes (19 R395 to R397) -/

def State.portAt (s : State) (k : Nat) : Port := s.ports.lookD Port.reset k
def State.setPort (s : State) (k : Nat) (x : Port) : State := { s with ports := s.ports.setAt k x }
def Port.up (x : Port) : Bool := x.st == 2 || x.st == 3
/-- Wavelengths of a laser module. -/
def laserMask (m : Nat) : BitVec 16 := BitVec.ofNat 16 (15 * 16 ^ (m % 4))
/-- The good wavelengths of a port in ascending order. -/
def goodWaves (g : BitVec 16) : List Nat := (List.range 16).filter g.getLsbD
def countGood (g : BitVec 16) : Nat := (goodWaves g).length

/-- The stream beats of the k-th flit after a restripe boundary, and the wavelength and slot that a beat travels in (19 R394). -/
def flitBeats (k : Nat) : List Nat := (List.range 16).map (fun i => 16 * k + i)
def beatPlace (g : BitVec 16) (b : Nat) : Nat × Nat := ((goodWaves g).getD (b % countGood g) 0, b / countGood g)

/-- The lowest usable port to a wafer. -/
def directPort (s : State) (w : Nat) : Option Nat := (List.range 16).find? (fun k => (s.portAt k).up && (s.portAt k).peerw == w)

/-- The route entry of a wafer: direct, or through the lowest intermediate wafer. -/
def routeOf (s : State) (w : Nat) : Option DWord :=
  if w = s.waferid then none
  else match directPort s w with
    | some k => some (BitVec.ofNat 64 (3 * 2 ^ 14 + k * 2 ^ 10))
    | none =>
      match (List.range 64).find? (fun v => v != w && v != s.waferid && (directPort s v).isSome && Config.peerReaches v w s.fresh) with
      | some v => some (BitVec.ofNat 64 (2 ^ 15 + (directPort s v).getD 0 * 2 ^ 10 + v))
      | none => none

/-- The route table rewritten, since a port has changed state. -/
def rewriteRoutes (s : State) : State :=
  let s1 := { s with routes := (List.range 64).filterMap (fun w => (routeOf s w).map (fun e => (w, e))) }
  failFabricWaits s1.tick

/-- An access to the fabric whose port has left its link: it takes the next route to its wafer, or it is lost, which the lane's next release
or the operation reports (19 R404). -/
def reroute (s : State) (o : Owed) : State :=
  let pa := 2 ^ 46 + o.wafer * 2 ^ 39
  if (routePort s o.wafer).isSome then owe (sendFlits s pa o.n) pa o.n o.va o.launch o.who
  else match o.who with
    | .lane g i => s.updGroup g (fun G => { G with fabLost := G.fabLost ++ [(i, o.va)] })
    | .op g cls pos =>
      match s.ops.find? (fun e => e.2.g == g && e.2.cls == cls && e.2.pos == pos) with
      | some e => if e.2.fin then opMark s e.1 0x11 o.va false else opError s e.1 0x11 o.va false
      | none => s

/-- A port's state changes; the accesses that a port which leaves its link still held go another way. -/
def changePort (s : State) (k : Nat) (f : Port → Port) : State :=
  let x := f (s.portAt k)
  let lost := if x.up then [] else (s.portAt k).owed
  lost.foldl reroute (rewriteRoutes (s.setPort k x))

/-- A port leaves the link: the flits that it holds are lost. -/
def Port.leave (x : Port) (st now : Nat) : Port :=
  { x with st, ver := 0, good := if st = 0 then 0 else x.good, replayBuf := [], owed := [], loss := [], badRun := 0, badNums := [], unsent := 0, feedAt := 0, trainAt := now }

/-- A link event record (19 R405). -/
def linkRecord (s : State) (kind k laser width : Nat) (lmask : BitVec 16) (replay lost : Nat) : State :=
  s.postDevice 2 (leBytes 1 kind ++ leBytes 1 k ++ leBytes 1 laser ++ leBytes 1 width ++ leBytes 2 lmask.toNat ++ leBytes 2 0 ++
    leBytes 4 replay ++ leBytes 4 lost)

/-- PORT_ENABLE: EN := 1. -/
def portOn (port : Nat) (s : State) : State :=
  (if port < 16 ∧ !(s.portAt port).en then changePort s port (fun x => { (x.leave 1 s.clock) with en := true }) else s)
def execPortEnable (port : Nat) (s : State) : Host.Outcome State Fault Refusal := .next (portOn port s)

/-- PORT_DISABLE: EN := 0. -/
def portOff (port : Nat) (s : State) : State :=
  (if port < 16 ∧ (s.portAt port).en then changePort s port (fun x => { (x.leave 0 s.clock) with en := false }) else s)
def execPortDisable (port : Nat) (s : State) : Host.Outcome State Fault Refusal := .next (portOff port s)

/-- PORT_RETRAIN: RETRAIN := 1 while EN = 1. -/
def portRetrain (port : Nat) (s : State) : State :=
  (if port < 16 ∧ (s.portAt port).en then changePort s port (fun x => x.leave 1 s.clock) else s)
def execPortRetrain (port : Nat) (s : State) : Host.Outcome State Fault Refusal := .next (portRetrain port s)

/-- The wavelengths that training keeps: whole groups of a laser module. -/
def keptGood (g : BitVec 16) : BitVec 16 :=
  (List.range 4).foldl (fun (m : BitVec 16) i => if g &&& laserMask i = laserMask i then m ||| laserMask i else m) 0

/-- Why training fails, 0 when it succeeds: light, wafer id, version. -/
def trainReason (s : State) (r : TrainResult) : Nat :=
  if countGood (keptGood r.good) < 4 then 1
  else if r.peerWafer = s.waferid then 3
  else if min 1 r.peerHi < max 1 r.peerLo then 2
  else 0

/-- TRAINING_DONE. -/
def execTrainingDone (port : Nat) (r : TrainResult) (s : State) : Host.Outcome State Fault Refusal :=
  let x := s.portAt port
  if 16 ≤ port ∨ x.st ≠ 1 ∨ x.trainAt + 2 ^ 24 < s.clock then .next s
  else
    let why := trainReason s r
    let good := keptGood r.good
    if why != 0 then
      .next (linkRecord (changePort s port (fun x => { (x.leave 4 s.clock) with good := 0, reason := why })) 5 port 0xFF 0 0 0 0)
    else
      .next (linkRecord (changePort s port (fun x => { x with
        st := if good = 0xFFFF then 2 else 3, good, ver := 1, peerw := r.peerWafer % 64, peerp := r.peerPort % 16, nextTx := 0, nextRx := 0,
        lit := (List.range 4).foldl (fun (m : BitVec 4) i => if good &&& laserMask i = laserMask i then m ||| BitVec.twoPow 4 i else m) x.lit }))
        4 port 0xFF (countGood good) 0 0 0)

/-- TRAINING_TIMEOUT: training exceeds 2^24 cycles. -/
def execTrainingTimeout (port : Nat) (s : State) : Host.Outcome State Fault Refusal :=
  let x := s.portAt port
  .next (if port < 16 ∧ x.st = 1 ∧ x.trainAt + 2 ^ 24 ≤ s.clock then
    linkRecord (changePort s port (fun x => { (x.leave 4 s.clock) with good := 0, reason := 4 })) 5 port 0xFF 0 0 0 0
  else s)

/-- WAFERID_WRITE: while every port is DISABLED. -/
def waferidNow (v : BitVec 64) (s : State) : State :=
  (if s.ports.all (fun e => e.2.st == 0) then { s with waferid := v.toNat % 64 } else s)
def execWaferidWrite (v : BitVec 64) (s : State) : Host.Outcome State Fault Refusal := .next (waferidNow v s)

/-! ### Flits (19 R404; 26 R448, R449) -/

/-- Can a flit be forwarded to a wafer: a packet takes one intermediate at most, so the route on is direct (19 R398)? -/
def onwardRoom (s : State) (w : Nat) : Bool := bitsN (s.routes.lookD 0 w).toNat 15 14 == 3 && flitRoom s (2 ^ 46 + w * 2 ^ 39) 1

/-- A forwarded flit on its egress port. -/
def sendOnward (s : State) : Option Nat → State
  | some w => sendFlits s (2 ^ 46 + w * 2 ^ 39) 1
  | none => s

/-- FLIT_RECEIVE: an exact flit that fails its CRC or is out of order makes the port request a replay from the first missing number; a
lossy one that fails is dropped. One of a forwarded packet goes on at once, and reaches no tile here (R398); while its egress has no room, it
is taken to be missing (DESIGN CHOICE, log 80). -/
def execFlitReceive (at_ : Ingress) (seq : Nat) (exact crcOk : Bool) (s : State) : Host.Outcome State Fault Refusal :=
  let port := at_.port
  let x := s.portAt port
  if 16 ≤ port ∨ !x.up then .next s
  else if exact then
    .next (if crcOk && seq == x.nextRx && at_.onward.all (onwardRoom s) then
        sendOnward (s.setPort port { x with badRun := 0, badNums := [], nextRx := (x.nextRx + 1) % 2 ^ 32 }) at_.onward
      else (if crcOk then s.setPort port { x with badRun := 0, badNums := [] } else s).reply (.replay port x.nextRx))
  else
    .next (s.setPort port (if crcOk then { x with badRun := 0, badNums := [] }
      else { x with lossydrop := (x.lossydrop + 1) % 2 ^ 32, badRun := x.badRun + 1, loss := x.loss.map (fun l => { l with lost := l.lost + 1 }) }))

/-- Numbers sent again: each counts once in every open interval of a failure, and each time outside such intervals. -/
def Port.resend (x : Port) (nums : List Nat) : Port :=
  let fresh := fun (l : LightLoss) => nums.filter (fun n => !l.nums.contains n)
  let n := if x.loss.isEmpty then nums.length else maxOf (x.loss.map (fun l => (fresh l).length))
  { x with replays := (x.replays + n) % 2 ^ 32, badNums := x.badNums ++ nums, loss := x.loss.map (fun l => { l with nums := l.nums ++ fresh l }) }

/-- Flits of the replay buffer that have been sent before. -/
def Port.sent (x : Port) (now : Nat) : List Nat := x.replayBuf.take (x.replayBuf.length - x.waiting now)

/-- REPLAY_REQUEST: unacknowledged exact flits are sent again from a number on; none between a detected loss of light and the
restripe. -/
def execReplayRequest (port seq : Nat) (s : State) : Host.Outcome State Fault Refusal :=
  let x := s.portAt port
  if 16 ≤ port ∨ !x.up ∨ x.loss.any (fun l => l.seen && l.ends.isNone) then .next s
  else .next (s.setPort port (x.resend ((x.sent s.clock).dropWhile (fun n => n != seq))))

/-- LINK_ACKNOWLEDGEMENT: flits up to one that has been sent leave the replay buffer, and the accesses that they complete owe nothing more: the home's
acknowledgement is taken to come with the link's (DEDUCED, log 78). -/
def execLinkAcknowledgement (port seq : Nat) (s : State) : Host.Outcome State Fault Refusal :=
  let x := s.portAt port
  if 16 ≤ port ∨ !x.up ∨ !(x.sent s.clock).contains seq then .next s
  else
    let left := (x.replayBuf.dropWhile (fun n => n != seq)).drop 1
    .next (s.setPort port { x with replayBuf := left, owed := x.owed.filter (fun o => left.contains o.seq) })

/-! ### Loss of light (19 R405; 26 R449 to R451) -/

/-- LASER_LOSS: a laser module of this wafer stops emitting. -/
def execLaserLoss (port laser : Nat) (s : State) : Host.Outcome State Fault Refusal :=
  let x := s.portAt port
  if 16 ≤ port ∨ 4 ≤ laser ∨ !x.lit.getLsbD laser then .next s
  else
    let x1 := { x with lit := x.lit &&& ~~~(BitVec.twoPow 4 laser) }
    let l : LightLoss := { laser, own := true, time := s.clock, lost := 0, nums := [], seen := false, ends := none }
    .next (s.setPort port (if x.up ∧ x.good &&& laserMask laser = laserMask laser then { x1 with loss := x1.loss ++ [l] } else x1))

/-- One wavelength that fails leaves the good set, and what has been sent goes over the rest (19 R394, R395): no rule asks for a record
(DESIGN CHOICE, log 80). Below 4 the port goes DOWN. -/
def loseWavelength (s : State) (port w : Nat) : State :=
  let x := s.portAt port
  let good := x.good &&& ~~~(BitVec.twoPow 16 w)
  if !x.good.getLsbD w then s
  else if countGood good < 4 then
    linkRecord (changePort s port (fun x => { (x.leave 4 s.clock) with good, reason := 1 })) 3 port 0xFF (countGood good) (BitVec.twoPow 16 w) 0 0
  else changePort s port (fun x => { (x.resend (x.sent s.clock)) with st := 3, good, reason := 1 })

/-- What detection of a loss of light changes at a port. A peer's failure is taken to have begun with the first flit after the last intact one:
what has been sent again since then counts once (26 R449). -/
def Port.darken (x : Port) (laser now : Nat) (own : Bool) : Port :=
  let unsent := x.waiting now
  if own then { x with reason := 1, unsent, loss := x.loss.map (fun l => if l.laser = laser then { l with seen := true, time := now } else l) }
  else
    let nums := x.badNums.dedup
    { x with
      reason := 1, unsent, replays := (x.replays + 2 ^ 32 - (if x.loss.isEmpty then x.badNums.length - nums.length else 0)) % 2 ^ 32
      loss := x.loss ++ [{ laser, own := false, time := now, lost := x.badRun, nums, seen := true, ends := none }] }

/-- LOSS_OF_LIGHT_DETECT: MODULE is 0xFF when the peer's laser failed; 4 + w names one wavelength w of a port in place of a module. -/
def execLossOfLightDetect (port laser : Nat) (own : Bool) (s : State) : Host.Outcome State Fault Refusal :=
  let x := s.portAt port
  if 16 ≤ port ∨ !x.up then .next s
  else if 4 ≤ laser then .next (if laser < 20 then loseWavelength s port (laser - 4) else s)
  else if x.good &&& laserMask laser ≠ laserMask laser ∨ x.loss.any (fun l => l.laser == laser && l.seen) ∨
      (own ∧ !x.loss.any (fun l => l.laser == laser && l.own)) then .next s
  else
    .next (linkRecord (s.setPort port (x.darken laser s.clock own)) 1 port (if own then laser else 0xFF)
      (countGood (x.good &&& ~~~(laserMask laser))) (laserMask laser) 0 0)

/-- Cycles that n flits take over k good wavelengths: 25 k flits in 28 cycles (19 R394; 26 R449's table). -/
def replayCycles (n k : Nat) : Nat := (28 * n + 25 * k - 1) / (25 * k)

/-- The module's wavelengths leave, and what has been sent and is not acknowledged is replayed over the rest (19 R405 steps 2, 3). -/
def Port.restripe (x : Port) (laser now : Nat) (own : Bool) : Port :=
  let y := x.resend (x.sent now)
  let good := x.good &&& ~~~(laserMask laser)
  { y with
    st := 3, good
    loss := y.loss.map (fun l => if l.laser = laser ∧ l.own = own then { l with ends := some (now + replayCycles (x.sent now).length (countGood good)) } else l) }

/-- RESTRIPE: the stripe changes; below 4 wavelengths the port goes DOWN. Of a failure whose restripe is made, the end of its replay, with the
record (19 R405 step 4; 26 R450). -/
def execRestripe (port laser : Nat) (own : Bool) (s : State) : Host.Outcome State Fault Refusal :=
  let x := s.portAt port
  match x.loss.find? (fun l => l.laser == laser && l.own == own && l.seen) with
  | none => .next s
  | some l =>
    let name := if own then laser else 0xFF
    if 16 ≤ port ∨ !x.up then .next s
    else match l.ends with
      | some t =>
        if s.clock < t then .next s
        else .next (linkRecord (s.setPort port { x with loss := x.loss.filter (fun l => !(l.laser == laser && l.own == own)) }) 2 port name
          (countGood x.good) (laserMask laser) l.nums.length l.lost)
      | none =>
        let good := x.good &&& ~~~(laserMask laser)
        if countGood good < 4 then
          .next (linkRecord (changePort s port (fun x => { (x.leave 4 s.clock) with good, reason := 1 })) 3 port name (countGood good) (laserMask laser) 0 0)
        else .next (changePort s port (fun x => x.restripe laser s.clock own))

/-! ### Requests from other wafers (19 R400, R401) -/

def Part.export (P : Part) (h : Nat) (second : Bool) : Nat := (P.exports.lookD 0 (2 * h + second.toNat)).toNat

/-- Does another partition of this wafer hold a handle? -/
def handleTaken (s : State) (p h : Nat) : Bool := s.parts.any (fun e => e.1 != p && bitN (e.2.export h false) 0)

/-- A write of a locked PF register in CONFIG_LOCKED or RUN: it moves the TDI to ERROR (20 R411, R412). -/
def lockViolation (s : State) (p : Nat) : State :=
  match s.parts.look p with
  | some P => if P.tdi = .locked ∨ P.tdi = .run then startFlr s p .error else s
  | none => s

/-- An export-table word written. -/
def writeExport (s : State) (p h : Nat) (second : Bool) (v : DWord) : State :=
  match s.parts.look p with
  | none => s
  | some P =>
    if 64 ≤ h then s
    else if regLocked P then lockViolation s p
    else
      let live := bitN (P.export h false) 0
      let clears := !second && !v.getLsbD 0
      let sets := !second && v.getLsbD 0
      if (live && !clears) || (sets && handleTaken s p h) then s
      else
        let keep : Nat := if second then 0x7F3F0003FFFF else 0xFFFFFFFF0007
        s.updPart p (fun P => { P with exports := P.exports.putD 0 (2 * h + second.toNat) (v &&& BitVec.ofNat 64 keep) })

/-- EXPORT_HANDLE_WRITE. -/
def execExportHandleWrite (part h : Nat) (second : Bool) (v : BitVec 64) (s : State) : Host.Outcome State Fault Refusal :=
  .next (writeExport s part h second v)

def fabSize : FabricOp → Nat
  | .read n => n
  | .write bs => bs.length
  | .atomic _ ty _ _ | .reduction _ ty _ | .waita ty _ => tyW ty / 8
  | .nmo kind _ _ => nmoAlign kind
def fabNeed : FabricOp → Need
  | .read _ | .waita _ _ => .rd
  | .write _ => .wr
  | .atomic _ _ _ _ | .reduction _ _ _ => .rmw
  | .nmo kind _ _ => if kind = 5 then .rd else .rmw

/-- Is a request accepted under R400? -/
def exportOk (P : Part) (wafer srcPart h off : Nat) (op : FabricOp) : Bool :=
  let a := P.export h false
  let b := P.export h true
  bitN a 0 && bitsN b 37 32 == srcPart && (bitN b 38 || bitsN b 29 24 == wafer) && decide (off + fabSize op ≤ bitsN b 17 0 * granBytes) &&
  (!(fabNeed op).r || bitN a 1) && (!(fabNeed op).w || bitN a 2)

/-- The home acknowledges a write or a reduction: a one-flit response on the reverse direction (19 R402; 26 R448). -/
def fabricAck (s : State) (wafer : Nat) : State := (sendFlits s (2 ^ 46 + wafer * 2 ^ 39) 1).reply .ack

/-- A near-memory packet of another wafer at this home: it counts, it runs at the home, and its page is OWNED no more (19 R403); none where it
must wait. -/
def fabricNmo (s : State) (p pa : Nat) (me : HeldReq) (kind d : Nat) (ws : List DWord) : State × Option (List (Nat × Nat)) :=
  let home := (homeTile s p pa).getD 0
  let o : Nmo := { p, me := .req me, tile := home, home := true, priv := false, d, w := ws.map BitVec.toNat }
  let r := nmoRun (s.updTile home (fun t => { t with sloe := match t.sloe.look (granOf pa) with
    | some e => t.sloe.setAt (granOf pa) { e with owned := none }
    | none => t.sloe })) o kind (o.word 8) pa false
  if NmoRes.waits r then (r.1, none) else (sloeCount r.1 home (granOf pa) 1024, some r.2)

/-- The accepted operation at a physical address of the target: what the source is sent; false where it must wait. A poisoned read or atomic
is answered as such, and marks its destination there (07 R180). -/
def fabricPerform (s0 : State) (p pa wafer : Nat) (me : HeldReq) (op : FabricOp) : State × Bool :=
  let rx := fun (s : State) (n : Nat) => s.updPart p (fun P => { P with fabrx := P.fabrx + n })
  let tx := fun (s : State) (n : Nat) => s.updPart p (fun P => { P with fabtx := P.fabtx + n })
  match op with
  | .read n =>
    let r := readPaBytes s0 pa n
    ((tx r.1 n).reply (if r.2.2 then .poisoned r.2.1 else .bytes r.2.1), true)
  | .write bs => (fabricAck (rx (writePaBytes s0 none p pa bs) bs.length) wafer, true)
  | .atomic o ty b c =>
    let n := tyW ty / 8
    let f := atomFun o ty b.toNat c.toNat
    let r := atomicPa s0 none p pa ty f
    let v := fun x => valOf ty.signed (tyW ty) x
    let s1 := if o = 9 ∧ !r.2.2 ∧ v r.2.1 < v c.toNat ∧ v c.toNat ≤ v (f r.2.1) then wakeAt r.1 p 1023 (.pa pa false) else r.1
    ((tx (rx s1 n) n).reply (if r.2.2 then .poisoned (leBytes n r.2.1) else .value r.2.1), true)
  | .reduction o ty v =>
    let s1 := if mapped s0 pa then (atomicPa s0 none p pa ty (fun old => atomOp o ty old v.toNat)).1
      else match homeTile s0 p pa with | some h => mergeRed s0 h pa o ty v.toNat | none => s0
    (fabricAck (rx s1 (tyW ty / 8)) wafer, true)
  | .nmo kind d ws =>
    (match fabricNmo s0 p pa me kind d ws with
      | (s1, none) => (s1, false)
      | (s1, some r) => ((tx (rx s1 64) 64).reply (.bytes ((List.range 8).flatMap (fun i => leBytes 8 (((r.find? (fun q => q.1 == i)).map Prod.snd).getD ((ws.getD i 0).toNat))))), true))
  | .waita ty c =>
    let n := tyW ty / 8
    let r := readPa s0 pa n
    let home := (waiterAt r.1 p 1023 (.pa pa false)).1
    if valOf ty.signed (tyW ty) c.toNat ≤ valOf ty.signed (tyW ty) r.2 then (r.1.reply (.value 1), true)
    else if 256 ≤ (r.1.tileAt home).waiters.length then (r.1.reply (.value 0), true)
    else (r.1.updTile home (fun t => { t with waiters := t.waiters ++ [{ pa, g := 2 ^ 40 + wafer }] }), true)

/-- A held request has ended. -/
def endReq (s : State) (p : Nat) (i : HeldReq) : State := s.updPart p (fun P => { P with heldReqs := P.heldReqs.erase i })

/-- A request that R400 has accepted, at its base as it stood then: a stage-2 fault holds it and is posted; a denial refuses it; the drain of
a reshape holds it, and so does what holds an access at its home (09 R223; 14 R314, R317, R326). -/
def fabricTry (s : State) (part wafer srcPart handle off : Nat) (op : FabricOp) (base : Nat) : State :=
  let i : HeldReq := .fabric wafer srcPart handle off op base
  match s.parts.look part with
  | none => s.reply .refusal
  | some P =>
    let refuse := fun (s : State) => (endReq s part i).reply .refusal
    let ipa := base + off
    let go := fun (s : State) (pa : Nat) (mg : Bool) =>
      if (paCheck s part (fabNeed op) pa).isSome then refuse s
      else match claimRange s (.req i) 1024 pa (fabSize op) (fabNeed op).w (fabNeed op == .rmw) with
        | (s1, true) =>
          (match fabricPerform s1 part pa wafer i op with
            | (s2, true) => countPiece (endReq s2 part i) part { ipa, pa, n := fabSize op, mg }
            | (s2, false) => holdReq s2 part i)
        | (s1, false) => holdReq s1 part i
    if P.pend.any Cmd.isReshape then holdReq s part i
    else
      let stop := fun (s : State) (reason : Nat) =>
        let f : WFault := { stage := 2, table := false, reason, addr := ipa }
        let k := faultKey dispTile part f
        if usesDenied s part k then refuse (useDenied s part k)
        else holdReq (raiseFault s dispTile part 3 255 (fabNeed op).kind ipa f) part i
      match stage2 s P ipa with
      | (s1, .busy r w x _) => if s2Denies (fabNeed op) r w x then stop s1 2 else holdReq s1 part i
      | (s1, .fault r) => stop s1 r
      | (s1, .fabric pa r w _) => if s2Denies (fabNeed op) r w false then stop s1 2 else go s1 pa false
      | (s1, .page b _ a r w _ mg) => if s2Denies (fabNeed op) r w false then stop s1 2 else go s1 (a + (ipa - b)) mg

/-- A request from another wafer: a refusal goes back under R400. -/
def fabricRequest (s : State) (part wafer srcPart handle off : Nat) (op : FabricOp) : State :=
  match s.parts.look part with
  | none => s.reply .refusal
  | some P =>
    if exportOk P wafer srcPart handle off op then fabricTry s part wafer srcPart handle off op (bitsN (P.export handle false) 47 16 * 65536)
    else s.reply .refusal

/-- FABRIC_REQUEST. -/
def execFabricRequest (part wafer srcPart handle : Nat) (off : BitVec 33) (op : FabricOp) (s : State) : Host.Outcome State Fault Refusal :=
  .next (fabricRequest s part wafer srcPart handle off.toNat op)

/-! ### Fabric barriers (19 R406, R407) -/

/-- A member's symbol reaches rank 0, or rank 0's release reaches a member: of the partition's own job, and held while the partition is
stopped or its context is off its tiles (17 R367). -/
def fabricSymbol (s : State) (part : Nat) (y : BarSym) (rank : Nat) (release : Bool) : State :=
  let i : HeldReq := .symbol y rank release
  match s.parts.look part with
  | none => s
  | some P =>
    if P.stopped || (P.ctxs.any (fun c => c.2.saved) && (fabricLaunch s part y.launch).isNone && (endedSymbol P y.launch y.id).isNone) then holdReq s part i
    else
      let s0 := endReq s part i
      if !fjobEn P || y.job != fjobId P then s0
      else if release then
        if fjobRank P != 0 && hasSymbol P y.launch y.id (fjobRank P) then releasePhase s0 part y.launch y.id else s0
      else if fjobRank P != 0 || hasSymbol P y.launch y.id rank then s0
      else fabricAdvance (s0.updPart part (fun P => { P with symbols := (y, rank) :: P.symbols })) part y.launch y.id

/-- FABRIC_BARRIER_SYMBOL. -/
def execFabricBarrierSymbol (part : Nat) (id : BarSym) (rank : Nat) (release : Bool) (s : State) : Host.Outcome State Fault Refusal :=
  .next (fabricSymbol s part id rank release)

end Sys2Proof.Machine
end

