-- ==== Sys2Proof/Machine/Trust.lean ====
section
/-!
DEFINITION. Interface states, sessions and measurements, keys, firmware and the life cycle, and the end of every drain (spec 17
R366; 20 R411 to R421, R425, R426).
-/

namespace Sys2Proof.Machine

/-! ### What a partition reports (20 R414 to R416) -/

/-- PCARVE and PSCHED as registers (14 R305; 16 R358). -/
def pcarveWord (P : Part) : Nat := P.pcarve.1 * 2 ^ 16 + P.pcarve.2.1 * 2 ^ 8 + P.pcarve.2.2
def pschedWord (P : Part) : Nat := P.maxcls * 2 ^ 8 + P.wdlog

/-- Measurement 5: the locked registers as little-endian words. -/
def lockedRegs (P : Part) : List Byte :=
  leBytes 8 (pcarveWord P) ++ leBytes 8 (pschedWord P) ++ leBytes 8 P.guar ++ leBytes 8 P.burst ++ leBytes 8 P.tvec ++ leBytes 8 P.fwin.toNat ++
  (List.range 64).flatMap (fun i => leBytes 8 (P.imports.lookD 0 i).toNat) ++
  (List.range 128).flatMap (fun i => leBytes 8 (P.exports.lookD 0 i).toNat)

/-- Maximal horizontal runs of tiles: (y, first x, last x), in rising y and x. -/
def tileRuns : List Nat → List (Nat × Nat × Nat)
  | [] => []
  | t :: ts =>
    match tileRuns ts with
    | (y, a, b) :: rs => if y = t / 30 ∧ a = t % 30 + 1 then (y, t % 30, b) :: rs else (t / 30, t % 30, t % 30) :: (y, a, b) :: rs
    | [] => [(t / 30, t % 30, t % 30)]

/-- Failed and retired tiles within the bounding box of some tiles. -/
def holesOf (s : State) (ts : List Nat) : List Nat :=
  (List.range 960).filter (fun t => ((s.tileAt t).failed || (s.tileAt t).retired) && inBox ts t)

/-- The remap word of a row: the two positions that repair left out. -/
def remapWord (y : Nat) : Nat :=
  let q := Config.rowRemap y
  y * 2 ^ 16 + max q.1.toNat q.2.toNat * 2 ^ 5 + min q.1.toNat q.2.toNat

/-- The shape report (20 R416). -/
def shapeReport (s : State) (p : Nat) (P : Part) : List Byte :=
  let runs := tileRuns P.tiles
  let holes := holesOf s P.tiles
  let rows := (P.tiles.map (· / 30)).dedup
  leBytes 2 1 ++ leBytes 1 p ++ leBytes 1 P.tag ++ leBytes 2 P.tiles.length ++ leBytes 2 runs.length ++ leBytes 2 holes.length ++
  leBytes 2 rows.length ++ leBytes 4 P.sgen ++ leBytes 4 P.epoch ++ leBytes 4 s.fused ++ leBytes 4 P.guar ++ leBytes 4 P.burst ++
  padTo 48 s.active ++ runs.flatMap (fun r => leBytes 4 (r.1 * 2 ^ 16 + r.2.1 * 2 ^ 8 + r.2.2)) ++
  holes.flatMap (fun t => leBytes 4 ((if (s.tileAt t).failed then 2 ^ 31 else 0) + t)) ++ (sortIds rows).flatMap (fun y => leBytes 4 (remapWord y))

/-- The bytes that a measurement index covers; none: the function does not report it. -/
def measured (s : State) (part index : Nat) : Option (List Byte) :=
  match index with
  | 1 => some (1 :: s.active)
  | 2 => some (2 :: s.active)
  | 3 => some (leBytes 4 s.fused ++ leBytes 1 s.lcs)
  | 4 => (s.parts.look part).map (shapeReport s part)
  | 5 => (s.parts.look part).map (fun P => P.meas5.getD (lockedRegs P))
  | _ => none

/-- The algorithms of every session, the one choice of each kind: signatures, hashes, key exchange, messages (20 R413). -/
def spdmAlgorithms : List String := ["ML-DSA-65", "SHA3-384", "ML-KEM-1024", "AES-256-GCM"]

/-- Numbers of Zhevlor's root key and of the device identity key. -/
def rootKey : Nat := 2 ^ 33
def identityKey : Nat := 2 ^ 32

/-- The keys of a certificate slot of a function, each certified by the one before it: slot 0 the device identity chain, slot 1 of a VF its
attestation key, which the identity key certifies (20 R413). PF k stands as 64 + k; absent functions have no slots. -/
def certChain (s : State) (part slot : Nat) : Option (List Nat) :=
  if !s.identity then none
  else match slot, s.parts.look part with
    | 0, P => if P.isSome || (decide (64 ≤ part) && decide (part < 68)) then some [rootKey, identityKey] else none
    | 1, some P => if part < 64 then some [rootKey, identityKey, P.attKey] else none
    | _, _ => none

/-- The key that signs for a function: slot 1's of a VF, slot 0's of a PF. -/
def signKey (s : State) (part : Nat) : Option Nat := (certChain s part (if 64 ≤ part then 0 else 1)).bind List.getLast?

/-- The one SPDM version that a function reports, 1.3, and the one TDISP version, 1.0, as their messages code them (20 R411, R413). -/
def spdmVersion : Nat := 0x13
def tdispVersion : Nat := 0x10

/-- A message of a version that is not reported is refused and has no other effect (00 R14). -/
def versioned (want ver : Nat) (s t : State) : State := if ver = want then t else s.reply .refusal

/-- CHALLENGE: signed over the nonce and every measurement (20 R413). -/
def challengeNow (part : Nat) (nonce : List Byte) (s : State) : State :=
  match signKey s part with
  | none => s.reply .refusal
  | some k =>
    let sum := digest ((List.range 6).flatMap (fun i => ((measured s part i).map digest).getD []))
    s.reply (.bytes (sum ++ padTo 3309 (Config.signature k (nonce ++ sum))))
def execChallenge (m : Msg) (nonce : List Byte) (s : State) : Host.Outcome State Fault Refusal :=
  .next (versioned spdmVersion m.ver s (challengeNow m.part nonce s))

/-- GET_MEASUREMENTS: a digest, or for indices 4 and 5 the bytes on request, signed (20 R414). -/
def measurementsNow (part index : Nat) (raw : Bool) (s : State) : State :=
  match signKey s part, measured s part index with
  | some k, some m =>
    let b := if raw ∧ 4 ≤ index then m else digest m
    s.reply (.bytes (b ++ padTo 3309 (Config.signature k b)))
  | _, _ => s.reply .refusal
def execGetMeasurements (m : Msg) (index : Nat) (raw : Bool) (s : State) : Host.Outcome State Fault Refusal :=
  .next (versioned spdmVersion m.ver s (measurementsNow m.part index raw s))

/-- KEY_EXCHANGE: a new session ends the old one and its pending acknowledgements (20 R413). -/
def exchangeNow (part : Nat) (s : State) : State :=
  match signKey s part with
  | none => s.reply .refusal
  | some k =>
    let s1 := s.updPart part (fun P => { P with session := true, fwAck := none })
    (s1.tick).reply (.bytes (padTo 3309 (Config.signature k (leBytes 8 s.fresh))))
def execKeyExchange (m : Msg) (s : State) : Host.Outcome State Fault Refusal :=
  .next (versioned spdmVersion m.ver s (exchangeNow m.part s))

/-! ### Interface states (20 R411) -/

/-- A TDISP request: held during an activation; outside a session or out of place it is refused. -/
def tdispRequest (s : State) (p : Nat) (h : Held) (f : Part → Option State) : State :=
  if s.fwHold then { s with heldCmds := s.heldCmds ++ [h] }
  else match s.parts.look p with
    | none => s.reply .refusal
    | some P => if !P.session then s.reply .refusal else match f P with | some t => t | none => s.reply .refusal

/-- LOCK: from CONFIG_UNLOCKED; measurement 5 is fixed. -/
def askLock (s : State) (p : Nat) : State :=
  tdispRequest s p (.lock p) (fun P =>
    if P.tdi = .unlocked then some (s.updPart p (fun P => { P with tdi := .locked, meas5 := some (lockedRegs P) })) else none)
/-- START: from CONFIG_LOCKED. -/
def askStart (s : State) (p : Nat) : State :=
  tdispRequest s p (.start p) (fun P => if P.tdi = .locked then some (s.updPart p (fun P => { P with tdi := .run })) else none)
/-- STOP: in CONFIG_LOCKED or RUN it first acts as an FLR; it leaves ERROR. -/
def askStop (s : State) (p : Nat) : State :=
  tdispRequest s p (.stop p) (fun P =>
    match P.tdi with
    | .unlocked => some s
    | .error => some (s.updPart p (fun P => { P with tdi := .unlocked, meas5 := none }))
    | _ => some (startFlr s p .unlocked))

/-- LOCK_INTERFACE_REQUEST. -/
def execLockInterfaceRequest (m : Msg) (s : State) : Host.Outcome State Fault Refusal :=
  .next (versioned tdispVersion m.ver s (askLock s m.part))
/-- START_INTERFACE_REQUEST. -/
def execStartInterfaceRequest (m : Msg) (s : State) : Host.Outcome State Fault Refusal :=
  .next (versioned tdispVersion m.ver s (askStart s m.part))
/-- STOP_INTERFACE_REQUEST. -/
def execStopInterfaceRequest (m : Msg) (s : State) : Host.Outcome State Fault Refusal :=
  .next (versioned tdispVersion m.ver s (askStop s m.part))

/-- Is what was issued under the partition's old keys done: its packets and its accesses to other wafers, and the host requests that arrived
before a request (18 R387 step 2)? -/
def portsQuiet (s : State) (p : Nat) (P : Part) (i : HeldReq) : Bool :=
  !s.edges.any (fun e => e.2.wait.any (fun k => k.tag == P.tag)) && (partLaunches s p).all (fun l => !launchOwed s l) &&
  !(P.heldReqs.takeWhile (· != i)).any (fun h => match h with | .host _ _ _ => true | _ => false)

/-- An IDE key switch, which waits for that (20 R415). -/
def ideSwitch (s : State) (part key : Nat) : State :=
  match s.parts.look part with
  | none => s
  | some P =>
    if portsQuiet s part P (.ide key) then (endReq s part (.ide key)).updPart part (fun P => { P with ideKey := some key })
    else holdReq s part (.ide key)

/-- A message within a VF's session: of another version, or outside a session, it is refused (20 R413). -/
def inSession (m : Msg) (s t : State) : State :=
  versioned spdmVersion m.ver s (if (s.parts.look m.part).any Part.session then t else s.reply .refusal)

/-- IDE_KM_KEY_PROG (20 R415). -/
def execIdeKmKeyProg (m : Msg) (key : Nat) (s : State) : Host.Outcome State Fault Refusal :=
  .next (inSession m s (ideSwitch s m.part key))

/-- FW_ACK: over the VF's session (20 R420). -/
def execFwAck (m : Msg) (dig : List Byte) (s : State) : Host.Outcome State Fault Refusal :=
  .next (inSession m s (s.updPart m.part (fun P => { P with fwAck := some dig })))

/-- TVEC_WRITE: a locked register (20 R412, R415); bits 1:0 read 0 (12 R274). -/
def tvecNow (part : Nat) (v : BitVec 64) (s : State) : State :=
  (match s.parts.look part with
    | some P => if regLocked P then lockViolation s part else s.updPart part (fun P => { P with tvec := v.toNat / 4 * 4 })
    | none => s)
def execTvecWrite (part : Nat) (v : BitVec 64) (s : State) : Host.Outcome State Fault Refusal := .next (tvecNow part v s)

/-! ### KCMD (20 R417 to R421) -/

def kmEnd (s : State) (status : Nat) : State := { s with km := { s.km with seq := (s.km.seq + 1) % 2 ^ 32, busy := false, status } }
/-- A KCMD: dropped while another is in progress. -/
def kmCommand (s : State) (k : State) : State := if s.km.busy then { s with km := { s.km with drop := true } } else k

/-- BIND_FABRIC_IMPORT: OP 1, the import's index in byte 0 of the argument. Whether the exporting wafer's Medlar answers and authenticates is a
free value; where it does not, STATUS is 1 (DESIGN CHOICE, log 13). -/
def bindNow (part : Nat) (area : BitVec 64) (s : State) : State :=
  (kmCommand s (match s.parts.look part with
    | none => kmEnd s 8
    | some P =>
      let i := (s.byteAt (hostLoc (areaOf12 area))).toNat
      if 64 ≤ i ∨ !bitN (P.imports.lookD 0 i).toNat 15 then kmEnd s 6
      else if (P.bound.look i).isSome then kmEnd s 0
      else if 256 ≤ s.keySlots then kmEnd s 5
      else if !Config.verifies s.fresh then kmEnd s.tick 1
      else kmEnd (({ s.tick with keySlots := s.keySlots + 1, nextKey := s.nextKey + 1 }).updPart part (fun P =>
        { P with bound := P.bound.setAt i s.nextKey })) 0))
def execBindFabricImport (part : Nat) (area : BitVec 64) (s : State) : Host.Outcome State Fault Refusal := .next (bindNow part area s)

/-- STAGE_FIRMWARE: OP 2. The format lies in bytes 0 to 3, SVN in bytes 4 to 7 and the digest in bytes 16 to 63 of the header; a
format that the module does not report is a bad argument (00 R14; log 13). -/
def stageNow (area : BitVec 64) (sigOk : Bool) (s : State) : State :=
  let h := s.readBytes (hostLoc (areaOf12 area)) 96
  (kmCommand s (
    if !sigOk then kmEnd s 1
    else if fieldOf h 0 4 != Config.firmwareFormat.toNat then kmEnd s 6
    else if fieldOf h 4 4 < s.fused then kmEnd s 2
    else kmEnd { s with staged := fieldOf h 4 4, stagedDigest := (h.drop 16).take 48,
                        parts := s.parts.mapV (fun _ P => { P with fwAck := none }) } 0))
def execStageFirmware (area : BitVec 64) (sigOk : Bool) (s : State) : Host.Outcome State Fault Refusal := .next (stageNow area sigOk s)

/-- The status of an activation's checks, 0 when it goes on. -/
def activateStatus (s : State) : Nat :=
  if s.stagedDigest.isEmpty then 6
  else if s.parts.any (fun e => e.2.tdi == .run && e.2.fwAck != some s.stagedDigest) then 3
  else if s.parts.any (fun e => e.2.ctxs.any (fun c => c.2.saved)) then 4
  else 0

/-- Every partition begins a drain for a command of the module; partition commands and TDISP requests are held. -/
def askAll (s : State) (c : Cmd) : State :=
  s.parts.keys.foldl (fun s p => askDrain s p c) { s with fwHold := true, km := { s.km with busy := true } }

/-- Does a command of the module wait at the head of every partition with its drain done? -/
def allDrained (s : State) (c : Cmd) : Bool := s.parts.keys.all (fun p => drainHead s p == some c)

/-- A held command performed. -/
def applyHeld (s : State) : Held → State
  | .create p a => askCreate s p a
  | .destroy p => askDestroy s p
  | .grow p a => askGrow s p a
  | .shrink p a => askShrink s p a
  | .compact p a => askCompact s p a
  | .lock p => askLock s p
  | .start p => askStart s p
  | .stop p => askStop s p

/-- Held commands performed in the order of their arrival. -/
def releaseHeld (s : State) : State := s.heldCmds.foldl applyHeld { s with fwHold := false, heldCmds := [] }

/-- The end of an activation: images replaced, FUSED burnt, records posted, everything resumes. -/
def activateNow (s : State) : State :=
  let ps := s.parts.keys
  let s1 := ps.foldl settleDrain s
  let s2 := { s1 with
    active := s1.stagedDigest, activeSvn := s1.staged, prev := (s1.active, s1.activeSvn), fused := max s1.fused s1.staged, staged := 0, stagedDigest := [] }
  let s3 := ps.foldl (fun s p => postUsage s p 9 false) s2
  releaseHeld (kmEnd (ps.foldl endDrain s3) 0)

/-- ACTIVATE_FIRMWARE: OP 3; the checks are decided at once. -/
def activateAsk (s : State) : State :=
  (kmCommand s (
    if activateStatus s != 0 then kmEnd s (activateStatus s)
    else if s.parts.isEmpty then activateNow { s with fwHold := true }
    else askAll s .activate))
def execActivateFirmware (s : State) : Host.Outcome State Fault Refusal := .next (activateAsk s)

/-- DISCARD_STAGED: OP 4. -/
def discardNow (s : State) : State :=
  (kmCommand s (kmEnd { s with staged := 0, stagedDigest := [] } 0))
def execDiscardStaged (s : State) : Host.Outcome State Fault Refusal := .next (discardNow s)

/-! ### Wiping and the life cycle (20 R425, R426) -/

/-- The images that boot after a reset: the active ones, or, where their security version lies below FUSED, the ones before them (20 R421). -/
def bootImage (s : State) : List Byte × Nat := if s.activeSvn < s.fused then s.prev else (s.active, s.activeSvn)

/-- What survives a wipe and a reset: host memory, fuses, the identity key, the images that boot, and the cause of the last trip. -/
def wipeModule (s : State) : State :=
  { State.reset with
    mem := s.mem.filter (fun e => decide (2 ^ 64 ≤ e.1)), fused := s.fused, lcs := s.lcs, identity := s.identity,
    active := (bootImage s).1, activeSvn := (bootImage s).2, prev := s.prev,
    trip := s.trip, images := s.images, exportsOut := s.exportsOut, out := s.out, agenda := s.agenda, nextKey := s.nextKey,
    fresh := s.fresh, nextId := s.nextId,
    tiles := (s.tiles.filter (fun e => e.2.failed || e.2.retired)).map (fun e => (e.1, { Tile.reset with failed := e.2.failed, retired := e.2.retired })) }

/-- A wipe at a life-cycle transition: every register takes the reset value of its map again (00 R12); the clocks run on, and what
the transition itself holds stays held. -/
def wipeLife (s : State) : State :=
  { wipeModule s with clock := s.clock, mhz := s.mhz, fwHold := s.fwHold, heldCmds := s.heldCmds }

/-- The end of a transition: every partition destroyed, the module wiped, the next state burnt. -/
def lifeNow (s : State) : State :=
  let s1 := s.parts.keys.foldl destroyPart s
  let s2 := wipeLife s1
  let n := s2.lcs + 1
  releaseHeld (kmEnd { s2 with lcs := n, identity := if n = 1 then true else if n = 3 then false else s2.identity } 0)

/-- LIFE_CYCLE_TRANSITION: OP 5, with an authorisation that names the next state. -/
def lifeAsk (_ : BitVec 64) (authOk : Bool) (s : State) : State :=
  (kmCommand s (
    if 3 ≤ s.lcs then kmEnd s 7
    else if !authOk then kmEnd s 1
    else if s.parts.isEmpty then lifeNow { s with fwHold := true }
    else askAll s .lifeCycle))
def execLifeCycleTransition (_area : BitVec 64) (authOk : Bool) (s : State) : Host.Outcome State Fault Refusal := .next (lifeAsk _area authOk s)

/-! ### Migration keys (20 R419) -/

/-- Is a partition newly created, with no launch (20 R419)? -/
def partNew (s : State) (p : Nat) (P : Part) : Bool :=
  P.lnch == 0 && P.seq == 0 && P.tasks.isEmpty && P.ctxs.isEmpty && !P.stopped5 && !s.launches.any (fun e => e.2.part == p)

/-- A message of the exchange, signed by the identity key (20 R419). -/
def kemMessage (s : State) : Reply := .bytes (padTo 3309 (Config.signature identityKey (leBytes 8 s.fresh)))

/-- The status that refuses an exchange: the argument, or the partition's state: the source runs or is stopped by OP 5, the destination is new. -/
def migStatus (s : State) (p : Nat) (P : Part) (arg : List Byte) : Nat :=
  let role := byteOf arg 0
  if 1 < role || 63 < byteOf arg 56 ||
      (List.range 4096).any (fun i => i != 0 && !(decide (8 ≤ i) && decide (i ≤ 56)) && byteOf arg i != 0) then 6
  else if (if role = 1 then !partNew s p P else P.stopped && !P.stopped5) then 8
  else if 256 ≤ s.keySlots - (if P.migKey.isSome then 1 else 0) then 5
  else 0

/-- ESTABLISH_MIGRATION_KEY: OP 6; the old key is retired, the destination sends its key, and the exchange waits for the peer's message. -/
def migKeyAsk (part : Nat) (area : BitVec 64) (s : State) : State :=
  (kmCommand s (match s.parts.look part with
    | none => kmEnd s 8
    | some P =>
      let arg := s.readBytes (hostLoc (areaOf12 area)) 4096
      match migStatus s part P arg with
      | 0 =>
        let s1 := dropMigKey s part
        let s2 := if byteOf arg 0 = 1 then s1.tick.reply (kemMessage s1) else s1
        ({ s2 with keySlots := s2.keySlots + 1, km := { s2.km with busy := true } }).updPart part
          (fun P => { P with migWait := some (byteOf arg 0, (arg.drop 8).take 48, byteOf arg 56) })
      | st => kmEnd s st))
def execEstablishMigrationKey (part : Nat) (area : BitVec 64) (s : State) : Host.Outcome State Fault Refusal := .next (migKeyAsk part area s)

/-- The number of the key that an exchange yields: the one that the peer partition of this module holds already, when it is the
source and this the destination; else a new one (log 13). -/
def migNumber (s : State) (role peer : Nat) : Nat :=
  if role = 1 then ((s.parts.look peer).bind Part.migKey).getD s.nextKey else s.nextKey

/-- The exchange of a partition as the peer's message reaches it: the message's signature verifies under an identity key with the hash `peer`,
or under none, and the hash is compared with the argument's. The source answers with its own message. -/
def peerMessage (part : Nat) (peer : Option (List Byte)) (s : State) : State :=
  match s.parts.look part with
  | none => s
  | some P =>
    match P.migWait with
    | none => s
    | some (role, hash, n) =>
      if peer = some hash then
        let s1 := if role = 0 then s.tick.reply (kemMessage s) else s
        kmEnd (({ s1 with nextKey := s.nextKey + 1 }).updPart part (fun P => { P with migKey := some (migNumber s role n), migWait := none })) 0
      else kmEnd (({ s with keySlots := s.keySlots - 1 }).updPart part (fun P => { P with migWait := none })) 1

/-- MIGRATION_KEY_MESSAGE: of another version it is refused. -/
def execMigrationKeyMessage (m : Msg) (peer : Option (List Byte)) (s : State) : Host.Outcome State Fault Refusal :=
  .next (versioned spdmVersion m.ver s (peerMessage m.part peer s))

/-- RETIRE_MIGRATION_KEY: OP 7. -/
def retireKey (part : Nat) (s : State) : State := (kmCommand s (kmEnd (dropMigKey s part) 0))
def execRetireMigrationKey (part : Nat) (s : State) : Host.Outcome State Fault Refusal := .next (retireKey part s)

/-! ### The end of a drain (17 R366) -/

/-- What the command at the head of a drain does, once write-backs are made. -/
def drainEffect (s : State) (p : Nat) : Cmd → State
  | .save ctx area => writeImage s p 1 ctx area
  | .migStop ctx area => writeStop s p ctx area
  | .flr => match s.parts.look p with | some P => flrEffect s p (flrAfter P) | none => s
  | .destroy => dmEnd (destroyPart s p) 0
  | .grow ids => growNow s p ids
  | .shrink ids => shrinkNow s p ids
  | .compact a b => compactNow s p a b
  | .predicted t a time => predictedNow s p t a time
  | .tileLost t time => lossNow s p t time
  | .rekey => rekeyNow s p
  | .activate | .lifeCycle => s

/-- The last partition is gone: a command of the module that waited for its drain has nothing left to wait for (20 R420, R425). -/
def afterDestroy (s : State) (pend : List Cmd) : State :=
  if !s.parts.isEmpty then s
  else if pend.contains .activate then activateNow s
  else if pend.contains .lifeCycle then lifeNow s
  else s

/-- A partition's drain is done: its first command takes effect, and the next waits its turn or issue resumes. A command of the
module waits for every partition. -/
def finishDrain (s : State) (p : Nat) : State :=
  match drainHead s p with
  | none => s
  | some .activate => if allDrained s .activate then activateNow s else s
  | some .lifeCycle => if allDrained s .lifeCycle then lifeNow s else s
  | some .flr => drainEffect s p .flr
  | some .destroy => afterDestroy (drainEffect (settleDrain s p) p .destroy) (((s.parts.look p).map Part.pend).getD [])
  | some c => endDrain (drainEffect (settleDrain s p) p c) p

end Sys2Proof.Machine
end

