-- ==== Sys2Proof/Machine/Host.lean ====
section
/-!
DEFINITION. Registers of the host interface, host accesses to memory, and reset, power and cooling (spec 20 R408 to R410, R423, R426,
R427; the register tables of 14 to 19).
-/

namespace Sys2Proof.Machine

/-! ### Reading registers -/

/-- A ring's registers, at offsets 0, 8 and 16 from its base (20 R423). -/
def ringRead (r : Ring) (off : Nat) : Nat :=
  match off with
  | 0 => r.base
  | 8 => (if r.ovf then 2 ^ 8 else 0) + (if r.en then 2 ^ 4 else 0) + r.sz
  | 16 => r.ci * 2 ^ 32 + r.pi
  | _ => 0

def cmdStatRead (c : CmdStat) : Nat := c.seq * 2 ^ 32 + (if c.drop then 2 ^ 9 else 0) + (if c.busy then 2 ^ 8 else 0) + c.status

/-- Port p's registers (19 R396). -/
def portRead (x : Port) (off : Nat) : Nat :=
  match off with
  | 0 => if x.en then 1 else 0
  | 8 => x.good.toNat * 2 ^ 48 + (if x.up then x.ver else 0) * 2 ^ 32 + x.peerw * 2 ^ 24 + x.peerp * 2 ^ 20 + x.reason * 2 ^ 4 + x.st
  | 16 => x.replays * 2 ^ 32 + x.lossydrop
  | _ => 0

/-- The device management block. -/
def dmRead (s : State) (off : Nat) : Nat :=
  if off = 0x008 then cmdStatRead s.dm
  else if off = 0x300 then s.waferid
  else if 0x400 ≤ off ∧ off < 0x800 then portRead (s.portAt ((off - 0x400) / 64)) (off % 64)
  else if 0x800 ≤ off ∧ off < 0xA00 ∧ off % 8 = 0 then (s.routes.lookD 0 ((off - 0x800) / 8)).toNat
  else if off = 0x1008 then cmdStatRead s.km
  else if off = 0x1010 then s.staged * 2 ^ 32 + s.fused
  else if off = 0x1018 then s.lcs
  else if off = 0x1020 then s.mpool
  else if off = 0x1028 then s.pwrlim
  else if off = 0x1030 then s.trip
  else if 0x1040 ≤ off ∧ off < 0x1058 then ringRead s.devRing (off - 0x1040)
  else 0

/-- EPOCH and BUSY of the rekey register. -/
def rekeyRead (P : Part) : Nat := P.epoch * 2 ^ 32 + (if P.rekeyBusy then 2 else 0)
def queueCtl (base : Nat) (en : Bool) (sz : Nat) : Nat := base + (if en then 2 ^ 4 else 0) + sz

/-- The PF control block of a partition. -/
def pfRead (s : State) (P : Part) (off : Nat) : Nat :=
  if off = 0x040 then pcarveWord P
  else if off = 0x048 then P.burst * 2 ^ 32 + P.guar
  else if off = 0x050 then P.res
  else if off = 0x060 then pschedWord P
  else if off = 0x080 then P.s2root
  else if off = 0x090 then P.s2seq * 2 ^ 32 + (if P.s2drop then 2 ^ 9 else 0) + (if P.s2busy then 2 ^ 8 else 0) + P.s2status
  else if off = 0x0A0 then P.fqbase
  else if off = 0x0A8 then queueCtl 0 P.fqen P.fqsz
  else if off = 0x0B0 then P.fqci * 2 ^ 32 + P.fqpi
  else if off = 0x0D0 then P.nqbase
  else if off = 0x0D8 then queueCtl (if P.nqovf then 2 ^ 8 else 0) P.nqen P.nqsz
  else if off = 0x0E0 then P.nqci * 2 ^ 32 + P.nqpi
  else if off = 0x0F0 then P.acthr
  else if off = 0x100 then P.tiles.length * 2 ^ 32 + P.tiles.headD 0 * 2 ^ 16 + P.tag
  else if off = 0x108 then P.weight
  else if off = 0x110 then rekeyRead P
  else if off = 0x120 then P.fwin.toNat
  else if off = 0x128 then P.fjob.toNat
  else if off = 0x210 then P.imgsz * 2 ^ 32 + (if P.ctxDrop then 2 ^ 9 else 0) + (if P.ctxBusy then 2 ^ 8 else 0) + P.ctxStatus
  else if 0x240 ≤ off ∧ off < 0x270 ∧ off % 8 = 0 then ofLeBytes (((ckey s).drop (off - 0x240)).take 8)
  else if 0x600 ≤ off ∧ off < 0x800 ∧ off % 8 = 0 then (P.imports.lookD 0 ((off - 0x600) / 8)).toNat
  else if 0x800 ≤ off ∧ off < 0xC00 ∧ off % 8 = 0 then (P.exports.lookD 0 ((off - 0x800) / 8)).toNat
  else if off = 0xC00 then P.tvec
  else if off = 0xC08 then P.impseq
  else if 0xC20 ≤ off ∧ off < 0xC38 then ringRead P.usagePf (off - 0xC20)
  else if 0xC40 ≤ off ∧ off < 0xC58 then ringRead P.eventPf (off - 0xC40)
  else if 0xD00 ≤ off ∧ off < 0xF00 ∧ off % 8 = 0 then (P.members.lookD 0 ((off - 0xD00) / 8)).toNat
  else 0

/-- Registers of a queue (16 R346). -/
def queueRead (Q : Queue) (off : Nat) : Nat :=
  if off = 0 then Q.set * 2 ^ 16 + Q.log2n * 2 ^ 8 + (if Q.dev then 2 else 0) + (if Q.en then 1 else 0)
  else if off = 0x80 then modW 64 Q.budget
  else if off = 0x88 then (if Q.badtail then 2 else 0) + (if Q.fulldrop then 1 else 0)
  else if off < 0x80 then
    let l := Q.lvl (off / 0x20)
    match off % 0x20 with
    | 0x08 => l.rbase
    | 0x10 => l.tail
    | 0x18 => l.head
    | _ => 0
  else 0

/-- The VF register space. -/
def vfRead (P : Part) (off : Nat) : Nat :=
  if off = 0x400 then P.rxdrop
  else if off = 0x408 then P.stndrop
  else if off = 0x410 then rekeyRead P
  else if 0x500 ≤ off ∧ off < 0x518 then ringRead P.usageVf (off - 0x500)
  else if 0x540 ≤ off ∧ off < 0x558 then ringRead P.eventVf (off - 0x540)
  else if 0x10000 ≤ off ∧ off < 0x14000 then queueRead (P.queue ((off - 0x10000) / 0x100)) (off % 0x100)
  else 0

/-- A register read: none when the function is not present (20 R408). -/
def regRead (s : State) (space : RegSpace) (part off : Nat) : Option Nat :=
  match space with
  | .dm => some (dmRead s off)
  | .pf => some (match s.parts.look part with | some P => pfRead s P off | none => 0)
  | .vf => (s.parts.look part).map (fun P => vfRead P off)

/-! ### Writing registers that have no row of their own -/

def clampN (lo hi v : Nat) : Nat := max lo (min hi v)

/-- The device management block. -/
def dmWrite (s : State) (off v : Nat) : State :=
  if off = 0x008 then { s with dm := { s.dm with drop := s.dm.drop && !bitN v 9 } }
  else if off = 0x1008 then { s with km := { s.km with drop := s.km.drop && !bitN v 9 } }
  else if off = 0x1020 then (if s.frames.isEmpty then { s with mpool := v % 2 ^ 32 } else s)
  else if off = 0x1028 then { s with pwrlim := clampN 10000 28000 (v % 2 ^ 16) }
  else if off = 0x1040 ∨ off = 0x1048 then withRing 0 .device (ringSet (off - 0x1040) v) s
  else s

/-- Registers that CONFIG_LOCKED and RUN lock (20 R412), as offsets of the PF control block; the export table has its row. -/
def lockedOff (off : Nat) : Bool :=
  off == 0x040 || off == 0x048 || off == 0x060 || off == 0x080 || off == 0x120 || (decide (0x600 ≤ off) && decide (off < 0x800))

/-- GUAR and BURST: ignored when the guarantees of all partitions would exceed the managed pool (15 R333). -/
def quotaWrite (s : State) (p v : Nat) : State :=
  let others := sumOf ((s.parts.filter (fun e => e.1 != p)).map (fun e => e.2.guar))
  if s.mpool < others + v % 2 ^ 32 then s else s.updPart p (fun P => { P with guar := v % 2 ^ 32, burst := bitsN v 63 32 })

/-- Is a fabric launch of the partition resident (19 R406)? -/
def fabricResident (s : State) (p : Nat) : Bool := s.launches.any (fun e => e.2.part == p && e.2.fabric.isSome)

/-- FJOB written: another job counts its launches and its symbols anew. -/
def Part.joinJob (P : Part) (v : DWord) : Part :=
  if bitsN v.toNat 63 32 = fjobId P then { P with fjob := v } else { P with fjob := v, fabLaunches := 0, fabEnded := [], symbols := [] }

/-- An entry of the import table written: one that names another export gives up the fabric key that it was bound under (DESIGN CHOICE,
log 13). -/
def writeImport (s : State) (p : Nat) (P : Part) (i : Nat) (v : DWord) : State :=
  let s1 := s.updPart p (fun P => { P with imports := P.imports.putD 0 i v })
  if (P.bound.look i).isSome ∧ (P.imports.lookD 0 i).toNat % 4096 ≠ v.toNat % 4096 then
    ({ s1 with keySlots := s1.keySlots - 1 }).updPart p (fun P => { P with bound := P.bound.remove i })
  else s1

/-- The PF control block of a partition; reserved bits are discarded (00 R12). -/
def pfWrite (s : State) (p : Nat) (P : Part) (off v : Nat) : State :=
  let set := fun (f : Part → Part) => s.updPart p f
  let keep := fun (m : Nat) => BitVec.ofNat 64 v &&& BitVec.ofNat 64 m
  if lockedOff off && regLocked P then lockViolation s p
  else if off = 0x040 then
    carveIdle (set (fun P => { P with pcarve := (min 48 (bitsN v 23 16), min 88 (bitsN v 15 8), min 76 (bitsN v 7 0)) })) p P.tiles
  else if off = 0x048 then quotaWrite s p v
  else if off = 0x060 then set (fun P => { P with maxcls := bitsN v 9 8, wdlog := clampN 16 31 (bitsN v 4 0) })
  else if off = 0x080 then set (fun P => { P with s2root := bitsN v 47 12 * 4096 })
  else if off = 0x090 then set (fun P => { P with s2drop := P.s2drop && !bitN v 9 })
  else if off = 0x0A0 then set (fun P => { P with fqbase := v / 4096 * 4096 })
  else if off = 0x0A8 then set (fun P => { P with fqen := bitN v 4, fqsz := min 8 (bitsN v 3 0) })
  else if off = 0x0D0 then set (fun P => { P with nqbase := v / 4096 * 4096 })
  else if off = 0x0D8 then set (fun P => { P with nqovf := P.nqovf && !bitN v 8, nqen := bitN v 4, nqsz := bitsN v 3 0 })
  else if off = 0x0F0 then set (fun P => { P with acthr := v % 2 ^ 16 })
  else if off = 0x108 then set (fun P => { P with weight := if v % 256 = 0 then 1 else v % 256 })
  else if off = 0x120 then set (fun P => { P with fwin := keep (7 * 2 ^ 45 + 1) })
  else if off = 0x128 then (if fabricResident s p then s else set (fun P => P.joinJob (keep 0xFFFFFFFF007F3F01)))
  else if off = 0x208 then set (fun P => { P with fipa := bitsN v 47 16 * 65536 })
  else if off = 0x210 then set (fun P => { P with ctxDrop := P.ctxDrop && !bitN v 9 })
  else if 0x600 ≤ off ∧ off < 0x800 ∧ off % 8 = 0 then writeImport s p P ((off - 0x600) / 8) (keep 0xEFFF)
  else if off = 0xC08 then set (fun P => { P with impseq := v })
  else if off = 0xC20 ∨ off = 0xC28 then withRing p .usagePf (ringSet (off - 0xC20) v) s
  else if off = 0xC40 ∨ off = 0xC48 then withRing p .eventPf (ringSet (off - 0xC40) v) s
  else if 0xD00 ≤ off ∧ off < 0xF00 ∧ off % 8 = 0 then
    (if fabricResident s p then s else set (fun P => { P with members := P.members.putD 0 ((off - 0xD00) / 8) (keep 0x3F3F) }))
  else s

/-- The VF register space. -/
def vfWrite (s : State) (p off v : Nat) : State :=
  if off = 0x500 ∨ off = 0x508 then withRing p .usageVf (ringSet (off - 0x500) v) s
  else if off = 0x540 ∨ off = 0x548 then withRing p .eventVf (ringSet (off - 0x540) v) s
  else s

/-- REGISTER_WRITE: a write to a register with no row of its own; the block of an absent partition ignores it (20 R408). -/
def execRegisterWrite (space : RegSpace) (part off : Nat) (v : BitVec 64) (s : State) : Host.Outcome State Fault Refusal :=
  .next (match space, s.parts.look part with
    | .dm, _ => dmWrite s off v.toNat
    | .pf, some P => pfWrite s part P off v.toNat
    | .vf, some _ => vfWrite s part off v.toNat
    | _, none => s)

/-! ### A register write as it arrives (00 R12; 20 R408) -/

/-- DMCMD: OP, PART and AREA; a write while BUSY is 1 is dropped, whatever it names (18 R390). -/
def dmcmdWrite (s : State) (v : Nat) : State :=
  let p := bitsN v 9 4
  let a := v / 4096 * 4096
  match v % 16 with
  | 1 => askCreate s p a
  | 2 => askDestroy s p
  | 3 => askGrow s p a
  | 4 => askShrink s p a
  | 5 => askCompact s p a
  | _ => if s.dm.busy then dmDrop s else s

/-- KCMD: OP, PART and AREA (20 R418). Whether a firmware image's signature or a transition's authorisation holds is a free value. -/
def kcmdWrite (s : State) (v : Nat) : State :=
  let p := bitsN v 9 4
  let a := BitVec.ofNat 64 (v / 4096 * 4096)
  match v % 16 with
  | 1 => bindNow p a s
  | 2 => stageNow a (Config.verifies s.fresh) s.tick
  | 3 => activateAsk s
  | 4 => discardNow s
  | 5 => lifeAsk a (Config.verifies s.fresh) s.tick
  | 6 => migKeyAsk p a s
  | 7 => retireKey p s
  | _ => kmCommand s s

/-- A port's control register: EN, and RETRAIN while EN is 1 (19 R396). -/
def portWrite (s : State) (k v : Nat) : State :=
  let s1 := if bitN v 0 then portOn k s else portOff k s
  if bitN v 1 && (s.portAt k).en && bitN v 0 then portRetrain k s1 else s1

/-- A context command: OP, CTX and AREA (17 R370). -/
def ctxWrite (s : State) (p v : Nat) : State :=
  let a := BitVec.ofNat 64 (v / 4096 * 4096)
  let c := bitsN v 9 8
  match v % 16 with
  | 1 => saveAsk p c a s
  | 2 => restoreNow p c a s
  | 3 => dirtyLogOn p s
  | 4 => harvestNow p a s
  | 5 => migStopAsk p c a s
  | 6 => exportNow p a s
  | 7 => importNow p a s
  | 8 => dirtyLogOff p s
  | _ => if (s.parts.look p).any Part.ctxBusy then s.updPart p (fun P => { P with ctxDrop := true }) else s

/-- A stage-2 command: OP and IPA (15 R334); any write while BUSY is 1 is dropped and sets DROP (15 R333). -/
def s2Write (s : State) (p v : Nat) : State :=
  if (s.parts.look p).any Part.s2busy then s.updPart p (fun P => { P with s2drop := true })
  else match v % 16 with
  | 1 => s2InvalidateIpa p (BitVec.ofNat 64 v) s
  | 2 => s2InvalidateAll p s
  | 3 => s2MigrateIn p (BitVec.ofNat 64 v) s
  | _ => s

def pfRegWrite (s : State) (p : Nat) (P : Part) (off v : Nat) : State :=
  let w := BitVec.ofNat 64 v
  if off = 0x088 then s2Write s p v
  else if off = 0x0B0 then faultCiNow p 2 (bitsN v 63 32) s
  else if off = 0x0E0 then nqciNow p (BitVec.ofNat 32 (v / 2 ^ 32)) s
  else if off = 0x110 then (if bitN v 0 then askRekey s p true else s)
  else if off = 0x200 then ctxWrite s p v
  else if 0x400 ≤ off ∧ off < 0x600 ∧ off % 8 = 0 then qbaddNow p ((off - 0x400) / 8) w s
  else if 0x800 ≤ off ∧ off < 0xC00 ∧ off % 8 = 0 then writeExport s p ((off - 0x800) / 16) (off % 16 == 8) w
  else if off = 0xC00 then tvecNow p w s
  else if off = 0xC30 then ringCiNow p .usagePf (BitVec.ofNat 32 (v / 2 ^ 32)) s
  else if off = 0xC50 then ringCiNow p .eventPf (BitVec.ofNat 32 (v / 2 ^ 32)) s
  else pfWrite s p P off v

def vfRegWrite (s : State) (p off v : Nat) : State :=
  if off = 0x410 then (if bitN v 0 then askRekey s p false else s)
  else if off = 0x510 then ringCiNow p .usageVf (BitVec.ofNat 32 (v / 2 ^ 32)) s
  else if off = 0x550 then ringCiNow p .eventVf (BitVec.ofNat 32 (v / 2 ^ 32)) s
  else if 0x10000 ≤ off ∧ off < 0x14000 then
    let q := (off - 0x10000) / 0x100
    let o := off % 0x100
    if o % 0x20 = 0x10 ∧ o < 0x80 then tailNow p q (o / 0x20) (BitVec.ofNat 32 v) s else queueControlNow p q o (BitVec.ofNat 64 v) s
  else vfWrite s p off v

/-- A write of a register by offset, whichever row of the opcode table it belongs to. -/
def regWrite (s : State) (space : RegSpace) (part off v : Nat) : State :=
  match space, s.parts.look part with
  | .dm, _ =>
    if off = 0x000 then dmcmdWrite s v
    else if off = 0x1000 then kcmdWrite s v
    else if off = 0x300 then waferidNow (BitVec.ofNat 64 v) s
    else if 0x400 ≤ off ∧ off < 0x800 ∧ off % 64 = 0 then portWrite s ((off - 0x400) / 64) v
    else if off = 0x1050 then ringCiNow 0 .device (BitVec.ofNat 32 (v / 2 ^ 32)) s
    else dmWrite s off v
  | .pf, some P => pfRegWrite s part P off v
  | .vf, some _ => vfRegWrite s part off v
  | _, none => s

/-! ### Host accesses to memory (20 R410; 18 R392) -/

/-- The partition whose frame or TM an address is. -/
def ownerOf (s : State) (pa : Nat) : Option Nat :=
  (s.parts.find? (fun e => granuleOf (hbmRanges s e.2) e.2.tiles (granOf pa))).map Prod.fst

/-- The register at an offset of BAR0 of a function: PF k is function k, the VF of partition n function 4 + n. PF k holds the control
blocks of partitions 16 k to 16 k + 15, and PF0 the device management block (20 R408); what no block covers is reserved. -/
def barReg (fn off : Nat) : RegSpace × Nat × Nat :=
  if 4 ≤ fn then (.vf, fn - 4, off)
  else if fn = 0 ∧ off < 0x10000 then (.dm, 0, off)
  else if 0x100000 ≤ off ∧ off < 0x200000 then (.pf, 16 * fn + (off - 0x100000) / 0x10000, off % 0x10000)
  else (.dm, 0, 0x10000)

/-- Where BAR0 of each function stands in the host's address space: at 2^47 + 2^40 × function (DESIGN CHOICE, log 12). -/
def regOf (pa : Nat) : RegSpace × Nat × Nat := barReg ((pa - 2 ^ 47) / 2 ^ 40) (pa % 2 ^ 40)

/-- The IDE T bit of a partition's requests to the host (20 R411). -/
def hostTBit (P : Part) : Bool := P.tdi == .run

/-- Does a request of the same host port wait before a request: requests of one requester keep their order (20 R410)? -/
def hostBehind (P : Part) (i : HeldReq) : Bool :=
  (P.heldReqs.takeWhile (· != i)).any (fun h => match h with | .host _ _ _ => true | _ => false)

/-- A host request performed; a reshape holds it, and so does what holds an access at its home (09 R223; 14 R314, R317, R326). -/
def hostAccess (s : State) (pa : Nat) (w : Option (List Byte)) (n : Nat) : State :=
  if 2 ^ 47 ≤ pa then
    let q := regOf pa
    match w with
    | none => (match regRead s q.1 q.2.1 q.2.2 with | some v => s.reply (.value v) | none => s.reply .refusal)
    | some bs => regWrite s q.1 q.2.1 q.2.2 (ofLeBytes bs)
  else if spaceOf pa = 3 then
    match w with
    | none => s.reply (.bytes (s.readBytes (hostLoc (pa % 2 ^ 45)) n))
    | some bs => s.writeBytes (hostLoc (pa % 2 ^ 45)) bs
  else if spaceOf pa = 2 then s.reply .refusal
  else
    let p := ownerOf s pa
    let i : HeldReq := .host pa w n
    let done := fun (s : State) =>
      match w with
      | some bs => writePaBytes s none (p.getD 64) pa bs
      | none =>
        let r := readPaBytes s pa n
        r.1.reply (if r.2.2 then .refusal else .bytes r.2.1)
    match p with
    | none => done s
    | some q =>
      if (s.parts.look q).any (fun P => P.pend.any Cmd.isReshape || hostBehind P i) then holdReq s q i
      else match claimRange s (.req i) 1024 pa ((w.map List.length).getD n) w.isSome false with
        | (s1, true) => done (endReq s1 q i)
        | (s1, false) => holdReq s1 q i

/-- HOST_MEMORY_ACCESS. -/
def execHostMemoryAccess (pa : Nat) (write : Option (List Byte)) (n : Nat) (s : State) : Host.Outcome State Fault Refusal :=
  .next (hostAccess s pa write n)

/-- A held request tried again. -/
def retryReq (s : State) (p : Nat) : HeldReq → State
  | .fabric w sp h off op base => fabricTry s p w sp h off op base
  | .symbol id rank rel => fabricSymbol s p id rank rel
  | .ide key => ideSwitch s p key
  | .frame a => importTry s p a
  | .host pa w n => hostAccess s pa w n
  | .packet k => (match packetWrite s p k with | (s1, true) => endReq s1 p (.packet k) | (s1, false) => s1)
  | .atomic t pa op ty b c => (match atomicAtHome s t pa op ty b c with | (s1, true) => endReq s1 p (.atomic t pa op ty b c) | (s1, false) => s1)
  | .reduction t pa op ty v => (match reduceAtHome s t pa op ty v.toNat with | (s1, true) => endReq s1 p (.reduction t pa op ty v) | (s1, false) => s1)

/-! ### Reset, power and cooling (20 R426, R427) -/

/-- MODULE_RESET: boot, the wipe, and ports DISABLED until the host enables them. -/
def execModuleReset (s : State) : Host.Outcome State Fault Refusal := .next (wipeModule s)

/-- The module trips: it is held in reset until the host power-cycles it. -/
def tripModule (s : State) (cause : Nat) : State := { s with trip := cause, tripped := true, cur := none }

/-- THERMAL_TRIP: cause 1, inlet above 45 °C, or 2, junction above 110 °C. -/
def execThermalTrip (cause : Nat) (s : State) : Host.Outcome State Fault Refusal :=
  .next (if cause = 1 ∨ cause = 2 then tripModule s cause else s)

/-- POWER_TRIP_TIMEOUT: at the lowest clock only. -/
def execPowerTripTimeout (s : State) : Host.Outcome State Fault Refusal := .next (if s.mhz = 875 then tripModule s 3 else s)

/-- CLOCK_THROTTLE: the arithmetic clock, between 0.875 and 1.75 GHz (00 R8). -/
def execClockThrottle (mhz : Nat) (s : State) : Host.Outcome State Fault Refusal :=
  .next (if 875 ≤ mhz ∧ mhz ≤ 1750 then { s with mhz } else s)

end Sys2Proof.Machine
end

