-- ==== Sys2Proof/Machine/Pair.lean ====
section
/-!
DEFINITION. The pair word: one scalar and one vector operation under one guard (spec 02 R58; 04 R115).
-/

namespace Sys2Proof.Machine

/-- The guard and hints of a pair word: it has no WSB, SSB or YH. -/
def pairCtl (p : PairWord) : Ctl := { guard := p.guard, stall := p.stall, chn := p.chn, wsb := 0, ssb := 0, yh := false }

/-- Does the scalar half name a predicate (SCMP, PLOP)? -/
def pairSPred (p : PairWord) : Bool := p.sop.toNat == 11 || p.sop.toNat == 15
/-- Destination of the scalar half. -/
def pairSDst (p : PairWord) : Dst := if pairSPred p then .pred false (BitVec.ofNat 4 p.sd.toNat) else .sca false p.sd
/-- Destination of the vector half; STS has none. -/
def pairVDst (p : PairWord) : Option Dst :=
  match p.vop.toNat with
  | 12 | 20 => some (.pred false (BitVec.ofNat 4 p.vd.toNat))
  | 23 => none
  | _ => some (.vec false p.vd)

/-- Scalar sources of the scalar half. -/
def pairSSrcs (p : PairWord) : List Src :=
  if 13 ≤ p.sop.toNat then [] else if p.i then [.sreg p.sa] else [.sreg p.sa, .sreg (BitVec.ofNat 6 p.sb.toNat)]
/-- Vector sources of the vector half. -/
def pairVSrcs (p : PairWord) : List Src :=
  match p.vop.toNat with
  | 3 | 17 => [.vreg p.va, .vreg p.vb, .vreg p.vc]
  | 13 | 21 | 22 | 23 => [.vreg p.va]
  | _ => [.vreg p.va, .vreg p.vb]

/-- Source B of the scalar half: a register or the sign-extended imm16. -/
def pairB (x : Ctx) (p : PairWord) : Nat :=
  if p.i then sextN 16 64 p.sb.toNat else (x.G.sreg (p.sb.toNat % 64)).toNat

/-- The scalar half's result (04 R115); `i` is the lane for a predicate result. -/
def pairScalar (s : State) (x : Ctx) (p : PairWord) (i : Nat) : Nat :=
  let a := (x.G.sreg p.sa.toNat).toNat
  let b := pairB x p
  let sb := p.sb.toNat
  let code := sb / 4096
  match p.sop.toNat with
  | 0 => iAdd 64 a b
  | 1 => iSub 64 a b
  | 2 => iAnd a b
  | 3 => iOr a b
  | 4 => iXor a b
  | 5 => iShl 64 a b
  | 6 => iShr 64 a b
  | 7 => iSar 64 a b
  | 8 => iMin true 64 a b
  | 9 => iMax true 64 a b
  | 10 => if x.G.laneTest x.low (fun l => l.pred code) then a else b
  | 11 => (if code < 6 then iRel code (valOf true 64 a) (valOf true 64 b) else iRel (code - 4) a b).toNat
  | 12 => (a + b * 2 ^ (sb / 8192)) % 2 ^ 64
  | 13 => b
  | 14 => srRead s x.G (if srLane (sb % 1024) then x.low else 0) (sb % 1024)
  | _ => (x.G.laneTest i (fun l => truth2 code (l.pred (p.sa.toNat % 16)) (l.pred (sb % 16)))).toNat

/-- One lane of the vector half (02 R58); LDS is none. -/
def pairVector (x : Ctx) (p : PairWord) (i : Nat) (v : FEnv) : FEnv × Nat :=
  let a := srcLane x.G i .i32 32 (.vreg p.va)
  let b := srcLane x.G i .i32 32 (.vreg p.vb)
  let e := srcLane x.G i .i32 32 (.vreg p.vc)
  let sum := fun (ps : List (Fv × Fv)) (as : List Fv) => Fmt.f32.sum .rne false v ps as
  let f := Fmt.f32.read
  match p.vop.toNat with
  | 0 => (v, iAdd 32 a b)
  | 1 => (v, iSub 32 a b)
  | 2 => (v, iMul 32 a b)
  | 3 => (v, iAdd 32 (iMul 32 a b) e)
  | 4 => (v, iAnd a b)
  | 5 => (v, iOr a b)
  | 6 => (v, iXor a b)
  | 7 => (v, iShl 32 a b)
  | 8 => (v, iShr 32 a b)
  | 9 => (v, iMin true 32 a b)
  | 10 => (v, iMax true 32 a b)
  | 11 => (v, if x.G.laneTest i (fun l => l.pred (p.vc.toNat % 16)) then a else b)
  | 12 => (v, (if p.vc.toNat < 6 then iRel p.vc.toNat (valOf true 32 a) (valOf true 32 b) else iRel (p.vc.toNat - 4) a b).toNat)
  | 13 => (v, a)
  | 14 => sum [] [f a, f b]
  | 15 => sum [] [f a, (f b).negate]
  | 16 => sum [(f a, f b)] []
  | 17 => sum [(f a, f b)] [f e]
  | 18 => Fmt.f32.minmax false v a b
  | 19 => Fmt.f32.minmax true v a b
  | 20 => (v.raiseIf (fRelInv p.vc.toNat (f a) (f b)) flINV, (fRel p.vc.toNat (f a) (f b)).toNat)
  | _ => if p.vc.toNat = 0 then cvtLane .i32 .f32 .rne true 0 false false v a else cvtLane .f32 .i32 .rne false 0 false false v a

/-- The scratch address of LDS and STS. -/
def pairAddr (G : Group) (p : PairWord) (i : Nat) : Nat :=
  0xFFFF800000010000 + (srcLane G i .n32 32 (.vreg p.va) + p.vb.toNat * 2 ^ 8 + p.vc.toNat) % 2 ^ 32

/-- The vector half, on a state in which the scalar half has taken effect. -/
def pairSecond (p : PairWord) (x : Ctx) (s : State) : Res :=
  match p.vop.toNat with
  | 22 => loadBody (.vec false p.vd) 2 (fun G i => pairAddr G p i) x s
  | 23 => storeBody (.vec false p.vd) 2 0 0 true (fun x => x.act) (fun G i => pairAddr G p i) x s
  | _ =>
    let res := x.act.map (fun i => (i, match x.G.lane? i with
      | some l => pairVector x p i (envOf x.G l)
      | none => ({ key := 0, ctr := 0, fl := 0 }, 0)))
    match pairVDst p with
    | some d => .done (s.setGroup x.g (putLanes x x.G d false res)) []
    | none => .done s []

/-- What the checks need to know of a pair word. -/
def pairMeta (p : PairWord) : Meta :=
  let n := p.sb.toNat % 1024
  let m0 : Meta := if p.sop = 14 then { sOnly := srSonly n, badS := srSonly n && (srWidthS n).isNone } else {}
  let m1 := (m0.reads false ((pairSSrcs p).map (fun a => (a, false)))).write (pairSDst p) false
  let m2 := m1.reads true ((pairVSrcs p).map (fun a => (a, false)))
  match pairVDst p with
  | some d => m2.write d false
  | none => { (m2.data (.vec false p.vd) false) with chnOk := false }

/-- The pair word (02 R58): the scalar half takes effect first, and a vector half that does not complete undoes it. -/
def execPairWord (p : PairWord) (s : State) : Host.Outcome State Fault Refusal :=
  issueWord (pairCtl p) (pairMeta p) s (fun x s =>
    let G1 := putPlain x x.G (pairSDst p) false (pairScalar s x p)
    match pairSecond p { x with G := G1 } (s.setGroup x.g G1) with
    | .hold b s1 => .hold b (s1.setGroup x.g x.G)
    | r => r)

end Sys2Proof.Machine
end

