-- ==== Sys2Proof/Machine/Dispatch.lean ====
section
/-!
DEFINITION. The meaning of every instruction and event: one arm per constructor of Instr, one direct call of its meaning.
-/

namespace Sys2Proof.Machine

def exec (i : Instr) (s : State) : Host.Outcome State Fault Refusal :=
  match i with
  | .sadd c o => Sys2Proof.Machine.execSadd c o s
  | .ssub c o => Sys2Proof.Machine.execSsub c o s
  | .smul c o => Sys2Proof.Machine.execSmul c o s
  | .smulh c o => Sys2Proof.Machine.execSmulh c o s
  | .sdiv c o => Sys2Proof.Machine.execSdiv c o s
  | .srem c o => Sys2Proof.Machine.execSrem c o s
  | .sand c o => Sys2Proof.Machine.execSand c o s
  | .sor c o => Sys2Proof.Machine.execSor c o s
  | .sxor c o => Sys2Proof.Machine.execSxor c o s
  | .sandn c o => Sys2Proof.Machine.execSandn c o s
  | .sshl c o => Sys2Proof.Machine.execSshl c o s
  | .sshr c o => Sys2Proof.Machine.execSshr c o s
  | .ssar c o => Sys2Proof.Machine.execSsar c o s
  | .srot c o => Sys2Proof.Machine.execSrot c o s
  | .smin c o => Sys2Proof.Machine.execSmin c o s
  | .smax c o => Sys2Proof.Machine.execSmax c o s
  | .sclz c o => Sys2Proof.Machine.execSclz c o s
  | .spopc c o => Sys2Proof.Machine.execSpopc c o s
  | .sbrev c o => Sys2Proof.Machine.execSbrev c o s
  | .sext c o => Sys2Proof.Machine.execSext c o s
  | .sins c o => Sys2Proof.Machine.execSins c o s
  | .ssel c o => Sys2Proof.Machine.execSsel c o s
  | .scmp c o => Sys2Proof.Machine.execScmp c o s
  | .smovi c o => Sys2Proof.Machine.execSmovi c o s
  | .smovh c o => Sys2Proof.Machine.execSmovh c o s
  | .slea c o => Sys2Proof.Machine.execSlea c o s
  | .srd c o => Sys2Proof.Machine.execSrd c o s
  | .swr c o => Sys2Proof.Machine.execSwr c o s
  | .plop c o => Sys2Proof.Machine.execPlop c o s
  | .pairWord p => Sys2Proof.Machine.execPairWord p s
  | .vadd c o => Sys2Proof.Machine.execVadd c o s
  | .vsub c o => Sys2Proof.Machine.execVsub c o s
  | .vmul c o => Sys2Proof.Machine.execVmul c o s
  | .vmulh c o => Sys2Proof.Machine.execVmulh c o s
  | .vmad c o => Sys2Proof.Machine.execVmad c o s
  | .vand c o => Sys2Proof.Machine.execVand c o s
  | .vor c o => Sys2Proof.Machine.execVor c o s
  | .vxor c o => Sys2Proof.Machine.execVxor c o s
  | .vlop3 c o => Sys2Proof.Machine.execVlop3 c o s
  | .vshl c o => Sys2Proof.Machine.execVshl c o s
  | .vshr c o => Sys2Proof.Machine.execVshr c o s
  | .vsar c o => Sys2Proof.Machine.execVsar c o s
  | .vmin c o => Sys2Proof.Machine.execVmin c o s
  | .vmax c o => Sys2Proof.Machine.execVmax c o s
  | .vabs c o => Sys2Proof.Machine.execVabs c o s
  | .vclz c o => Sys2Proof.Machine.execVclz c o s
  | .vpopc c o => Sys2Proof.Machine.execVpopc c o s
  | .vext c o => Sys2Proof.Machine.execVext c o s
  | .vins c o => Sys2Proof.Machine.execVins c o s
  | .vsel c o => Sys2Proof.Machine.execVsel c o s
  | .vcmp c o => Sys2Proof.Machine.execVcmp c o s
  | .vmov c o => Sys2Proof.Machine.execVmov c o s
  | .vmovi c o => Sys2Proof.Machine.execVmovi c o s
  | .vdot4 c o => Sys2Proof.Machine.execVdot4 c o s
  | .fadd c o => Sys2Proof.Machine.execFadd c o s
  | .fsub c o => Sys2Proof.Machine.execFsub c o s
  | .fmul c o => Sys2Proof.Machine.execFmul c o s
  | .ffma c o => Sys2Proof.Machine.execFfma c o s
  | .fmin c o => Sys2Proof.Machine.execFmin c o s
  | .fmax c o => Sys2Proof.Machine.execFmax c o s
  | .fcmp c o => Sys2Proof.Machine.execFcmp c o s
  | .fclass c o => Sys2Proof.Machine.execFclass c o s
  | .fdiv c o => Sys2Proof.Machine.execFdiv c o s
  | .fsqrt c o => Sys2Proof.Machine.execFsqrt c o s
  | .frcp c o => Sys2Proof.Machine.execFrcp c o s
  | .frsq c o => Sys2Proof.Machine.execFrsq c o s
  | .fexp2 c o => Sys2Proof.Machine.execFexp2 c o s
  | .flog2 c o => Sys2Proof.Machine.execFlog2 c o s
  | .fsin c o => Sys2Proof.Machine.execFsin c o s
  | .fcos c o => Sys2Proof.Machine.execFcos c o s
  | .ftanh c o => Sys2Proof.Machine.execFtanh c o s
  | .fround c o => Sys2Proof.Machine.execFround c o s
  | .fscale c o => Sys2Proof.Machine.execFscale c o s
  | .fdot2 c o => Sys2Proof.Machine.execFdot2 c o s
  | .cvt c o => Sys2Proof.Machine.execCvt c o s
  | .cvtbx c o => Sys2Proof.Machine.execCvtbx c o s
  | .cvtxf c o => Sys2Proof.Machine.execCvtxf c o s
  | .cvtf8 c o => Sys2Proof.Machine.execCvtf8 c o s
  | .cvtpk c o => Sys2Proof.Machine.execCvtpk c o s
  | .rnd c o => Sys2Proof.Machine.execRnd c o s
  | .shfl c o => Sys2Proof.Machine.execShfl c o s
  | .bcast c o => Sys2Proof.Machine.execBcast c o s
  | .ballot c o => Sys2Proof.Machine.execBallot c o s
  | .vote c o => Sys2Proof.Machine.execVote c o s
  | .match c o => Sys2Proof.Machine.execMatch c o s
  | .gred c o => Sys2Proof.Machine.execGred c o s
  | .gscan c o => Sys2Proof.Machine.execGscan c o s
  | .gredm c o => Sys2Proof.Machine.execGredm c o s
  | .mscl c o => Sys2Proof.Machine.execMscl c o s
  | .mcnt c o => Sys2Proof.Machine.execMcnt c o s
  | .ld c w o => Sys2Proof.Machine.execLd c w o s
  | .st c w o => Sys2Proof.Machine.execSt c w o s
  | .sld c w o => Sys2Proof.Machine.execSld c w o s
  | .sst c w o => Sys2Proof.Machine.execSst c w o s
  | .lds c w o => Sys2Proof.Machine.execLds c w o s
  | .sts c w o => Sys2Proof.Machine.execSts c w o s
  | .ldt c w o => Sys2Proof.Machine.execLdt c w o s
  | .stt c w o => Sys2Proof.Machine.execStt c w o s
  | .stn c d e o => Sys2Proof.Machine.execStn c d e o s
  | .ldc c w o => Sys2Proof.Machine.execLdc c w o s
  | .prf c o => Sys2Proof.Machine.execPrf c o s
  | .rgn c o => Sys2Proof.Machine.execRgn c o s
  | .maps c o => Sys2Proof.Machine.execMaps c o s
  | .mapsUn c o => Sys2Proof.Machine.execMapsUn c o s
  | .atmAdd c o => Sys2Proof.Machine.execAtmAdd c o s
  | .atmFadd c o => Sys2Proof.Machine.execAtmFadd c o s
  | .atmMin c o => Sys2Proof.Machine.execAtmMin c o s
  | .atmMax c o => Sys2Proof.Machine.execAtmMax c o s
  | .atmAnd c o => Sys2Proof.Machine.execAtmAnd c o s
  | .atmOr c o => Sys2Proof.Machine.execAtmOr c o s
  | .atmXor c o => Sys2Proof.Machine.execAtmXor c o s
  | .atmXch c o => Sys2Proof.Machine.execAtmXch c o s
  | .acas c o => Sys2Proof.Machine.execAcas c o s
  | .aaddt c o => Sys2Proof.Machine.execAaddt c o s
  | .redAdd c o => Sys2Proof.Machine.execRedAdd c o s
  | .redFadd c o => Sys2Proof.Machine.execRedFadd c o s
  | .redMin c o => Sys2Proof.Machine.execRedMin c o s
  | .redMax c o => Sys2Proof.Machine.execRedMax c o s
  | .redAnd c o => Sys2Proof.Machine.execRedAnd c o s
  | .redOr c o => Sys2Proof.Machine.execRedOr c o s
  | .redXor c o => Sys2Proof.Machine.execRedXor c o s
  | .fenceAcq c o => Sys2Proof.Machine.execFenceAcq c o s
  | .fenceRel c o => Sys2Proof.Machine.execFenceRel c o s
  | .fenceFull c o => Sys2Proof.Machine.execFenceFull c o s
  | .waita c o => Sys2Proof.Machine.execWaita c o s
  | .waitc c o => Sys2Proof.Machine.execWaitc c o s
  | .nmoCas2 c o => Sys2Proof.Machine.execNmoCas2 c o s
  | .nmoCas4 c o => Sys2Proof.Machine.execNmoCas4 c o s
  | .nmoFop c o => Sys2Proof.Machine.execNmoFop c o s
  | .nmoEnq c o => Sys2Proof.Machine.execNmoEnq c o s
  | .nmoDeq c o => Sys2Proof.Machine.execNmoDeq c o s
  | .nmoChase c o => Sys2Proof.Machine.execNmoChase c o s
  | .cpy c o => Sys2Proof.Machine.execCpy c o s
  | .cpyLossy c o => Sys2Proof.Machine.execCpyLossy c o s
  | .cpy2d c o => Sys2Proof.Machine.execCpy2d c o s
  | .cpy2dLossy c o => Sys2Proof.Machine.execCpy2dLossy c o s
  | .cpycb c o => Sys2Proof.Machine.execCpycb c o s
  | .gath c o => Sys2Proof.Machine.execGath c o s
  | .coll c o => Sys2Proof.Machine.execColl c o s
  | .collLossy c o => Sys2Proof.Machine.execCollLossy c o s
  | .cbcfg c o => Sys2Proof.Machine.execCbcfg c o s
  | .cbwaitFull c o => Sys2Proof.Machine.execCbwaitFull c o s
  | .cbwaitFree c o => Sys2Proof.Machine.execCbwaitFree c o s
  | .cbrel c o => Sys2Proof.Machine.execCbrel c o s
  | .cbpost c o => Sys2Proof.Machine.execCbpost c o s
  | .mma c ru o => Sys2Proof.Machine.execMma c ru o s
  | .mmas c ru o => Sys2Proof.Machine.execMmas c ru o s
  | .accz c o => Sys2Proof.Machine.execAccz c o s
  | .accld c o => Sys2Proof.Machine.execAccld c o s
  | .accst c o => Sys2Proof.Machine.execAccst c o s
  | .mqry c o => Sys2Proof.Machine.execMqry c o s
  | .bra c o => Sys2Proof.Machine.execBra c o s
  | .bri c o => Sys2Proof.Machine.execBri c o s
  | .call c o => Sys2Proof.Machine.execCall c o s
  | .calli c o => Sys2Proof.Machine.execCalli c o s
  | .ret c o => Sys2Proof.Machine.execRet c o s
  | .exit c o => Sys2Proof.Machine.execExit c o s
  | .yield c o => Sys2Proof.Machine.execYield c o s
  | .reconv c o => Sys2Proof.Machine.execReconv c o s
  | .sleep c o => Sys2Proof.Machine.execSleep c o s
  | .bar c o => Sys2Proof.Machine.execBar c o s
  | .bara c o => Sys2Proof.Machine.execBara c o s
  | .barw c o => Sys2Proof.Machine.execBarw c o s
  | .elect c o => Sys2Proof.Machine.execElect c o s
  | .enq c o => Sys2Proof.Machine.execEnq c o s
  | .grow c o => Sys2Proof.Machine.execGrow c o s
  | .shrnk c o => Sys2Proof.Machine.execShrnk c o s
  | .arb c o => Sys2Proof.Machine.execArb c o s
  | .are c o => Sys2Proof.Machine.execAre c o s
  | .arx c o => Sys2Proof.Machine.execArx c o s
  | .arst c o => Sys2Proof.Machine.execArst c o s
  | .trap c o => Sys2Proof.Machine.execTrap c o s
  | .bkpt c o => Sys2Proof.Machine.execBkpt c o s
  | .eret c o => Sys2Proof.Machine.execEret c o s
  | .stlbiVa c o => Sys2Proof.Machine.execStlbiVa c o s
  | .stlbiAll c o => Sys2Proof.Machine.execStlbiAll c o s
  | .sflushC c o => Sys2Proof.Machine.execSflushC c o s
  | .sflushT c o => Sys2Proof.Machine.execSflushT c o s
  | .sflushP c o => Sys2Proof.Machine.execSflushP c o s
  | .halt c o => Sys2Proof.Machine.execHalt c o s
  | .keyq c o => Sys2Proof.Machine.execKeyq c o s
  | .stallExpiry g => Sys2Proof.Machine.execStallExpiry g s
  | .resultWriteback g k => Sys2Proof.Machine.execResultWriteback g k s
  | .engineCompletion g cls => Sys2Proof.Machine.execEngineCompletion g cls s
  | .watchdogExpiry g lane => Sys2Proof.Machine.execWatchdogExpiry g lane s
  | .sleepWake g lane => Sys2Proof.Machine.execSleepWake g lane s
  | .barrierPhaseComplete launch dom unit id => Sys2Proof.Machine.execBarrierPhaseComplete launch dom unit id s
  | .growGrant tile core => Sys2Proof.Machine.execGrowGrant tile core s
  | .growDeadlockResolve tile core => Sys2Proof.Machine.execGrowDeadlockResolve tile core s
  | .shrnkRelease g => Sys2Proof.Machine.execShrnkRelease g s
  | .groupEnd g => Sys2Proof.Machine.execGroupEnd g s
  | .enqAtDispatcher g => Sys2Proof.Machine.execEnqAtDispatcher g s
  | .serTokenGrant part => Sys2Proof.Machine.execSerTokenGrant part s
  | .serTokenTimeout g => Sys2Proof.Machine.execSerTokenTimeout g s
  | .pageWalkComplete tile part va kind sp => Sys2Proof.Machine.execPageWalkComplete tile part va kind sp s
  | .faultRecordPost part stage => Sys2Proof.Machine.execFaultRecordPost part stage s
  | .faultCiAdvance part stage ci => Sys2Proof.Machine.execFaultCiAdvance part stage ci s
  | .heldAccessRetry part fault => Sys2Proof.Machine.execHeldAccessRetry part fault s
  | .sideLogReplay tile core => Sys2Proof.Machine.execSideLogReplay tile core s
  | .classFlushComplete granule => Sys2Proof.Machine.execClassFlushComplete granule s
  | .readMiss tile line => Sys2Proof.Machine.execReadMiss tile line s
  | .ownershipRequest tile line rmw => Sys2Proof.Machine.execOwnershipRequest tile line rmw s
  | .invalidation tile line => Sys2Proof.Machine.execInvalidation tile line s
  | .invalidationAcksDone line => Sys2Proof.Machine.execInvalidationAcksDone line s
  | .l2Eviction line => Sys2Proof.Machine.execL2Eviction line s
  | .rdcEviction tile line => Sys2Proof.Machine.execRdcEviction tile line s
  | .reductionArrival tile pa op ty v => Sys2Proof.Machine.execReductionArrival tile pa op ty v s
  | .writeQueueDrain tile line => Sys2Proof.Machine.execWriteQueueDrain tile line s
  | .atomicAtHome tile pa op ty b c => Sys2Proof.Machine.execAtomicAtHome tile pa op ty b c s
  | .nmoExecute op => Sys2Proof.Machine.execNmoExecute op s
  | .sloeWindowEnd page => Sys2Proof.Machine.execSloeWindowEnd page s
  | .sramError tile hit => Sys2Proof.Machine.execSramError tile hit s
  | .powerGate tile u => Sys2Proof.Machine.execPowerGate tile u s
  | .powerWakeDone tile u => Sys2Proof.Machine.execPowerWakeDone tile u s
  | .copyChunkDone op chunk => Sys2Proof.Machine.execCopyChunkDone op chunk s
  | .lossyDeadline op => Sys2Proof.Machine.execLossyDeadline op s
  | .collCallStart call => Sys2Proof.Machine.execCollCallStart call s
  | .collBlockClose call block arrived lostTo => Sys2Proof.Machine.execCollBlockClose call block arrived lostTo s
  | .cpycbSlotAcquire op => Sys2Proof.Machine.execCpycbSlotAcquire op s
  | .matrixKstep tile core => Sys2Proof.Machine.execMatrixKstep tile core s
  | .matrixEngineReset tile core => Sys2Proof.Machine.execMatrixEngineReset tile core s
  | .tailWrite part q lv v => Sys2Proof.Machine.execTailWrite part q lv v s
  | .qbaddWrite part q v => Sys2Proof.Machine.execQbaddWrite part q v s
  | .queueControlWrite part q off v => Sys2Proof.Machine.execQueueControlWrite part q off v s
  | .queueDisable part q => Sys2Proof.Machine.execQueueDisable part q s
  | .recordTake part => Sys2Proof.Machine.execRecordTake part s
  | .eventPoll part task => Sys2Proof.Machine.execEventPoll part task s
  | .taskStarvation part task => Sys2Proof.Machine.execTaskStarvation part task s
  | .launchStart part task => Sys2Proof.Machine.execLaunchStart part task s
  | .windowRelocation g base => Sys2Proof.Machine.execWindowRelocation g base s
  | .launchCompletion launch => Sys2Proof.Machine.execLaunchCompletion launch s
  | .fastPreemption part task => Sys2Proof.Machine.execFastPreemption part task s
  | .slotFreeze tile core slot => Sys2Proof.Machine.execSlotFreeze tile core slot s
  | .ctxSave part ctx area => Sys2Proof.Machine.execCtxSave part ctx area s
  | .ctxRestore part ctx area => Sys2Proof.Machine.execCtxRestore part ctx area s
  | .dirtyLogOn part => Sys2Proof.Machine.execDirtyLogOn part s
  | .harvest part area => Sys2Proof.Machine.execHarvest part area s
  | .migrationStop part ctx area => Sys2Proof.Machine.execMigrationStop part ctx area s
  | .exportFrame part area => Sys2Proof.Machine.execExportFrame part area s
  | .importFrame part area => Sys2Proof.Machine.execImportFrame part area s
  | .dirtyLogOff part => Sys2Proof.Machine.execDirtyLogOff part s
  | .flr part => Sys2Proof.Machine.execFlr part s
  | .tilePredictedFailure tile array => Sys2Proof.Machine.execTilePredictedFailure tile array s
  | .tileFailure tile => Sys2Proof.Machine.execTileFailure tile s
  | .s2cmdInvalidateIpa part ipa => Sys2Proof.Machine.execS2cmdInvalidateIpa part ipa s
  | .s2cmdInvalidateAll part => Sys2Proof.Machine.execS2cmdInvalidateAll part s
  | .s2InvalidationDone part => Sys2Proof.Machine.execS2InvalidationDone part s
  | .stlbiDone g => Sys2Proof.Machine.execStlbiDone g s
  | .s2cmdMigrateIn part ipa => Sys2Proof.Machine.execS2cmdMigrateIn part ipa s
  | .frameMoveDone part => Sys2Proof.Machine.execFrameMoveDone part s
  | .accessCountThreshold part region => Sys2Proof.Machine.execAccessCountThreshold part region s
  | .nqciWrite part v => Sys2Proof.Machine.execNqciWrite part v s
  | .frameTick => Sys2Proof.Machine.execFrameTick s
  | .pcarveTakeEffect part tile => Sys2Proof.Machine.execPcarveTakeEffect part tile s
  | .partitionCreate part area => Sys2Proof.Machine.execPartitionCreate part area s
  | .partitionDestroy part => Sys2Proof.Machine.execPartitionDestroy part s
  | .partitionGrow part area => Sys2Proof.Machine.execPartitionGrow part area s
  | .partitionShrink part area => Sys2Proof.Machine.execPartitionShrink part area s
  | .partitionCompact part area => Sys2Proof.Machine.execPartitionCompact part area s
  | .packetDelivery p => Sys2Proof.Machine.execPacketDelivery p s
  | .dropWindowClose tile => Sys2Proof.Machine.execDropWindowClose tile s
  | .rekeyRequest part pf => Sys2Proof.Machine.execRekeyRequest part pf s
  | .rekeyExecute part => Sys2Proof.Machine.execRekeyExecute part s
  | .portEnable port => Sys2Proof.Machine.execPortEnable port s
  | .portDisable port => Sys2Proof.Machine.execPortDisable port s
  | .portRetrain port => Sys2Proof.Machine.execPortRetrain port s
  | .trainingDone port r => Sys2Proof.Machine.execTrainingDone port r s
  | .trainingTimeout port => Sys2Proof.Machine.execTrainingTimeout port s
  | .waferidWrite v => Sys2Proof.Machine.execWaferidWrite v s
  | .exportHandleWrite part h second v => Sys2Proof.Machine.execExportHandleWrite part h second v s
  | .fabricRequest part wafer srcPart handle off op => Sys2Proof.Machine.execFabricRequest part wafer srcPart handle off op s
  | .flitReceive port seq exact crcOk => Sys2Proof.Machine.execFlitReceive port seq exact crcOk s
  | .replayRequest port seq => Sys2Proof.Machine.execReplayRequest port seq s
  | .laserLoss port laser => Sys2Proof.Machine.execLaserLoss port laser s
  | .lossOfLightDetect port laser own => Sys2Proof.Machine.execLossOfLightDetect port laser own s
  | .restripe port laser own => Sys2Proof.Machine.execRestripe port laser own s
  | .fabricBarrierSymbol part id rank release => Sys2Proof.Machine.execFabricBarrierSymbol part id rank release s
  | .lockInterfaceRequest m => Sys2Proof.Machine.execLockInterfaceRequest m s
  | .startInterfaceRequest m => Sys2Proof.Machine.execStartInterfaceRequest m s
  | .stopInterfaceRequest m => Sys2Proof.Machine.execStopInterfaceRequest m s
  | .keyExchange m => Sys2Proof.Machine.execKeyExchange m s
  | .challenge m nonce => Sys2Proof.Machine.execChallenge m nonce s
  | .getMeasurements m index raw => Sys2Proof.Machine.execGetMeasurements m index raw s
  | .ideKmKeyProg m key => Sys2Proof.Machine.execIdeKmKeyProg m key s
  | .fwAck m digest => Sys2Proof.Machine.execFwAck m digest s
  | .tvecWrite part v => Sys2Proof.Machine.execTvecWrite part v s
  | .bindFabricImport part area => Sys2Proof.Machine.execBindFabricImport part area s
  | .stageFirmware area sigOk => Sys2Proof.Machine.execStageFirmware area sigOk s
  | .activateFirmware => Sys2Proof.Machine.execActivateFirmware s
  | .discardStaged => Sys2Proof.Machine.execDiscardStaged s
  | .lifeCycleTransition area authOk => Sys2Proof.Machine.execLifeCycleTransition area authOk s
  | .establishMigrationKey part area => Sys2Proof.Machine.execEstablishMigrationKey part area s
  | .retireMigrationKey part => Sys2Proof.Machine.execRetireMigrationKey part s
  | .usageRecordPeriodic => Sys2Proof.Machine.execUsageRecordPeriodic s
  | .ringCiWrite part ring ci => Sys2Proof.Machine.execRingCiWrite part ring ci s
  | .hostMemoryAccess pa write n => Sys2Proof.Machine.execHostMemoryAccess pa write n s
  | .moduleReset => Sys2Proof.Machine.execModuleReset s
  | .thermalTrip cause => Sys2Proof.Machine.execThermalTrip cause s
  | .powerTripTimeout => Sys2Proof.Machine.execPowerTripTimeout s
  | .clockThrottle mhz => Sys2Proof.Machine.execClockThrottle mhz s
  | .registerWrite space part off v => Sys2Proof.Machine.execRegisterWrite space part off v s
  | .pschedTakeEffect tile core => Sys2Proof.Machine.execPschedTakeEffect tile core s
  | .linkAcknowledgement port seq => Sys2Proof.Machine.execLinkAcknowledgement port seq s
  | .migrationKeyMessage m peer => Sys2Proof.Machine.execMigrationKeyMessage m peer s

end Sys2Proof.Machine
end

