-- ==== Sys2Proof/Machine/Select.lean ====
section
/-!
DEFINITION. Whose turn it is: the words of a core's cycle, the events that have fallen due, and the order in which the machine takes
them (spec 01 R19 to R22, R44, R45; 08 R191; 16 R357; notes/assumptions/1.md).
-/

namespace Sys2Proof.Machine

/-! ### What a word needs, and its guard (01 R21; 02 R49, R58) -/

/-- Units that R21 shares out. -/
inductive IssueUnit where
  | scalar | memory | engine
  deriving DecidableEq, Repr

def scalarDst (w : Nat) : Bool := match dstOfBits (w / 2 ^ 69 % 1024) with | some (.sca _ _) => true | _ => false

/-- The unit that a word needs, none for most vector words (04 R99; 06 R147; 07 R159, R173, R178; 08 R184; 09 R206; 10 R226,
R237; 11 R264; 12 R284). -/
def unitOf (w : Nat) : Option IssueUnit :=
  let fn := wordFn w
  match wordOp w with
  | 0x00 | 0x01 | 0x3E | 0x31 | 0x3C => some .scalar
  | 0x1C => if fn = 2 || ((fn == 1 || fn == 5) && scalarDst w) then some .scalar else none
  | 0x22 => some .memory
  | 0x25 => if fn = 0x20 then some .scalar else if decide (fn < 8) && scalarDst w then some .memory else none
  | 0x2C => if fn = 8 then some .memory else none
  | 0x2D | 0x30 => some .engine
  | 0x34 => if fn = 5 then some .scalar else some .engine
  | 0x38 =>
    if fn = 2 || fn = 3 then (if scalarDst w then some .scalar else none)
    else if fn = 8 then (match srcOfBits (w / 2 ^ 59 % 1024) with
      | some (.sreg _) | some (.latch _) => some .scalar
      | _ => none)
    else none
  | 0x39 => if fn = 9 then some .scalar else none
  | 0x3D => if fn = 6 then some .scalar else none
  | _ => none

def wordChn (w : Nat) : Bool := if wordOp w = 0x3E then bitN w 0 else bitN w 12
/-- Did a word carry YH (16 R357)? -/
def wordYh (w : Nat) : Bool := wordOp w != 0x3E && bitN w 4

/-! ### A word issues group by group -/

/-- Does some lane pass the word's guard? -/
def someActive (s : State) (pc : BitVec 64) (w : Nat) (lanes : FMap (List Nat)) : Bool :=
  lanes.any (fun e => match s.groups.look e.1 with
    | some G => !(passing G (readyAt s e.1 G e.2 pc) (wordGuard w)).isEmpty
    | none => false)

/-- Lanes that issue count a cycle towards the watchdog: of the groups given, those that nothing holds (01 R45). -/
def countWatch (s : State) (lanes : FMap (List Nat)) (gs : List Nat) : State :=
  (lanes.filter (fun e => gs.contains e.1)).foldl (fun s e => s.updGroup e.1 (fun G => G.updLanes e.2 (fun _ l =>
    if l.block = .free then { l with wd := l.wd + 1 } else l))) s

/-- The second word of a cycle does not issue: the lanes of the first have issued while its PC-set was ready (01 R21, R45). -/
def dropSecond (s : State) (u : Cur) : State :=
  { (if u.waiting then s else countWatch s u.lanes (u.lanes.keys.filter (fun g => !u.trapped.contains g))) with cur := none }

/-- Did the first word open a region in a group of the second one's lanes (09 R207)? -/
def regionOpened (s : State) (lanes : FMap (List Nat)) : Bool :=
  lanes.any (fun e => match (s.groups.look e.1).bind Group.region with | some r => r.start == s.clock | none => false)

/-- Does a second word compete for the unit of the first (01 R21)? -/
def clashes21 (v w : Nat) : Bool := (unitOf v).isSome && unitOf v == unitOf w

/-- A word's fetch for each of its groups, in order, but for those that trapped in the first word: the groups whose fetch came, the word,
and every group that has trapped. -/
def fetchAll (s : State) (pc : BitVec 64) (lanes : FMap (List Nat)) (trapped : List Nat) : State × List Nat × Nat × List Nat :=
  (lanes.filter (fun e => !trapped.contains e.1)).foldl (fun (r : State × List Nat × Nat × List Nat) e =>
    match fetchFor r.1 e.1 e.2 pc with
    | (s1, some w, _) => (s1, r.2.1 ++ [e.1], w, r.2.2.2)
    | (s1, none, t) => (s1, r.2.1, r.2.2.1, if t then e.1 :: r.2.2.2 else r.2.2.2)) (s, [], 0, trapped)

/-- The slot's ready-since time after a word: one cycle later where the word carried YH (16 R357). -/
def noteYh (s : State) (tile core slot w : Nat) : State :=
  s.updCore tile core (fun c => { c with since := c.since.setAt slot (if wordYh w then s.clock + 1 else s.clock) })

/-- The lanes that a word is selected for are no longer blocked: what blocked them has ended. -/
def freeLanes (s : State) (lanes : FMap (List Nat)) : State :=
  lanes.foldl (fun s e => s.updGroup e.1 (fun G => G.updLanes e.2 (fun i l => if laneReady s e.1 { G with stall := none } i then { l with block := .free } else l))) s

/-- The yielded lanes of a word's lanes, with their debts, which a word that is turned away leaves as they are (01 R44). -/
def yieldsOf (s : State) (lanes : FMap (List Nat)) : List (Nat × Nat × List Nat) :=
  lanes.flatMap (fun e => match s.groups.look e.1 with
    | some G => e.2.filterMap (fun i => (G.lane? i).bind (fun l => l.yielded.map (fun d => (e.1, i, d))))
    | none => [])

/-- A cycle's first word begun: the groups whose fetch came issue it. -/
def beginWord (s : State) (tile core slot : Nat) (pc : BitVec 64) (lanes : FMap (List Nat)) (waiting : Bool)
    (next : Option (BitVec 64 × FMap (List Nat))) : State :=
  match fetchAll s pc lanes [] with
  | (s1, g :: gs, w, tr) =>
    let s2 := noteYh (if waiting then countWatch (freeLanes s1 lanes) lanes (g :: gs) else s1) tile core slot w
    { s2 with cur := some {
        tile, core, slot, pc, word := w, g, todo := gs, lanes, anyAct := someActive s2 pc w lanes, second := false, waiting, next, trapped := tr,
        yields := yieldsOf s lanes } }
  | (s1, [], _, _) => { s1 with cur := none }

/-- A cycle's second word begun, unless it competes with the first or holds lanes of a group that the first opened a region in. -/
def beginSecond (s : State) (u : Cur) (pc : BitVec 64) (lanes : FMap (List Nat)) : State :=
  if regionOpened s lanes then dropSecond s u
  else
    match fetchAll s pc lanes u.trapped with
    | (s1, g :: gs, w, tr) =>
      if clashes21 u.word w then dropSecond s1 u
      else
        let s2 := noteYh (if u.waiting then countWatch (freeLanes s1 lanes) lanes (g :: gs) else s1) u.tile u.core u.slot w
        { s2 with cur := some { u with
            pc, word := w, g, todo := gs, lanes, anyAct := someActive s2 pc w lanes, second := true, next := none, trapped := tr,
            yields := yieldsOf s lanes } }
    | (s1, [], _, _) => dropSecond s1 u

/-- The turn of the word's next group, or of the second word of the cycle. -/
def advance (s : State) : State :=
  match s.cur with
  | none => s
  | some u =>
    match u.todo with
    | g :: gs => { s with cur := some { u with g, todo := gs } }
    | [] =>
      match u.second, u.next with
      | false, some (pc, lanes) => beginSecond s u pc lanes
      | _, _ => { s with cur := none }

/-- An illegal word issues for a group: 0x01 where some lane is active, once any report that is due has been made; no lane
active, it passes through (02 R62), or aborts the region that it stands in (09 R211). -/
def issueIllegal (s : State) (u : Cur) : State :=
  match s.groups.look u.g with
  | none => s
  | some G0 =>
    let iss := issuing s u.g G0 u
    if iss.isEmpty then s
    else
      let G1 := beginLanes G0 iss
      match dueReport G1 iss with
      | some (t, G2) => trapIssue (s.setGroup u.g G2) { u, g := u.g, G := G2, iss, act := [] } t
      | none =>
        if (passing G1 iss (wordGuard u.word)).isEmpty then
          (match admission G1 [] {} with
            | some (cause, idx, code) => abortRegion (s.setGroup u.g G1) u.g cause idx code
            | none => s.setGroup u.g (retireLanes G1 iss u.pc (wordChn u.word) []))
        else trapIssue (s.setGroup u.g G1) { u, g := u.g, G := G1, iss, act := [] } { code := 0x01 }

/-- The turn of the word being issued: the instruction that exec is to run, none when the word is illegal. -/
def wordTurn (s : State) (u : Cur) : State × Option Instr :=
  match decode (wordBytes u.word) with
  | .ok (i, _) => (s, some i)
  | .error _ => (advance (issueIllegal s u), none)

/-! ### A core's turn (01 R20, R44, R45; 16 R357) -/

/-- Lanes that have stopped being ready lose their watchdog count (01 R45). -/
def restWatch (s : State) (g : Nat) (G : Group) : Group :=
  { G with lanes := G.lanes.mapIdx (fun i l => if (l.wd != 0 || l.wdDue) && !laneReady s g G i then { l with wd := 0, wdDue := false } else l) }

/-- RA cleared where one PC-set at it holds every live lane (08 R191). -/
def meetRa (s : State) (g : Nat) (G : Group) : Group :=
  match G.ra with
  | none => G
  | some a => if G.live.all (fun i => laneReady s g G i && G.laneTest i (fun l => l.pc == a)) then { G with ra := none } else G

/-- A slot selected is a debt paid (01 R44). -/
def noteSelected (s : State) (tile core slot : Nat) : State :=
  { s with groups := s.groups.mapV (fun _ G =>
      if G.tile = tile ∧ G.core = core then
        { G with lanes := G.lanes.map (fun l =>
            match l.yielded with
              | some d => if d.isEmpty then l else { l with yielded := some (d.filter (· != slot)) }
              | none => l) }
      else G) }

/-- What a core's cycle finds: watchdog counts, RA and waits as they stand. -/
def settleCore (s0 : State) (tile core : Nat) : State :=
  let s1 := { s0 with groups := s0.groups.mapV (fun g G =>
    if G.tile = tile ∧ G.core = core then markWaits s0 g G else G) }
  { s1 with groups := s1.groups.mapV (fun g G =>
    if G.tile = tile ∧ G.core = core then meetRa s1 g (restWatch s1 g G) else G) }

/-- A core's turn in a cycle: one slot is selected, and its first word begins. -/
def coreTurn (s0 : State) (tile core : Nat) : State :=
  let s := settleCore s0 tile core
  let since := sinceNow (s.coreAt tile core) s.clock (openSlots s tile core)
  let s1 := if since = (s.coreAt tile core).since then s else s.updCore tile core (fun c => { c with since })
  match choose s tile core since with
  | none => s1
  | some q =>
    let s2 := (noteSelected s1 tile core q.slot).updCore tile core (fun c => { c with last := q.slot, since := c.since.setAt q.slot s.clock })
    beginWord s2 tile core q.slot q.first.pc q.first.lanes q.waiting q.next

/-! ### Events that have fallen due -/

/-- An event that is listed when c holds. -/
def when (c : Bool) (i : Instr) : List Instr := if c then [i] else []

/-- What may end a lane's wait or raise its watchdog. -/
def laneDue (s : State) (g : Nat) (G : Group) (i : Nat) : List Instr :=
  match G.lane? i with
  | none => []
  | some l =>
    let w := when (!l.wdDue && decide (2 ^ (s.coreAt G.tile G.core).wdlog ≤ l.wd)) (.watchdogExpiry g i)
    match l.block with
    | .sleep _ => .sleepWake g i :: w
    | .stlbi => .stlbiDone g :: w
    | _ => w

/-- Events of one group. -/
def groupDue (s : State) (g : Nat) (G : Group) : List Instr :=
  List.flatten [
    when G.stall.isSome (.stallExpiry g),
    (G.sb.filter (fun e => e.2 != 0)).map (fun e => .resultWriteback g e.1),
    ((List.range 4).filter (fun k => G.counter k != 0)).map (fun k => .engineCompletion g k),
    (List.range G.lanes.length).flatMap (laneDue s g G),
    when G.shrnk.isSome (.shrnkRelease g),
    when G.enq.isSome (.enqAtDispatcher g),
    when (match G.region with | some r => r.ser | none => false) (.serTokenTimeout g),
    when (groupOver s g G) (.groupEnd g)]

/-- Barriers of a launch whose phase may be complete, as domain, unit and id: those that lanes have reached, and every fabric barrier of a
launch of the fabric job, whose exited lanes count too (19 R407). -/
def openBarriers (s : State) (lid : Nat) (L : Launch) : List (Nat × Nat × Nat) :=
  let fab := match L.fabric, s.parts.look L.part with
    | some _, some P => (List.range (L.rc.bars.getD 3 0)).map (fun i => (5, fjobRank P, i))
    | _, _ => []
  (fab ++ (s.groups.filter (fun e => e.2.launch == lid)).flatMap (fun e =>
    e.2.lanes.flatMap (fun l => l.arr.map (fun q => (q.1 / 16, L.rc.barUnit (q.1 / 16) e.2.lin, q.1 % 16))))).dedup

def launchDue (s : State) (lid : Nat) (L : Launch) : List Instr :=
  List.flatten [(openBarriers s lid L).map (fun q => .barrierPhaseComplete lid q.1 q.2.1 q.2.2), [.launchCompletion lid]]

def coreDue (s : State) (k : Nat) (c : Core) : List Instr :=
  let t := k / 4
  let i := k % 4
  let grows := s.groups.any (fun e => e.2.tile == t && e.2.core == i && e.2.grow.isSome)
  List.flatten [
    when (!c.slog.isEmpty) (.sideLogReplay t i),
    c.freezing.map (fun sl => .slotFreeze t i sl),
    when grows (.growDeadlockResolve t i),
    when grows (.growGrant t i)]

/-- PSCHED takes effect on a core where no lane of the partition is issuing. -/
def partCores (s : State) (P : Part) : List Instr :=
  P.tiles.flatMap (fun t => ((List.range 4).filter (fun k => (s.coreAt t k).wdlog != P.wdlog)).map (fun k => .pschedTakeEffect t k))

/-- The first block of a lossy copy that is not settled. -/
def openBlock (o : EngOp) : Nat :=
  ((List.range (blockCount o)).find? (fun j => !(o.done.contains (4 * j) && o.done.contains (4 * j + 1)))).getD 0

def opDue (s : State) (n : Nat) (o : EngOp) : List Instr :=
  if o.fin then []
  else if o.kind < 4 then List.flatten [when (o.kind == 2 && o.slot.isNone) (.cpycbSlotAcquire n), [.copyChunkDone n ⟨firstOpen o (chunkCount s o), false⟩]]
  else if o.kind = 0x20 ∨ o.kind = 0x21 then [.copyChunkDone n ⟨openBlock o, false⟩, .lossyDeadline n]
  else if 0x200 ≤ o.kind then [.nmoExecute n]
  else if 0x100 ≤ o.kind then [.matrixKstep o.tile o.core, .matrixEngineReset o.tile o.core]
  else []

def callDue (s : State) (c : Nat) (q : Call) : List Instr :=
  match q.start with
  | none => [.collCallStart c]
  | some _ =>
    match memberOf s q 0 with
    | none => []
    | some (_, o) =>
      match (List.range (o.word 2 / 256)).find? (fun b => !q.closed.contains b) with
      | some b => [.collBlockClose c b (List.range q.n) []]
      | none => []

def tileDue (s : State) (t : Nat) (x : Tile) : List Instr :=
  List.flatten [
    (x.wq.filter (fun e => decide (e.since + 512 ≤ s.clock))).map (fun e => .writeQueueDrain t e.line),
    x.waking.map (fun u => .powerWakeDone t u),
    when x.drop.isSome (.dropWindowClose t),
    (x.corr.filter (fun e => decide (64 < recentCorr s t e.1))).map (fun e => .tilePredictedFailure t e.1),
    if s.clock % 4096 = 0 then x.sloe.map (fun e => .sloeWindowEnd e.1) else []]

def taskDue (s : State) (p : Nat) (P : Part) (k : Nat) (t : Task) : List Instr :=
  let go := eligible P t
  List.flatten [
    when (waitingTask t && t.rc.evt != 0 && !t.fired && (t.polled == 0 || decide (t.polled + 4095 ≤ s.clock))) (.eventPoll p k),
    when (go && !t.starved && t.overdue s.clock) (.taskStarvation p k),
    when (go || (t.startingIn s).isSome) (.launchStart p k),
    when (go || !(markedCores s P k).isEmpty) (.fastPreemption p k)]

/-- The lower run that a parked window can move to. -/
def lowerRun (s : State) (g : Nat) (G : Group) : Option Instr :=
  let a := areaOf s G
  let others := scratchTaken s G.tile G.core ++ windowsTaken s G.tile G.core [g]
  match firstFit a.1 a.2 others G.winSize with
  | some b => if b < G.win then some (.windowRelocation g b) else none
  | none => none

/-- Parked windows that can move while some task of the partition cannot be placed (16 R356). -/
def relocations (s : State) (p : Nat) (P : Part) : List Instr :=
  if P.tasks.any (fun e => eligible P e.2 && (planNow s p P e.2.rc e.2.map? false).isNone) then
    (s.groups.filter (fun e => P.tiles.contains e.2.tile && parked s e.1 e.2 && !e.2.frozen)).filterMap (fun e => lowerRun s e.1 e.2)
  else []

/-- The stage-1 queue's CI as its runtime has advanced it. -/
def s1Advance (s : State) (p : Nat) (P : Part) : List Instr :=
  if P.s1Open.isEmpty then []
  else match s1Ci s p P with
    | (_, some c) => when (c != P.s1ci) (.faultCiAdvance p 1 c)
    | _ => []

def partDue (s : State) (p : Nat) (P : Part) : List Instr :=
  List.flatten [
    when (P.token.isNone && !P.tokenQ.isEmpty) (.serTokenGrant p),
    [.faultRecordPost p 1, .faultRecordPost p 2],
    s1Advance s p P,
    when (!P.appended.isEmpty || P.tasks.any (fun e => e.2.fin.isSome)) (.recordTake p),
    (P.tiles.filter (fun t => (s.tileAt t).carve != P.pcarve)).map (fun t => .pcarveTakeEffect p t),
    P.tasks.flatMap (fun e => taskDue s p P e.1 e.2),
    relocations s p P,
    when P.s2busy (.s2InvalidationDone p),
    when P.move.isSome (.frameMoveDone p),
    (P.act.filter (fun e => e.2.note.isSome)).map (fun e => .accessCountThreshold p e.1),
    partCores s P]

/-- The next event of a laser failure. -/
def lossDue (s : State) (k : Nat) (l : LightLoss) : List Instr :=
  if l.seen then when (decide (l.ends.getD (l.time + 512) ≤ s.clock)) (.restripe k l.laser l.own)
  else when (l.own && decide (l.time + 3500 ≤ s.clock)) (.lossOfLightDetect k l.laser true)

def portDue (s : State) (k : Nat) (x : Port) : List Instr :=
  List.flatten [when (x.st == 1) (.trainingTimeout k), x.loss.flatMap (lossDue s k),
    (if x.up && x.loss.isEmpty then (x.replayBuf.getLast?.map (Instr.linkAcknowledgement k)).toList else [])]

/-- A line that waits for acknowledgements. -/
def dirDue (line : Nat) (d : DirEnt) : List Instr :=
  if d.pend.isSome then List.flatten [d.acks.map (fun t => .invalidation t line), [.invalidationAcksDone line]] else []

/-- Every event that the state gives rise to by itself; most wait for a condition that the event's own meaning tests. -/
def dueEvents (s : State) : List Instr :=
  List.flatten [
    s.groups.flatMap (fun e => groupDue s e.1 e.2), s.launches.flatMap (fun e => launchDue s e.1 e.2),
    s.cores.flatMap (fun e => coreDue s e.1 e.2), s.ops.flatMap (fun e => opDue s e.1 e.2),
    s.calls.flatMap (fun e => callDue s e.1 e.2), s.tiles.flatMap (fun e => tileDue s e.1 e.2),
    s.parts.flatMap (fun e => partDue s e.1 e.2), s.ports.flatMap (fun e => portDue s e.1 e.2),
    (s.classes.filter (fun e => e.2.flush.isSome)).map (fun e => .classFlushComplete e.1),
    s.dir.flatMap (fun e => dirDue e.1 e.2)]

/-- Does an event change the state? -/
def acts (s : State) (i : Instr) : Bool :=
  match exec i s with
  | .next t => decide (t ≠ s)
  | _ => true

/-- The state after a drain that ends, of the first partition where one does (17 R366). -/
def drainTurn (s : State) : Option State :=
  (s.parts.filter (fun e => !e.2.pend.isEmpty)).findSome? (fun e =>
    let t := finishDrain s e.1
    if t = s then none else some t)

/-- The state after a held request that can go on (18 R392; 19 R401). -/
def heldTurn (s : State) : Option State :=
  (s.parts.filter (fun e => !e.2.heldReqs.isEmpty)).findSome? (fun e =>
    e.2.heldReqs.findSome? (fun r =>
      let t := retryReq s e.1 r
      if t = s then none else some t))

/-- The state after an edge resource has taken its next packet (18 R384). -/
def edgeTurn (s : State) : Option State := s.edges.findSome? (fun e => edgeServe s e.1 e.2)

/-! ### The turns of a cycle (log 1) -/

/-- Tasks that have become eligible in this cycle (16 R353). -/
def markSince (P : Part) (clock : Nat) : Part :=
  if P.tasks.any (fun e => eligible P e.2 && e.2.since.isNone) then
    { P with tasks := P.tasks.mapV (fun _ t => if eligible P t && t.since.isNone then { t with since := some clock } else t) }
  else P

/-- The next cycle: the clock advances, and what falls on its count goes to the agenda (20 R422). -/
def nextCycle (s : State) : State :=
  let c := s.clock + 1
  { s with
    clock := c, cursor := 0, parts := s.parts.mapV (fun _ P => markSince P c)
    agenda := s.agenda ++ (if c % 2 ^ 20 = 0 then [.event .frameTick] else []) ++
      (if c % 2 ^ 31 = 0 then [.event .usageRecordPeriodic] else []) }

/-- Cores that hold groups. -/
def busyCores (s : State) : List Nat := (s.groups.map (fun e => 4 * e.2.tile + e.2.core)).dedup

/-- The next core of this cycle. -/
def nextCore (s : State) : Option Nat :=
  ((busyCores s).filter (fun k => decide (s.cursor ≤ k))).foldl (fun (b : Option Nat) k =>
    match b with | some c => some (min c k) | none => some k) none

/-- A core's turn: its word begins, and issues for its first group. -/
def issueTurn (s : State) (tile core : Nat) : State × Option Instr :=
  let s1 := coreTurn s tile core
  match s1.cur with
  | some u => wordTurn s1 u
  | none => (s1, none)

/-- The turn of core k (4 × tile + core) in this cycle. -/
def coreIssue (s : State) (k : Nat) : State × Option Instr := issueTurn { s with cursor := k + 1 } (k / 4) (k % 4)

/-- The turn that follows when no word is being issued and the agenda is empty. -/
def freeTurn (s : State) : State × Option Instr :=
  match drainTurn s with
  | some t => (t, none)
  | none =>
    match heldTurn s with
    | some t => (t, none)
    | none =>
      match edgeTurn s with
      | some t => (t, none)
      | none =>
        match (dueEvents s).find? (acts s) with
        | some i => (s, some i)
        | none =>
          match nextCore s with
          | some k => coreIssue s k
          | none => (nextCycle s, none)

/-- The instruction or event of the next step, with the state it runs in. -/
def nextTurn (s : State) : State × Option Instr :=
  match s.cur with
  | some u => wordTurn s u
  | none =>
    match s.agenda with
    | .event i :: l => ({ s with agenda := l }, some i)
    -- a core that has had its turn issues in the next cycle: every core selects once a cycle (04 R113; 16 R357)
    | .issue t k :: l => if 4 * t + k < s.cursor then (nextCycle s, none) else coreIssue { s with agenda := l } (4 * t + k)
    | [] => freeTurn s

/-- After a trip the module is held in reset: only the power-cycle's reset goes on (20 R427). -/
def heldDown (s : State) : Bool := s.tripped && s.agenda.head? != some (.event .moduleReset)

/-- What a step adds after the instruction: the word's next group has its turn. -/
def afterTurn (_ : Instr) (s : State) : State := advance s

/-! ### A word in place (log 1) -/

/-- A launch of one group of eight lanes, at K, with every declared resource. -/
def placedRec (entry : BitVec 64) : Rec :=
  { ver := 1, flags := 0, cls := 0, prio := 0, entry, argva := 0, argsz := 0, wcode := 0, levels := [⟨8, 0, 0⟩, ⟨1, 2, 1⟩, ⟨1, 3, 2⟩, ⟨1, 4, 3⟩],
    v := 256, t := 8, bars := [16, 16, 8, 0], scr := 65536, tmb := 65536, pmapva := 0, ranges := List.replicate 8 (0, 0), cva := 0, cval := 0,
    cost := 0, evt := 0 }

def placedVa : Nat := 0x1000
def placedPa : Nat := 0x40000000
/-- Addresses of the stage-2 tables. -/
def placedRoot : Nat := 0x40100000
def placedTable : Nat := 0x40101000

/-- The state whose next step issues the word: partition 0 on tile 0 with one group at the word. -/
def placeWord (s : State) (nbits w : Nat) : State :=
  let e := BitVec.ofNat 64 placedVa
  let r := placedRec e
  let P := { (Part.fresh 1 [0] 0 0) with homes := (List.range 32).map (fun i => (i, 0)), s2root := placedRoot }
  let L : Launch :=
    { part := 0, q := 0, level := 0, seq := 0, rc := r, args := [], tm := [⟨0, 0, 0, 0, 65536⟩], scr := [⟨0, 0, 0, 1179648, 65536⟩],
      slots := [(0, 0, 0)], cbars := [(0, 0, 16)], tbars := [(0, 16)], phase := [], halt := none, engErr := none, times := [], fabric := none,
      calls := [], reserve := false, startSeq := 0, starting := false, ended := [] }
  let G := Group.start 0 0 r { lin := 0, tile := 0, core := 0, slot := 0, pos := 0, win := 0 }
  let t := { s with parts := [(0, P)], launches := [(0, L)], groups := [(1, G)], ops := [], calls := [], agenda := [.issue 0 0], cursor := 0, cur := none,
                    tripped := false, nextId := 2, cores := [], tiles := [], classes := [], dir := [], mem := [], poison := [] }
  let t1 := t.writeN placedRoot 8 (placedTable + 1)
  let t2 := t1.writeN placedTable 8 (placedPa + 3 + 7 * 2 ^ 60)
  t2.writeN (placedPa + placedVa) 12 (w % 2 ^ nbits)

end Sys2Proof.Machine
end

