-- ==== Sys2Proof/Machine/Step.lean ====
section
/-!
DEFINITION. One step of the machine: one word for one group, or one event (notes/assumptions/1.md).
-/

namespace Sys2Proof.Machine

/-- One step: whose turn it is, its instruction or event, and what follows. After a trip the module is held in reset (20 R427). -/
def step (s : State) : Host.Outcome State Fault Refusal :=
  if heldDown s then .fault .heldInReset
  else
    match nextTurn s with
    | (t, none) => .next t
    | (t, some i) =>
      match exec i t with
      | .next u => .next (afterTurn i u)
      | .fault f => .fault f
      | .refused r => .refused r

/-- The state whose next step issues the word as a program's first instruction. -/
def State.withFetchWord (s : State) (nbits w : Nat) : State := placeWord s nbits w

end Sys2Proof.Machine
end

