-- ==== Sys2Proof/Safety.lean ====
section
/-!
DEFINITION. What claims are stated in: a step that goes on, a word that finds its group ready, and what a word leaves unchanged.
-/

namespace Sys2Proof

/-- Does a destination name vector register k, predicate k, or scalar register k? A null destination and the constant register
name nothing. -/
def Dst.hasV (d : Dst) (wide : Bool) (k : Nat) : Bool :=
  match d with | .vec nw n => !nw && (k == n.toNat || (wide && k == n.toNat + 1)) | _ => false
def Dst.hasP (d : Dst) (k : Nat) : Bool := match d with | .pred nw n => !nw && k == n.toNat && k != 15 | _ => false
def Dst.hasS (d : Dst) (k : Nat) : Bool := match d with | .sca nw n => !nw && k == n.toNat && k != 0 | _ => false

/-- The value that l0 takes of a destination's result (01 R31). -/
def Dst.latched (d : Dst) (wide : Bool) (y : Nat) : DWord :=
  match d with
  | .vec _ _ => BitVec.ofNat 64 (y % 2 ^ (if wide then 64 else 32))
  | .pred _ _ => if y != 0 then 1 else 0
  | _ => BitVec.ofNat 64 y

end Sys2Proof

namespace Sys2Proof.Machine

/-- The machine goes on: the step neither faults nor refuses. -/
def State.goesOn (s : State) : Prop := ∃ t, step s = .next t

/-- Every step of a run of n steps goes on. -/
def State.safeFor : Nat → State → Prop
  | 0, _ => True
  | n + 1, s => ∃ t, step s = .next t ∧ State.safeFor n t

/-! ### A word that executes -/

/-- The word being issued finds its group ready, and nothing of what issue itself checks turns it away: no scoreboard to wait
for (01 R36), no report due (12 R269, R278), an active lane (01 R22), the decode checks passed (02 R62), admitted to an open
region (09 R211) and no poisoned operand (07 R179). Then: what the word sees, and the state it acts on. -/
def ready (c : Ctl) (m : Meta) (s : State) : Option (Ctx × State) :=
  match s.cur with
  | none => none
  | some u =>
    match s.groups.look u.g with
    | none => none
    | some G0 =>
      let iss := issuing s u.g G0 u
      let G1 := beginLanes G0 iss
      let act := passing G1 iss c.guard
      let G2 := countRegion G1
      if iss.isEmpty || (issueWait G0 c u.word).isSome || (dueReport G1 iss).isSome || act.isEmpty ||
          (decodeChecks (s.launchOf G1) G1 iss act c m).isSome || (admission G1 act m).isSome || poisonCheck G2 act m then none
      else some ({ u, g := u.g, G := G2, iss, act }, s.setGroup u.g G2)

/-! ### What a word leaves unchanged -/

/-- Group g goes from G0 to G, and nothing else of the machine changes. -/
structure OnlyGroup (s t : State) (g : Nat) (G0 G : Group) : Prop where
  before : s.groups.look g = some G0
  after : t.groups.look g = some G
  rest : t = { s with groups := t.groups }
  others : ∀ h, h ≠ g → t.groups.look h = s.groups.look h

/-- What belongs to a whole group stays, but for its lanes, its scalar registers, the issue hints and an open region's record. -/
def GroupStays (G0 G : Group) : Prop :=
  G = { G0 with lanes := G.lanes, s := G.s, sPsn := G.sPsn, stall := G.stall, sb := G.sb, region := G.region, arstat := G.arstat }

/-- The hints of a word in its group (01 R36; 02 R57), and an open region's count of its words (09 R211). -/
structure HintsTaken (c : Ctl) (clock : Nat) (G0 G : Group) : Prop where
  stall : G.stall = if stallDelay c.stall = 0 then G0.stall else some (max (G0.stall.getD 0) (clock + 1 + stallDelay c.stall))
  sb : ∀ k, G.sb.lookD 0 k = G0.sb.lookD 0 k + (if c.ssb ≠ 0 ∧ k = c.ssb.toNat then 1 else 0)
  region : G.region.isSome = G0.region.isSome
  arstat : G.arstat = if G0.region.isSome then G0.arstat + BitVec.ofNat 64 (2 ^ 39) else G0.arstat

/-- A lane that executed a word keeps all but its place in the program, its latches, and what a destination may name. -/
def LaneStays (l l' : Lane) : Prop :=
  l' = { l with pc := l'.pc, chain := l'.chain, chainPc := l'.chainPc, block := l'.block, yielded := l'.yielded, lat := l'.lat,
                v := l'.v, vPsn := l'.vPsn, p := l'.p, fflags := l'.fflags, srctr := l'.srctr }

/-- The latches of a lane that executed: l0 takes a value, the others shift (01 R31). -/
def LatchesShift (l l' : Lane) (y : DWord) (psn : Bool) : Prop :=
  l'.lat.l0 = ⟨y, true, psn, false⟩ ∧ l'.lat.l1.val = l.lat.l0.val ∧ l'.lat.l2.val = l.lat.l1.val ∧ l'.lat.l3.val = l.lat.l2.val

/-- An active lane takes a result: the registers or the predicate that the destination names (02 R50), and l0. -/
structure LaneTakes (l l' : Lane) (d : Dst) (wide : Bool) (y : Nat) (psn : Bool) : Prop where
  vec : ∀ n, d = .vec false n → l'.vreg n.toNat = BitVec.ofNat 32 y ∧ l'.vpsn n.toNat = psn
  pair : ∀ n, d = .vec false n → wide = true →
    l'.vreg (n.toNat + 1) = BitVec.ofNat 32 (y / 2 ^ 32) ∧ l'.vpsn (n.toNat + 1) = psn
  pred : ∀ n, d = .pred false n → n ≠ 15 → l'.pred n.toNat = (y != 0)
  latch : (∀ n, d ≠ .acc n) → LatchesShift l l' (d.latched wide y) (psn && !d.isPred)

/-- The lanes of the group after a word: those outside the issuing set as they were, those in it past the word or at the target
of a transfer (02 R47; 08 R185), a lane that did not execute with all its registers, and an active one with those that the
destination does not name. -/
structure LanesMoved (x : Ctx) (G0 G : Group) (d : Dst) (wide : Bool) (npc : Nat → BitVec 64) : Prop where
  outside : ∀ i, i ∉ x.iss → G.lane? i = G0.lane? i
  moved : ∀ i ∈ x.iss, ∃ l l', G0.lane? i = some l ∧ G.lane? i = some l' ∧ l'.pc = npc i ∧ LaneStays l l'
  idle : ∀ i ∈ x.iss, i ∉ x.act → ∀ l l', G0.lane? i = some l → G.lane? i = some l' →
    l'.v = l.v ∧ l'.vPsn = l.vPsn ∧ l'.p = l.p ∧ l'.fflags = l.fflags ∧ l'.srctr = l.srctr
  kept : ∀ i ∈ x.act, ∀ l l', G0.lane? i = some l → G.lane? i = some l' →
    (∀ k, d.hasV wide k = false → l'.vreg k = l.vreg k) ∧ (∀ k, d.hasP k = false → l'.pred k = l.pred k)

/-- The lane whose value a destination takes in lane i: a scalar register takes that of the lowest-numbered active lane
(04 R98). -/
def Ctx.src (x : Ctx) (d : Dst) (i : Nat) : Nat := match d with | .sca _ _ => x.low | _ => i

/-- The next program counter of a word that transfers no control (02 R47). -/
def Ctx.next (x : Ctx) : Nat → BitVec 64 := fun _ => x.u.pc + 12

/-- A word that has executed in its group and written one destination; `res` gives each lane the environment that its operation
leaves and its value, `psn` the poison mark. Nothing else of the machine changes. -/
def Wrote (c : Ctl) (x : Ctx) (s t : State) (d : Dst) (wide : Bool) (res : Nat → FEnv × Nat) (psn : Nat → Bool)
    (npc : Nat → BitVec 64) : Prop :=
  ∃ G0 G, OnlyGroup s t x.g G0 G ∧ GroupStays G0 G ∧ HintsTaken c s.clock G0 G ∧ LanesMoved x G0 G d wide npc ∧
    (∀ k, G.sreg k = if d.hasS k then BitVec.ofNat 64 (res x.low).2 else G0.sreg k) ∧
    (∀ k, G.spsn k = if d.hasS k then psn x.low else G0.spsn k) ∧
    ∀ i ∈ x.act, ∀ l l', G0.lane? i = some l → G.lane? i = some l' →
      LaneTakes l l' d wide (res (x.src d i)).2 (psn (x.src d i)) ∧
      l'.fflags = l.fflags ||| (res i).1.fl ∧ l'.srctr = (res i).1.ctr

/-! ### Results by instruction -/

/-- A word that writes one destination of its own group: its guard and hints, what its checks need, the destination and whether
it is a pair, what else must hold of its operands, and for each lane the environment left and the value. -/
structure ResultRule where
  ctl : Ctl
  need : Meta
  dst : Dst
  wide : Bool
  ok : Ctx → Bool := fun _ => true
  res : State → Ctx → Nat → FEnv × Nat

/-- A lane's environment as an operation finds it (03 R89). -/
def Ctx.env (x : Ctx) (i : Nat) : FEnv := match x.G.lane? i with | some l => envOf x.G l | none => { key := 0, ctr := 0, fl := 0 }

/-- A scalar instruction (04 R98): one value for the group. -/
def scalarForm (c : Ctl) (d : Dst) (srcs : List Src) (f : Ctx → Nat) : ResultRule :=
  { ctl := c, need := { (({} : Meta).reads false (srcs.map (fun a => (a, false)))).write d false with allow := .yes }, dst := d,
    wide := false, res := fun _ x i => (x.env i, f x) }

/-- The result of w bits extended to 64 (04 R97), of two operands or of one. -/
def scalarForm2 (c : Ctl) (o : OpA) (f : Nat → Nat → Nat → Nat) : ResultRule :=
  scalarForm c o.dst [o.a, o.b] (fun x => extS o.ty (f (tyW o.ty) (sA x o) (sB x o)))
def scalarForm1 (c : Ctl) (o : OpA) (f : Nat → Nat → Nat) : ResultRule :=
  scalarForm c o.dst [o.a] (fun x => extS o.ty (f (tyW o.ty) (sA x o)))

/-- Scalar instructions and their values (04 R101 to R108). -/
def scalarRule : Instr → Option ResultRule
  | .sadd c o => some (scalarForm2 c o iAdd)
  | .ssub c o => some (scalarForm2 c o iSub)
  | .smul c o => some (scalarForm2 c o iMul)
  | .smulh c o => some (scalarForm2 c o (iMulh o.ty.signed))
  | .sdiv c o => some (scalarForm2 c o (iDiv o.ty.signed))
  | .srem c o => some (scalarForm2 c o (iRem o.ty.signed))
  | .sand c o => some (scalarForm2 c o (fun _ => iAnd))
  | .sor c o => some (scalarForm2 c o (fun _ => iOr))
  | .sxor c o => some (scalarForm2 c o (fun _ => iXor))
  | .sandn c o => some (scalarForm2 c o iAndn)
  | .sshl c o => some (scalarForm2 c o iShl)
  | .sshr c o => some (scalarForm2 c o iShr)
  | .ssar c o => some (scalarForm2 c o iSar)
  | .srot c o => some (scalarForm2 c o iRot)
  | .smin c o => some (scalarForm2 c o (iMin o.ty.signed))
  | .smax c o => some (scalarForm2 c o (iMax o.ty.signed))
  | .sclz c o => some (scalarForm1 c o iClz)
  | .spopc c o => some (scalarForm1 c o iPopc)
  | .sbrev c o => some (scalarForm1 c o iBrev)
  | .sext c o => some (scalarForm2 c o (fun w a b => iExt o.ty.signed w a b (o.aux.toNat + 1)))
  | .sins c o => some (scalarForm c o.dst [o.a, o.b, o.c] (fun x => iIns 64 (sA x o) (sB x o) (sC x o) (o.aux.toNat + 1)))
  | .ssel c o => some (scalarForm c o.dst [o.a, o.b] (fun x =>
      extS o.ty (if x.G.laneTest x.low (fun l => l.pred (o.aux.toNat % 16)) then sA x o else sB x o)))
  | .scmp c o => some (scalarForm c o.dst [o.a, o.b] (fun x =>
      (iRel (o.aux.toNat % 16) (valOf o.ty.signed (tyW o.ty) (sA x o)) (valOf o.ty.signed (tyW o.ty) (sB x o))).toNat))
  | .smovi c o => some (scalarForm c o.dst [] (fun _ => sextN 32 64 o.imm.toNat))
  | .smovh c o => some (scalarForm c o.dst [o.a] (fun x => o.imm.toNat * 2 ^ 32 + src64 x o.a % 2 ^ 32))
  | .slea c o => some (scalarForm c o.dst (mSrcs o) (fun x =>
      effAddr (src64 x o.base) (if o.noIdx then 0 else src64 x o.idx) o.scl.toNat o.off.toNat))
  | _ => none

/-- A vector instruction whose lanes compute independently (05 R121). -/
def laneForm (c : Ctl) (d : Dst) (wide : Bool) (srcs : List (Src × Bool)) (f : Ctx → Nat → FEnv → FEnv × Nat) : ResultRule :=
  { ctl := c, need := (({} : Meta).reads true srcs).write d wide, dst := d, wide, res := fun _ x i => f x i (x.env i) }

/-- An integer form: no flag and no draw (05 R128). -/
def plainForm (c : Ctl) (d : Dst) (wide : Bool) (srcs : List (Src × Bool)) (f : Ctx → Nat → Nat) : ResultRule :=
  laneForm c d wide srcs (fun x i v => (v, f x i))
def vecForm2 (c : Ctl) (o : OpA) (f : Nat → Nat → Nat → Nat) : ResultRule :=
  plainForm c o.dst o.ty.is64 [(o.a, o.ty.is64), (o.b, o.ty.is64)] (fun x i => f (tyW o.ty) (vA x i o) (vB x i o))
def vecForm1 (c : Ctl) (o : OpA) (f : Nat → Nat → Nat) : ResultRule :=
  plainForm c o.dst o.ty.is64 [(o.a, o.ty.is64)] (fun x i => f (tyW o.ty) (vA x i o))
/-- A shift: the amount is a 32-bit operand (05 R123). -/
def vecFormS (c : Ctl) (o : OpA) (f : Nat → Nat → Nat → Nat) : ResultRule :=
  plainForm c o.dst o.ty.is64 [(o.a, o.ty.is64), (o.b, false)] (fun x i => f (tyW o.ty) (vA x i o) (vN x i o.b))
/-- Three 32-bit operands. -/
def vecForm3 (c : Ctl) (o : OpA) (f : Nat → Nat → Nat → Nat) : ResultRule :=
  plainForm c o.dst false [(o.a, false), (o.b, false), (o.c, false)] (fun x i => f (vA x i o) (vB x i o) (vC x i o))

/-- Vector integer instructions and their values (05 R124 to R127). -/
def vectorRule : Instr → Option ResultRule
  | .vadd c o => some (vecForm2 c o (fun w a b => if o.sat then iAddSat o.ty.signed w a b else iAdd w a b))
  | .vsub c o => some (vecForm2 c o (fun w a b => if o.sat then iSubSat o.ty.signed w a b else iSub w a b))
  | .vmul c o => some (vecForm2 c o iMul)
  | .vmulh c o => some (vecForm2 c o (iMulh o.ty.signed))
  | .vmad c o => some (vecForm3 c o (fun a b e => iAdd 32 (iMul 32 a b) e))
  | .vand c o => some (vecForm2 c o (fun _ => iAnd))
  | .vor c o => some (vecForm2 c o (fun _ => iOr))
  | .vxor c o => some (vecForm2 c o (fun _ => iXor))
  | .vlop3 c o => some (vecForm3 c o (iLop3 o.aux.toNat))
  | .vshl c o => some (vecFormS c o iShl)
  | .vshr c o => some (vecFormS c o iShr)
  | .vsar c o => some (vecFormS c o iSar)
  | .vmin c o => some (vecForm2 c o (iMin o.ty.signed))
  | .vmax c o => some (vecForm2 c o (iMax o.ty.signed))
  | .vabs c o => some (vecForm1 c o iAbs)
  | .vclz c o => some (vecForm1 c o iClz)
  | .vpopc c o => some (vecForm1 c o iPopc)
  | .vext c o => some (vecForm2 c o (fun _ a b => iExt o.ty.signed 32 a b (o.aux.toNat % 32 + 1)))
  | .vins c o => some (vecForm3 c o (fun a b e => iIns 32 a b e (o.aux.toNat % 32 + 1)))
  | .vsel c o => some (plainForm c o.dst o.ty.is64 [(o.a, o.ty.is64), (o.b, o.ty.is64)] (fun x i =>
      if x.G.laneTest i (fun l => l.pred (o.aux.toNat % 16)) then vA x i o else vB x i o))
  | .vcmp c o => some (plainForm c o.dst false [(o.a, o.ty.is64), (o.b, o.ty.is64)] (fun x i =>
      (iRel (o.aux.toNat % 16) (valOf o.ty.signed (tyW o.ty) (vA x i o)) (valOf o.ty.signed (tyW o.ty) (vB x i o))).toNat))
  | .vmov c o => some (vecForm1 c o (fun _ a => a))
  | .vmovi c o => some (plainForm c o.dst false [] (fun _ _ => o.imm.toNat))
  | .vdot4 c o => some (vecForm3 c o (iDot4 o.ty.signed o.sat))
  | .rnd c o => some (plainForm c o.dst false [(o.a, false), (o.b, false)] (fun x i =>
      (rnd (BitVec.ofNat 64 (srcLane x.G i .n64 64 o.a)) (BitVec.ofNat 32 (vN x i o.b))).toNat))
  | _ => none

/-- A floating-point form that computes element by element (05 R130). -/
def fpForm (c : Ctl) (o : OpA) (srcs : List Src) (f : Ctx → Nat → FEnv → Nat → FEnv × Nat) : ResultRule :=
  laneForm c o.dst false (srcs.map (fun a => (a, false))) (fun x i v => mapElems o.ty v (elemNos o.ty) (f x i))
/-- A sum of products and addends, rounded once (03 R90; 05 R130). -/
def fpSumForm (c : Ctl) (o : OpA) (srcs : List Src) (f : Ctx → Nat → Nat → List (Fv × Fv) × List Fv) : ResultRule :=
  fpForm c o srcs (fun x i v e => (fmtOf o.ty).sum o.rm false v (f x i e).1 (f x i e).2)
def approxForm (fn : Config.Approx) (c : Ctl) (o : OpA) : ResultRule :=
  fpForm c o [o.a] (fun x i v e => fApprox fn v (BitVec.ofNat 32 (fA x i o e)))

/-- Vector floating-point instructions and their values (05 R130 to R135). -/
def floatRule : Instr → Option ResultRule
  | .fadd c o => some (fpSumForm c o [o.a, o.b] (fun x i e => ([], [fvA x i o e, fvB x i o e])))
  | .fsub c o => some (fpSumForm c o [o.a, o.b] (fun x i e => ([], [fvA x i o e, (fvB x i o e).negate])))
  | .fmul c o => some (fpSumForm c o [o.a, o.b] (fun x i e => ([(fvA x i o e, fvB x i o e)], [])))
  | .ffma c o => some (fpSumForm c o [o.a, o.b, o.c] (fun x i e => ([(fvA x i o e, fvB x i o e)], [fvC x i o e])))
  | .fmin c o => some (fpForm c o [o.a, o.b] (fun x i v e => (fmtOf o.ty).minmax false v (fA x i o e) (fB x i o e)))
  | .fmax c o => some (fpForm c o [o.a, o.b] (fun x i v e => (fmtOf o.ty).minmax true v (fA x i o e) (fB x i o e)))
  | .fcmp c o => some (fpForm c o [o.a, o.b] (fun x i v e =>
      (v.raiseIf (fRelInv (o.aux.toNat % 16) (fvA x i o e) (fvB x i o e)) flINV,
        (fRel (o.aux.toNat % 16) (fvA x i o e) (fvB x i o e)).toNat)))
  | .fclass c o => some (fpForm c o [o.a] (fun x i v e => (v, (fmtOf o.ty).classOf (fA x i o e))))
  | .fdiv c o => some (fpForm c o [o.a, o.b] (fun x i v e => fDiv o.rm v (fvA x i o e) (fvB x i o e)))
  | .fsqrt c o => some (fpForm c o [o.a] (fun x i v e => fSqrt o.rm v (fvA x i o e)))
  | .frcp c o => some (approxForm .rcp c o)
  | .frsq c o => some (approxForm .rsq c o)
  | .fexp2 c o => some (approxForm .exp2 c o)
  | .flog2 c o => some (approxForm .log2 c o)
  | .fsin c o => some (approxForm .sin c o)
  | .fcos c o => some (approxForm .cos c o)
  | .ftanh c o => some (approxForm .tanh c o)
  | .fround c o => some (fpForm c o [o.a] (fun x i v e => (fmtOf o.ty).roundInt o.rm v (fvA x i o e)))
  | .fscale c o => some (fpForm c o [o.a, o.b] (fun x i v e =>
      fScale o.rm v (fA x i o e) (fvA x i o e) (valOf true 32 (srcLane x.G i .i32 32 o.b))))
  | .fdot2 c o => some (laneForm c o.dst false [(o.a, false), (o.b, false), (o.c, false)] (fun x i v =>
      Fmt.f32.sum o.rm false v [(fvA x i o 0, fvB x i o 0), (fvA x i o 1, fvB x i o 1)]
        [Fmt.f32.read (modBits 32 o.abc o.ngc (srcLane x.G i .f32 32 o.c))]))
  | _ => none

/-- An FP32 operand of a lane with its modifiers (03 R80). -/
def f32In (x : Ctx) (i : Nat) (ab ng : Bool) (a : Src) : Fv := Fmt.f32.read (modBits 32 ab ng (srcLane x.G i .f32 32 a))

/-- Conversions and their values (05 R138 to R141). -/
def convertRule : Instr → Option ResultRule
  | .cvt c o => some (laneForm c o.dst o.ty.is64 [(o.a, (srcTyOf o).is64)] (fun x i v =>
      cvtLane o.ty (srcTyOf o) o.rm o.sat (o.aux.toNat % 2) o.aba o.nga v (srcLane x.G i (srcTyOf o) (tyW (srcTyOf o)) o.a)))
  | .cvtbx c o => some (laneForm c o.dst false [(o.a, false)] (fun x i v =>
      let ex := (bxOf o.ty).exps (o.aux.toNat % 16) ((x.act.filter (fun j => j / 32 == i / 32)).map (fun j => f32In x j o.aba o.nga o.a))
      let el := (bxOf o.ty).element o.rm v ex (f32In x i o.aba o.nga o.a)
      (el.1, (ex.getD (0xFF, 0xFF)).2 * 2 ^ 16 + (ex.getD (0xFF, 0xFF)).1 * 2 ^ 8 + el.2)))
  | .cvtxf c o => some (laneForm c o.dst false [(o.a, false)] (fun x i v =>
      let w := srcLane x.G i .n32 32 o.a
      let k := 2 ^ ((bxOf (srcTyOf o)).mb + 1)
      toF32 v ((bxOf (srcTyOf o)).read (bitsN w 15 8) (bitsN w 23 16)
        (w % 256 / k * k + modBits ((bxOf (srcTyOf o)).mb + 1) o.aba o.nga (w % k)))))
  | .cvtpk c o => some (laneForm c o.dst false [(o.a, false), (o.b, false)] (fun x i v =>
      let a := (fmtOf o.ty).convert o.rm false v (f32In x i o.aba o.nga o.a)
      let b := (fmtOf o.ty).convert o.rm false a.1 (f32In x i o.abb o.ngb o.b)
      (b.1, a.2 + b.2 * 2 ^ 16)))
  | .cvtf8 c o => some (
      if o.ty == .f32 then
        laneForm c o.dst false [(o.a, false)] (fun x i v =>
          toF32 v ((fmtOf (srcTyOf o)).read (modBits 8 o.aba o.nga (srcLane x.G i .n32 32 o.a / 2 ^ (8 * (o.aux.toNat % 4)) % 256))))
      else
        laneForm c o.dst false [(o.a, false), (o.b, false), (o.c, false)] (fun x i v =>
          let w := srcLane x.G i .n32 32 o.c
          let a := (fmtOf o.ty).convert o.rm o.sat v (f32In x i o.aba o.nga o.a)
          let b := (fmtOf o.ty).convert o.rm o.sat a.1 (f32In x i o.abb o.ngb o.b)
          let y := a.2 + b.2 * 2 ^ 8
          (b.1, if o.aux.toNat % 4 % 2 = 0 then w / 2 ^ 16 * 2 ^ 16 + y else y * 2 ^ 16 + w % 2 ^ 16)))
  | _ => none

/-- A word whose value is one for the group, or a lane's own, and that raises no flag. -/
def groupForm (c : Ctl) (m : Meta) (d : Dst) (wide : Bool) (ok : Ctx → Bool) (f : State → Ctx → Nat → Nat) : ResultRule :=
  { ctl := c, need := m.write d wide, dst := d, wide, ok, res := fun s x i => (x.env i, f s x i) }

/-- Active lanes in which predicate k holds. -/
def Ctx.voters (x : Ctx) (a : Src) : List Nat := x.act.filter (fun j => x.G.laneTest j (fun l => l.pred (predNo a)))

/-- A reduction's value and flags, the same in every active lane (06 R152). -/
def redEnv (x : Ctx) (i : Nat) (fl : BitVec 6) : FEnv := { x.env i with fl := fl }

/-- Words that exchange, count or report within the group (04 R110, R114; 06 R149 to R154; 08 R192; 09 R210; 11 R264;
12 R284) and their values. -/
def groupRule : Instr → Option ResultRule
  | .srd c o =>
      let n := o.imm.toNat
      some { ctl := c,
             need := { (({} : Meta).write o.dst (srBits n == 64 && o.dst.isVec)) with
               sOnly := srSonly n, badS := srdIllegal o.dst n, allow := if o.dst.isSca then .yes else .no },
             dst := o.dst, wide := srBits n == 64 && o.dst.isVec,
             res := fun s x i => (x.env i, srRead s x.G (if srLane n then (if o.dst.isVec then i else x.low) else 0) n) }
  | .plop c o => some {
      ctl := c, need := { (({} : Meta).write o.dst false) with allow := .yes }, dst := o.dst, wide := false,
      res := fun _ x i => (x.env i,
        (x.G.laneTest i (fun l => truth2 (o.aux.toNat % 16) (l.pred (predNo o.a)) (l.pred (predNo o.b)))).toNat) }
  | .shfl c o =>
      let src := fun (x : Ctx) i => shflSrc x.G.w (o.aux.toNat % 4) (o.aux.toNat / 4 % 8) i (vN x i o.b)
      some (groupForm c ((({} : Meta).named o.a o.ty.is64).read true o.b false) o.dst o.ty.is64
        (fun x => !(x.act.any (fun i => (otherLane x.G o.ty.is64 o.a (src x i)).2)))
        (fun _ x i => (otherLane x.G o.ty.is64 o.a (src x i)).1))
  | .bcast c o =>
      let y := fun (x : Ctx) => otherLane x.G o.ty.is64 o.a (srcScalar x .n32 32 o.b % x.G.w)
      some (groupForm c ((({} : Meta).named o.a o.ty.is64).read false o.b false) o.dst (o.ty.is64 && o.dst.isVec)
        (fun x => !(y x).2) (fun _ x _ => (y x).1))
  | .ballot c o => some (groupForm c {} o.dst false (fun _ => true) (fun _ x _ => (laneMask (x.voters o.a)).toNat))
  | .vote c o => some (groupForm c {} o.dst false (fun _ => true) (fun _ x _ =>
      (voteOf (o.aux.toNat % 4) x.act.length (x.voters o.a).length).toNat))
  | .match c o => some (groupForm c (({} : Meta).read true o.a o.ty.is64) o.dst true (fun _ => true) (fun _ x i =>
      (laneMask (x.act.filter (fun j => (otherLane x.G o.ty.is64 o.a j).1 == (otherLane x.G o.ty.is64 o.a i).1))).toNat))
  | .gred c o => some {
      ctl := c, need := (({} : Meta).read true o.a o.ty.is64).write o.dst (o.ty.is64 && o.dst.isVec), dst := o.dst,
      wide := o.ty.is64 && o.dst.isVec,
      res := fun _ x i =>
        let r := reduceGroup x (o.aux.toNat % 16) o.ty o.rm o.a x.act
        (redEnv x i r.1.fl, if o.dst.isSca then extS o.ty (r.2.getD 0) else r.2.getD 0) }
  | .gredm c o => some {
      ctl := c, need := ((({} : Meta).named o.a false).read true o.b false).write o.dst true, dst := o.dst, wide := true,
      ok := fun x => !((x.act.filter (fun i => vN x i o.b != 0)).any (fun i => (otherLane x.G false o.a i).2)),
      res := fun _ x i =>
        let lanes := x.act.filter (fun i => vN x i o.b != 0)
        let r := reduceGroup x (o.aux.toNat % 16) o.ty o.rm o.a lanes
        let n := lanes.foldl (fun n i => n + vN x i o.b) 0 % 2 ^ 32
        (redEnv x i (if lanes.isEmpty then flNVC else r.1.fl), r.2.getD 0 + n * 2 ^ 32) }
  | .gscan c o => some {
      ctl := c, need := (({} : Meta).read true o.a o.ty.is64).write o.dst o.ty.is64, dst := o.dst, wide := o.ty.is64,
      res := fun _ x i => ((scanLanes x (o.aux.toNat % 16) o.ty o.rm (bitN o.aux.toNat 4) o.a none x.act).look i).getD (x.env i, 0) }
  | .elect c o => some (groupForm c {} o.dst false (fun _ => true) (fun _ x i => if i = x.low then 1 else 0))
  | .keyq c o => some (groupForm c {} o.dst false (fun _ => true) (fun s x _ =>
      match s.partOf x.G with | some p => p.epoch % 2 ^ 32 | none => 0))
  | .mqry c o =>
      let item := o.bits 48 45
      let tile := o.bits 44 42
      some { ctl := c, need := { (({} : Meta).write o.dst false) with accs := if item = 2 then [tile] else [] }, dst := o.dst,
             wide := false,
             res := fun s x i => (x.env i, match item with
               | 0 => 0x1FF + 8 * 2 ^ 16 + 8 * 2 ^ 24
               | 1 => x.G.t + (s.ops.filter (fun e => e.2.g == x.g && e.2.cls == 1 && !e.2.fin)).length * 2 ^ 8 +
                   x.G.alatch.isSome.toNat * 2 ^ 16
               | 2 => (x.G.acc.lookD { words := [], flags := 0 } tile).flags.toNat
               | _ => (s.coreAt x.G.tile x.G.core).resets % 2 ^ 32) }
  | _ => none

/-- Every instruction of a table runs when its group is ready and gives its rule's result. -/
def Executes (rule : Instr → Option ResultRule) : Prop :=
  ∀ i r s x s1, rule i = some r → ready r.ctl r.need s = some (x, s1) → r.ok x = true →
    ∃ t, exec i s = .next t ∧ Wrote r.ctl x s t r.dst r.wide (r.res s1 x) (fun _ => false) x.next

/-! ### Accesses -/

/-- A state with the groups of another. -/
def State.under (sX s : State) : State := { sX with groups := s.groups }

/-- A word that writes no register has passed in its group; outside the groups the machine goes from s to sX. -/
def Passed (c : Ctl) (x : Ctx) (s sX t : State) : Prop :=
  Wrote c x (sX.under s) t (.acc 0) false (fun i => (x.env i, 0)) (fun _ => false) x.next

/-- An access by lanes: what its checks need, its register operand, width code, ORD and SC, lanes and addresses. -/
structure AccessRule where
  ctl : Ctl
  need : Meta
  dst : Dst
  w : Nat
  ord : Nat := 0
  sc : Nat := 0
  /-- together the lanes may clear a line's poison (07 R180) -/
  clears : Bool := false
  lanes : Ctx → List Nat
  ea : Ctx → Nat → Nat

/-- Lanes with their addresses, and the bytes of an access. -/
def AccessRule.accs (r : AccessRule) (x : Ctx) : List (Nat × Nat) := (r.lanes x).map (fun i => (i, r.ea x i))
def AccessRule.n (r : AccessRule) : Nat := wBytes r.w

/-- A scalar destination is loaded once, by the lowest-numbered active lane (07 R168). -/
def loadLanes (d : Dst) (x : Ctx) : List Nat := if d.isSca then [x.low] else x.act

/-- A plain load form reaching a window (07 R159, R161). -/
def plainLoad (c : Ctl) (w : BitVec 3) (o : OpM) (win : Win) : AccessRule :=
  { ctl := c, need := (({} : Meta).addr (!o.dst.isSca) win o).write o.dst (w == 3 && o.dst.isVec), dst := o.dst, w := w.toNat,
    lanes := loadLanes o.dst, ea := fun x i => eaOf x.G i win o }

/-- Loads (07 R159, R168, R170; 06 R155); SLD outside an atomic region. -/
def loadRule : Instr → Option AccessRule
  | .ld c w o => some (plainLoad c w o .abs)
  | .lds c w o => some (plainLoad c w o .scratch)
  | .ldt c w o => some (plainLoad c w o .tile)
  | .ldc c w o => some (plainLoad c w o .const)
  | .sld c w o => some { plainLoad c w o .abs with
      need := { ((({} : Meta).addr false .abs o).write o.dst false) with allow := if o.ord = 0 then .yes else .no } }
  | .mcnt c o => some {
      ctl := c, need := ((({} : Meta).read false o.a false).read true o.b false).write o.dst false, dst := o.dst, w := 0,
      lanes := loadLanes o.dst,
      ea := fun x i => (srcScalar x .n64 64 o.a + srcLane x.G i .n32 32 o.b * (intWidth o.ty / 8) / 2 ^ 8) % 2 ^ 64 }
  | _ => none

/-- The value that a destination takes of the bytes read (02 R60). -/
def AccessRule.ext (r : AccessRule) : Nat → Nat := if r.dst.isSca then extCode r.w else extVec r.w

/-- A plain store form. -/
def plainStore (c : Ctl) (w : BitVec 3) (o : OpM) (win : Win) : AccessRule :=
  { ctl := c, need := { ((({} : Meta).addr true win o).data o.dst (w == 3)) with chnOk := false }, dst := o.dst, w := w.toNat,
    ord := o.ord.toNat, sc := o.sc.toNat, clears := true, lanes := fun x => x.act, ea := fun x i => eaOf x.G i win o }

/-- Stores (07 R159, R168); SST outside an atomic region. -/
def storeRule : Instr → Option AccessRule
  | .st c w o => some (plainStore c w o .abs)
  | .sts c w o => some (plainStore c w o .scratch)
  | .stt c w o => some (plainStore c w o .tile)
  | .sst c w o => some { plainStore c w o .abs with
      need := { (({} : Meta).addr false .abs o) with chnOk := false, allow := if o.ord = 0 then .yes else .no },
      clears := false, lanes := fun x => [x.low] }
  | _ => none

/-- The state after a store's writes: lanes in increasing order, then the poison of lines wholly written (07 R164, R180). -/
def AccessRule.written (r : AccessRule) (x : Ctx) (p : Nat) (s : State) (ps : List LaneAcc) : State :=
  let val := storeData x.G r.dst r.n
  let s3 := writeLanes x.g p r.n val s ps
  if r.clears then clearStored s3 r.n (ps.filterMap (fun a => (placeLoc s3 a.place).map (fun l => (l, (val a.lane).2)))) else s3

/-- No write queue holds a reduction of a line; no queue holds any. -/
def State.quiet (s : State) (line : Nat) : Prop := ∀ e ∈ s.tiles, ∀ q ∈ e.2.wq, q.line ≠ line
def State.still (s : State) : Prop := ∀ e ∈ s.tiles, e.2.wq = []

/-- A place in memory whose bytes stand where placeLoc says: scratch, HBM or TM, with no reduction pending. -/
def Place.plain (s : State) : Place → Prop
  | .loc _ => True
  | .pa a _ => spaceOf a < 2 ∧ s.quiet (lineOf a)
  | _ => False

/-- Is a location among the n bytes that some of the accesses touch? -/
def touches (s : State) (n : Nat) (ps : List LaneAcc) (loc : Nat) : Prop :=
  ∃ a ∈ ps, ∃ l, placeLoc s a.place = some l ∧ l ≤ loc ∧ loc < l + n

/-- Returning atomics: operation, operands (07 R174, R175). -/
def atomicRule : Instr → Option (Ctl × OpT × Nat)
  | .atmAdd c o => some (c, o, 0)
  | .atmFadd c o => some (c, o, 1)
  | .atmMin c o => some (c, o, 2)
  | .atmMax c o => some (c, o, 3)
  | .atmAnd c o => some (c, o, 4)
  | .atmOr c o => some (c, o, 5)
  | .atmXor c o => some (c, o, 6)
  | .atmXch c o => some (c, o, 7)
  | .acas c o => some (c, o, 8)
  | .aaddt c o => some (c, o, 9)
  | _ => none

def atomicMeta (o : OpT) (op : Nat) : Meta :=
  { ((({} : Meta).tSrcs o (op == 8 || op == 9)).write o.dst o.ty.is64) with chnOk := false }

/-- Reductions (07 R175; 03 R95). -/
def redRule : Instr → Option (Ctl × OpT × Nat)
  | .redAdd c o => some (c, o, 0)
  | .redFadd c o => some (c, o, 1)
  | .redMin c o => some (c, o, 2)
  | .redMax c o => some (c, o, 3)
  | .redAnd c o => some (c, o, 4)
  | .redOr c o => some (c, o, 5)
  | .redXor c o => some (c, o, 6)
  | _ => none

/-- Words with no effect but their own passing, each with what must hold first: a fence waits as a release does, or for its lanes' logged
reductions (07 R163, R167, R171, R172; 13 R290; 19 R402). -/
def passRule : Instr → Option (Ctl × Meta × (State → Ctx → Bool))
  | .fenceAcq c _ => some (c, { chnOk := false }, fun s x => !slgReds s x.g x.G x.act)
  | .fenceRel c o => some (c, { chnOk := false }, fun s x => (relStop s x x.act (decide (4 ≤ o.sc.toNat))).isNone)
  | .fenceFull c o => some (c, { chnOk := false }, fun s x => (relStop s x x.act (decide (4 ≤ o.sc.toNat))).isNone)
  | .prf c o => some (c, if o.b.isZero && o.bits 48 47 == 0 then ({} : Meta).named o.a true
      else (({} : Meta).named o.a true).named o.b false, fun _ _ => true)
  | .rgn c _ => some (c, {}, fun _ _ => true)
  | _ => none

/-! ### Control -/

/-- Transfers of control: what the checks need, the link and the target of a lane (08 R185). -/
def transferRule : Instr → Option (Ctl × Meta × Dst × (Ctx → Nat → BitVec 64))
  | .bra c o => some (c, { allow := .yes, chnOk := false }, .acc 0, fun x _ => x.u.pc + dispOf o)
  | .bri c o => some (c, { jumpMeta o.a none with chnOk := false }, .acc 0, fun x i => targetOf x.G i o.a + dispOf o)
  | .call c o => some (c, { (({} : Meta).write o.dst o.dst.isVec) with allow := if o.dst.isSca then .yes else .no, chnOk := false },
      o.dst, fun x _ => x.u.pc + dispOf o)
  | .calli c o => some (c, { jumpMeta o.a (some o.dst) with chnOk := false }, o.dst, fun x i => targetOf x.G i o.a + dispOf o)
  | .ret c o => some (c, { jumpMeta o.a none with chnOk := false }, .acc 0, fun x i => targetOf x.G i o.a)
  | _ => none

/-- A lane keeps its registers and flags. -/
def LaneRegsStay (l l' : Lane) : Prop :=
  l'.v = l.v ∧ l'.vPsn = l.vPsn ∧ l'.p = l.p ∧ l'.fflags = l.fflags ∧ l'.srctr = l.srctr

/-- What a control word does in its group and lanes: `q` relates the groups, `f` the lanes; registers stay, lanes outside the
issuing set stay whole, and of the group only what `q` may speak of changes. -/
def Moved (c : Ctl) (x : Ctx) (s t : State) (q : Group → Group → Prop) (f : Nat → Lane → Lane → Prop) : Prop :=
  ∃ G0 G, OnlyGroup s t x.g G0 G ∧ HintsTaken c s.clock G0 G ∧ q G0 G ∧
    G = { G0 with lanes := G.lanes, stall := G.stall, sb := G.sb, region := G.region, arstat := G.arstat, ra := G.ra,
                  grow := G.grow, shrnk := G.shrnk, enq := G.enq, v := G.v } ∧
    ∀ i l, G0.lane? i = some l → ∃ l', G.lane? i = some l' ∧ LaneRegsStay l l' ∧ (i ∉ x.iss → l' = l) ∧ f i l l'

/-- The group's own fields that control words set stay as they are. -/
def SameControl (G0 G : Group) : Prop := G.ra = G0.ra ∧ G.grow = G0.grow ∧ G.shrnk = G0.shrnk ∧ G.enq = G0.enq ∧ G.v = G0.v

/-! ### Engine operations (10 R226 to R243; 11 R251 to R263) -/

/-- Words that hand an operation to an engine from register operands: what the checks need, class, channel, and the operation
when every check at issue passes. -/
structure EngineRule where
  ctl : Ctl
  need : Meta
  cls : Nat
  ch : Option Nat
  op : Ctx → State → Launch → Option EngOp

/-- The operation, when no check fails. -/
def whenClear (fails : List (Option Fail)) (op : EngOp) : Option EngOp := if (firstFail fails).isNone then some op else none

/-- Words whose operands are registers. -/
def engineRule : Instr → Option EngineRule
  | .cpy c o => some {
      ctl := c, need := (({} : Meta).reads false [(o.a, false), (o.b, false), (o.src3.getD (.imm 0), false)]), cls := 0,
      ch := some (chOf o),
      op := fun x s L =>
        let len := src64 x (o.src3.getD (.imm 0))
        whenClear [rangeFail x.G L true 4 (src64 x o.a) len, rangeFail x.G L false 4 (src64 x o.b) len, multFail 4 len]
          (engOp s x 0 (chOf o) 0 (dwords [src64 x o.a, src64 x o.b, len])) }
  | .cpycb c o => some {
      ctl := c, need := (({} : Meta).reads false [(o.a, false), (o.b, false)]), cls := 0, ch := some (chOf o),
      op := fun x s L =>
        if 15 < src64 x o.b then none
        else match ownedCb s x (src64 x o.b) with
          | none => none
          | some q => whenClear [rangeFail x.G L false 4 (src64 x o.a) q.z]
              (engOp s x 0 (chOf o) 2 (dwords [src64 x o.b, src64 x o.a])) }
  | .accz c o => some {
      ctl := c, need := { accs := [tileOf o] }, cls := 1, ch := none,
      op := fun x s _ => some { (engOp s x 1 0 0x102 []) with tileNo := tileOf o } }
  | .accld c o => some {
      ctl := c, need := { (({} : Meta).reads false [(o.a, false), (o.b, false)]) with accs := [tileOf o] }, cls := 1, ch := none,
      op := fun x s L =>
        if (rowChecks x.G L false 4 (src64 x o.a) (src64 x o.b) 128).isNone then
          some { (engOp s x 1 0 0x103 (dwords [src64 x o.a, src64 x o.b])) with tileNo := tileOf o }
        else none }
  | .accst c o => some {
      ctl := c,
      need := { (({} : Meta).reads false [(o.a, false), (o.b, false), (o.src3.getD (.imm 0), false)]) with accs := [tileOf o] },
      cls := 1, ch := none,
      op := fun x s L =>
        let ty := o.bits 45 42
        if (rowChecks x.G L true (accstRow ty).2 (src64 x o.a) (src64 x o.b) (accstRow ty).1).isNone then
          some { (engOp s x 1 0 0x104 (dwords [src64 x o.a, src64 x o.b, srcScalar x .n32 32 (o.src3.getD (.imm 0))])) with
            tileNo := tileOf o, ty := ty, rm := o.bits 41 39, sat := (o.bits 38 38 == 1), d := o.bits 37 34 }
        else none }
  | _ => none

/-- Words whose operands stand in a 64-byte control block (10 R231): guard, operand, class, and the operation for the block's
eight words when every check at issue passes. -/
structure BlockRule where
  ctl : Ctl
  o : OpE
  cls : Nat
  op : Ctx → State → Launch → List Nat → Option EngOp

/-- A byte range that must be writable or readable, when its address is given. -/
def optFail (G : Group) (L : Launch) (va n : Nat) : Option Fail := if va = 0 then none else rangeFail G L false 1 va n

/-- CPY.lossy and CPY2D.lossy (10 R235), CPY2D (10 R233), GATH (10 R236). -/
def cpyLossyOp (o : OpE) (x : Ctx) (s : State) (L : Launch) (ws : List Nat) : Option EngOp :=
  let w := fun i => ws.getD i 0
  if hi32 (w 5) != 0 || w 6 != 0 || w 7 != 0 then none
  else whenClear [rangeFail x.G L true 64 (w 0) (w 2), rangeFail x.G L false 64 (w 1) (w 2), multFail 256 (w 2),
      rangeFail x.G L true 1 (w 3) (w 2 / 256), optFail x.G L (w 4) (w 2 / 256)]
    { (engOp s x 0 (chOf o) 0x20 (dwords ws)) with d := w32 (w 5) }

def cpy2dOp (o : OpE) (x : Ctx) (s : State) (L : Launch) (ws : List Nat) : Option EngOp :=
  let w := fun i => ws.getD i 0
  if w 5 != 0 || w 6 != 0 || w 7 != 0 then none
  else whenClear (rowFails x.G L 4 w ++ [multFail 4 (w32 (w 2)), multFail 4 (w 3), multFail 4 (w 4)])
    (engOp s x 0 (chOf o) 1 (dwords ws))

def cpy2dLossyOp (o : OpE) (x : Ctx) (s : State) (L : Launch) (ws : List Nat) : Option EngOp :=
  let w := fun i => ws.getD i 0
  let n := w32 (w 2) / 256 * hi32 (w 2)
  if hi32 (w 6) != 0 then none
  else whenClear (rowFails x.G L 64 w ++ [multFail 256 (w32 (w 2)), multFail 64 (w 3), multFail 64 (w 4),
      rangeFail x.G L true 1 (w 5) n, optFail x.G L (w 7) n])
    { (engOp s x 0 (chOf o) 0x21 (dwords ws)) with d := w32 (w 6) }

def gathOp (o : OpE) (x : Ctx) (s : State) (L : Launch) (ws : List Nat) : Option EngOp :=
  let w := fun i => ws.getD i 0
  let rb := w32 (w 3)
  let n := hi32 (w 3)
  if hi32 (w 4) != 0 || w 5 != 0 || w 6 != 0 || w 7 != 0 || decide (rb < 4) || decide (65536 < rb) then none
  else whenClear [rangeFail x.G L true 4 (w 0) (rb * n), rangeFail x.G L false 4 (w 2) (4 * n),
      rangeFail x.G L false 4 (w 1) (rb * w32 (w 4)), multFail 4 rb] (engOp s x 0 (chOf o) 3 (dwords ws))

/-- COLL and COLL.lossy (10 R240 to R242): KIND, and the ranges that its participant count divides. -/
def collOp (lossy : Bool) (o : OpE) (x : Ctx) (s : State) (L : Launch) (ws : List Nat) : Option EngOp :=
  let w := fun i => ws.getD i 0
  let kind := bitsN (w 5) 39 32
  let i := bitsN (w 5) 63 56
  let dom := match L.rc.levels[i + 1]? with | some l => l.dom | none => 0
  let sl := if kind = 1 then w 2 / L.rc.ext i else w 2
  let dl := if kind = 0 then w 2 / L.rc.ext i else w 2
  if decide (3 < w 6) || w 7 != 0 || decide (2 < kind) || decide (3 < bitsN (w 5) 47 40) ||
      !collTyOk (bitsN (w 5) 47 40) (bitsN (w 5) 55 48) || decide (dom < 3) ||
      (!lossy && (w 3 != 0 || w 4 != 0 || w32 (w 5) != 0)) then none
  else whenClear ([rangeFail x.G L false 64 (w 0) sl, rangeFail x.G L true 64 (w 1) dl,
      multFail (if kind < 2 then 256 * L.rc.ext i else 256) (w 2)] ++
      (if lossy then [rangeFail x.G L true 1 (w 3) (dl / 256), optFail x.G L (w 4) (sl / 256)] else []))
    { (engOp s x 3 (chOf o) (if lossy then 0x24 else 4) (dwords ws)) with d := w32 (w 5) }

def blockRule : Instr → Option BlockRule
  | .cpyLossy c o => some { ctl := c, o, cls := 0, op := cpyLossyOp o }
  | .cpy2d c o => some { ctl := c, o, cls := 0, op := cpy2dOp o }
  | .cpy2dLossy c o => some { ctl := c, o, cls := 0, op := cpy2dLossyOp o }
  | .gath c o => some { ctl := c, o, cls := 0, op := gathOp o }
  | .coll c o => some { ctl := c, o, cls := 3, op := collOp false o }
  | .collLossy c o => some { ctl := c, o, cls := 3, op := collOp true o }
  | _ => none

/-- Near-memory packets, by number (10 R243). -/
def nmoRule : Instr → Option (Ctl × OpE × Nat)
  | .nmoCas2 c o => some (c, o, 0)
  | .nmoCas4 c o => some (c, o, 1)
  | .nmoFop c o => some (c, o, 2)
  | .nmoEnq c o => some (c, o, 3)
  | .nmoDeq c o => some (c, o, 4)
  | .nmoChase c o => some (c, o, 5)
  | _ => none

/-- Matrix jobs: whether sparse, and RU (11 R251). -/
def mmaRule : Instr → Option (Ctl × Bool × Bool × OpE)
  | .mma c ru o => some (c, false, ru, o)
  | .mmas c ru o => some (c, true, ru, o)
  | _ => none

/-- An operation has been issued: it stands under the next number, its class counts one more, and in its group nothing else
changes but the A reuse latch, which is `al`; outside, the machine is as sB, but for a COLL at the head of the channel, which
joins its call, and the time from which an idle matrix engine has pending work (11 R266). -/
def Issued (c : Ctl) (x : Ctx) (s sB t : State) (op : EngOp) (al : Option ALatch) : Prop :=
  (∃ q, t.ops.look sB.nextId = some { op with call := q }) ∧
  t = { sB with groups := t.groups, ops := t.ops, nextId := t.nextId, launches := t.launches, calls := t.calls, cores := t.cores } ∧
  t.cores = (if op.cls = 1 ∧ jobLen sB op.tile op.core = 0 then sB.updCore op.tile op.core (fun c => { c with mxTime := sB.clock })
    else sB).cores ∧
  (∀ h, h ≠ x.g → t.groups.look h = sB.groups.look h) ∧
  ∃ G0 G, s.groups.look x.g = some G0 ∧ t.groups.look x.g = some G ∧ HintsTaken c s.clock G0 G ∧
    G.counter op.cls = G0.counter op.cls + 1 ∧ (∀ k, k ≠ op.cls → G.counter k = G0.counter k) ∧
    G = { G0 with lanes := G.lanes, stall := G.stall, sb := G.sb, arstat := G.arstat, region := G.region, cnt := G.cnt,
                  issued := G.issued, alatch := al } ∧
    ∀ i l, G0.lane? i = some l → ∃ l', G.lane? i = some l' ∧ LaneRegsStay l l' ∧
      (i ∉ x.iss → l' = l) ∧ (i ∈ x.iss → l'.pc = x.u.pc + 12)

/-! ### Words that trap or wait -/

/-- The word being issued reaches the decode checks with an active lane: what it sees, and the state (02 R62). -/
def atDecode (c : Ctl) (s : State) : Option (Ctx × State) :=
  match s.cur with
  | none => none
  | some u =>
    match s.groups.look u.g with
    | none => none
    | some G0 =>
      let iss := issuing s u.g G0 u
      let G1 := beginLanes G0 iss
      let act := passing G1 iss c.guard
      if iss.isEmpty || (issueWait G0 c u.word).isSome || (dueReport G1 iss).isSome || act.isEmpty then none
      else some ({ u, g := u.g, G := G1, iss, act }, s.setGroup u.g G1)

/-- S-only words and their hints (02 R61): a special register's number decides for SRD and SWR. -/
def supervisorWord : Instr → Option Ctl
  | .eret c _ => some c
  | .stlbiVa c _ => some c
  | .stlbiAll c _ => some c
  | .sflushC c _ => some c
  | .sflushT c _ => some c
  | .sflushP c _ => some c
  | .halt c _ => some c
  | .srd c o => if 0x100 ≤ o.imm.toNat ∧ o.imm.toNat < 0x200 then some c else none
  | .swr c o => if 0x100 ≤ o.imm.toNat ∧ o.imm.toNat < 0x200 then some c else none
  | _ => none

/-- The word has passed in its group, and its active lanes wait for b with their next program counters set; outside the groups
the machine goes from s to sX. -/
def Waits (c : Ctl) (x : Ctx) (s sX t : State) (b : Block) (npc : Nat → BitVec 64) : Prop :=
  ∃ G0 G, OnlyGroup (sX.under s) t x.g G0 G ∧ HintsTaken c s.clock G0 G ∧ G.s = G0.s ∧
    ∀ i l, G0.lane? i = some l → ∃ l', G.lane? i = some l' ∧ LaneRegsStay l l' ∧ (i ∉ x.iss → l' = l) ∧
      (i ∈ x.iss → i ∉ x.act → l'.pc = x.u.pc + 12) ∧ (i ∈ x.act → l'.block = b ∧ l'.pc = npc i)

/-! ### Events -/

/-- The event or instruction answers a next state of which q holds. -/
def Does (i : Instr) (s : State) (q : State → Prop) : Prop := ∃ t, exec i s = .next t ∧ q t

/-- A request from another wafer is accepted and reaches physical address pa of the target's memory with nothing at home to hold it (19 R400,
R401): s2 is the state that it acts on. -/
def fabricLands (s : State) (part wafer srcPart h off : Nat) (op : FabricOp) (pa : Nat) (s2 : State) : Prop :=
  let base := fun (P : Part) => bitsN (P.export h false) 47 16 * 65536
  ∃ P s1 b z a r w x u, s.parts.look part = some P ∧ P.heldReqs.contains (.fabric wafer srcPart h off op (base P)) = false ∧
    exportOk P wafer srcPart h off op = true ∧ P.pend.any Cmd.isReshape = false ∧
    stage2 s P (base P + off) = (s1, .page b z a r w x u) ∧ s2Denies (fabNeed op) r w false = false ∧
    pa = a + (base P + off - b) ∧ paCheck s1 part (fabNeed op) pa = none ∧
    claimRange s1 (.req (.fabric wafer srcPart h off op (base P))) 1024 pa (fabSize op) (fabNeed op).w (fabNeed op == .rmw) = (s2, true)

/-- Partition p goes from P to P', and nothing else of the machine changes. -/
structure OnlyPart (s t : State) (p : Nat) (P P' : Part) : Prop where
  before : s.parts.look p = some P
  after : t.parts.look p = some P'
  rest : t = { s with parts := t.parts }
  others : ∀ k, k ≠ p → t.parts.look k = s.parts.look k

/-- Tile k goes to X, and nothing else of the machine changes. -/
structure OnlyTile (s t : State) (k : Nat) (X : Tile) : Prop where
  after : t.tileAt k = X
  rest : t = { s with tiles := t.tiles }
  others : ∀ j, j ≠ k → t.tileAt j = s.tileAt j

/-- An ENQ's status is written, to sd, to pd and to the latch that waits for it, and nothing else of its lanes changes (08 R184, R198, R199). -/
def EnqAnswered (s t : State) (g : Nat) (e : EnqReq) (status : Nat) : Prop :=
  ∀ G, s.groups.look g = some G → ∃ G', t.groups.look g = some G' ∧ G'.enq = none ∧
    (e.nw = false → e.sd ≠ 0 → G'.sreg e.sd.toNat = BitVec.ofNat 64 status) ∧
    ∀ i l, G.lane? i = some l → ∃ l', G'.lane? i = some l' ∧ l' = { l with p := l'.p, lat := l'.lat } ∧ (i ∉ e.lanes → l' = l) ∧
      (i ∈ e.lanes → l'.lat = (l.fillEnq (BitVec.ofNat 64 status)).lat ∧ (e.pd ≠ 15 → l'.pred e.pd.toNat = (status == 0)))

end Sys2Proof.Machine
end

