-- ==== Sys2Proof/Certificates/Slice0/Obligations.lean ====
section
/-!
DEFINITION. What the provers are to prove: statements about the decoder, the instructions, the events and the machine, each from
the spec's rules. Shared terms stand in Safety.lean. A statement about a word takes `ready`: the word finds its group ready and
none of the checks that issue itself makes turns it away; its conclusion is the state that exec answers. A statement about an event
says with `Does` that the event goes on, and what then holds. Numbers of notes/assumptions stand as 'log n'.
-/

open Sys2Proof Sys2Proof.Machine

/-! ### Encoding -/

/-- R47, R62: decoding the bytes of an encoded well-formed instruction gives it back, with every operand, and leaves the rest. -/
def Obligations.DecodeOfEncode : Prop :=
  ∀ (i : Instr) (w : IWord) (rest : List Byte), i.wf = true → encode i = some w →
    decode (wordBytes w.toNat ++ rest) = .ok (i, rest)

/-- R47, R53, R62: what decodes is well formed, and its encoding is the word that was read: a word has one meaning, and no bit of it
is ignored. R59, R62: an OP that the opcode map does not assign is refused by that name, whatever the other bits but bits 3:0, and
so is a word with a non-zero bit among these. -/
def Obligations.EncodeOfDecode : Prop :=
  (∀ (bs : List Byte) (i : Instr) (rest : List Byte), decode bs = .ok (i, rest) →
     i.wf = true ∧ ∃ w, encode i = some w ∧ bs = wordBytes w.toNat ++ rest) ∧
  (∀ w : Nat, w < 2 ^ 96 →
     w / 2 ^ 90 % 64 ∉ [0x00, 0x01, 0x08, 0x10, 0x18, 0x1C, 0x20, 0x21, 0x22, 0x23, 0x24, 0x25, 0x28, 0x29, 0x2C, 0x2D, 0x30, 0x31, 0x34,
       0x38, 0x39, 0x3C, 0x3D, 0x3E] →
     decode (wordBytes w) = .error (if w % 16 = 0 then .reservedOp else .mustBeZero))

/-- Words that the spec writes out: FFMA and the pair word (R62), SEXT (R104), CVTF8 (05), ST (07), BRA (08), MMA (11), TRAP (12).
-/
def Obligations.SpecWordsDecode : Prop :=
  decodeTableWord 96 0x403180800805000000085000 = some (.ffma
      { guard := 3, stall := 2, chn := true, wsb := 0, ssb := 0, yh := false }
      { dst := .vec false 4, a := .vreg 1, b := .vreg 2, c := .vreg 4, ty := .f32, rm := .rne, sat := false, aba := false, nga := false,
        abb := false, ngb := false, abc := false, ngc := false, aux := 0 }) ∧
  decodeTableWord 96 0xFA500A28000A210020410002 = some (.pairWord
      { guard := 18, i := true, sop := 0, sd := 5, sa := 5, sb := 1, vop := 17, vd := 8, va := 1, vb := 2, vc := 8, stall := 1,
        chn := false }) ∧
  decodeTableWord 96 0x0137A0E81E18600098000000 = some (.sext
      { guard := 15, stall := 0, chn := false, wsb := 0, ssb := 0, yh := false }
      { dst := .sca false 7, a := .sreg 3, b := .imm 12, c := .vreg 0, ty := .i64, rm := .rne, sat := false, aba := false, nga := false,
        abb := false, ngb := false, abc := false, ngc := false, aux := 19 }) ∧
  decodeTableWord 96 0xF40780000000000000540000 = some (.trap
      { guard := 15, stall := 0, chn := false, wsb := 0, ssb := 0, yh := false }
      { dst := .vec false 0, a := .vreg 0, b := .vreg 0, imm := 42 })

/-! ### The step -/

/-- A step runs the decoded instruction: with a word being issued whose bytes decode to i, step is exec of i, and then the turn
passes to the word's next group, to a second word of the cycle, or to none (log 1). A core's turn: the word that its selected lanes
fetched decodes and runs in the same step, or in the next cycle where the core has had its turn in this one; an event at the head of the
agenda runs likewise (log 1). -/
def Obligations.StepRunsTheWord : Prop :=
  (∀ (s : State) (u : Cur) (i : Instr) (rest : List Byte), heldDown s = false → s.cur = some u →
     decode (wordBytes u.word) = .ok (i, rest) →
     (∀ t, exec i s = .next t → step s = .next (advance t)) ∧
     (∀ t v g gs, t.cur = some v → v.todo = g :: gs → advance t = { t with cur := some { v with g, todo := gs } }) ∧
     (∀ t v, t.cur = some v → v.todo = [] → v.second = true ∨ v.next = none → advance t = { t with cur := none })) ∧
  (∀ (s : State) (a : List Turn), heldDown s = false → s.cur = none →
     (∀ t k, s.agenda = .issue t k :: a → 4 * t + k < s.cursor → step s = .next (nextCycle s)) ∧
     (∀ t k u i rest x, s.agenda = .issue t k :: a → k < 4 → s.cursor ≤ 4 * t + k →
       (coreTurn { s with agenda := a, cursor := 4 * t + k + 1 } t k).cur = some u → decode (wordBytes u.word) = .ok (i, rest) →
       exec i (coreTurn { s with agenda := a, cursor := 4 * t + k + 1 } t k) = .next x → step s = .next (advance x)) ∧
     (∀ e x, s.agenda = .event e :: a → exec e { s with agenda := a } = .next x → step s = .next (advance x)))

/-- R47, R48: a program counter beyond 48 bits raises 0x07 and one that is no multiple of 4 raises 0x06; otherwise the word is three
parcels, parcel 0 at the lowest address, each the four little-endian bytes at the place that its address translates to; the first of each
line counts a line request (15 R342). R62, R22: an
illegal word raises 0x01 in a group with an active lane that has nothing else to report; where none is active it changes nothing but
the program counters and chains of its lanes, or aborts the group's open region (09 R211). R61, R62: an S-only word that issues at K with an active lane raises 0x02
before any effect, its operands unread. -/
def Obligations.FetchAndDecodeChecks : Prop :=
  (∀ (s : State) (g : Nat) (G : Group) (pc : BitVec 64),
     (2 ^ 48 ≤ pc.toNat → fetchWord s g G pc = (s, .trap 0x07)) ∧
     (pc.toNat < 2 ^ 48 → pc.toNat % 4 ≠ 0 → fetchWord s g G pc = (s, .trap 0x06)) ∧
     (pc.toNat < 2 ^ 48 → pc.toNat % 4 = 0 → fetchWord s g G pc = fetchParcels s g G (s.partNo G) 3 pc.toNat) ∧
     ∀ p n va s1 e pa s2 s3 w, va < 2 ^ 48 → coreTranslate s G.tile G.core p .fetch G.priv va = (s1, .ok e pa) →
       (if e.stb then (s1, none) else claim s1 (.lanes g) G.tile G.core pa false false) = (s2, none) →
       let r := readPlace (if n = 2 ∨ va % 64 = 0 then countHost s2 p (e.ipa + (va - e.base)) pa e.mg else s2) g G.tile 4 (.pa pa e.stb)
       fetchParcels r.1 g G p n (va + 4) = (s3, .word w) → fetchParcels s g G p (n + 1) va = (s3, .word (r.2.1 + 2 ^ 32 * w))) ∧
  (∀ (s : State) (u : Cur) (G0 : Group) (e : DecodeError), heldDown s = false → s.cur = some u → s.groups.look u.g = some G0 →
     decode (wordBytes u.word) = .error e → issuing s u.g G0 u ≠ [] → dueReport (beginLanes G0 (issuing s u.g G0 u)) (issuing s u.g G0 u) = none →
     let iss := issuing s u.g G0 u
     let G1 := beginLanes G0 iss
     (passing G1 iss (wordGuard u.word) ≠ [] →
       step s = .next (advance (trapIssue (s.setGroup u.g G1) { u, g := u.g, G := G1, iss, act := [] } { code := 0x01 }))) ∧
     (passing G1 iss (wordGuard u.word) = [] → G0.region = none →
       step s = .next (advance (s.setGroup u.g (retireLanes G1 iss u.pc (wordChn u.word) [])))) ∧
     (passing G1 iss (wordGuard u.word) = [] → G0.region.isSome = true →
       step s = .next (advance (abortRegion (s.setGroup u.g G1) u.g (if 256 ≤ arIcnt G0.arstat then 1 else 4) 0 0)))) ∧
  (∀ (i : Instr) (c : Ctl) (s s1 : State) (x : Ctx), supervisorWord i = some c → atDecode c s = some (x, s1) → x.G.priv = false →
     exec i s = .next (trapIssue s1 x { code := 0x02 }))

/-! ### Reset and invariants -/

/-- The memory table keeps its canonical form at every step: rising locations, and no entry equal to what an unlisted one reads as,
so that equal memories are equal data (the model's form of memory). -/
def Obligations.MemoryStaysCanonical : Prop :=
  ∀ s s' : State, s.mem.wf → step s = .next s' → s'.mem.wf

/-- R426: after reset, after MODULE_RESET and after a life-cycle transition every byte of every SRAM and HBM stack is zero and no
line is poisoned, no key slot is held, and the logs are empty; fuses and the identity key survive the wipe. A module reset leaves no
partition and every port DISABLED, and keeps host memory; a life-cycle transition leaves the module's registers at their reset values. The memory that MemoryStaysCanonical speaks of is canonical at reset. -/
def Obligations.ResetWipes : Prop :=
  let wiped := fun (t : State) => (∀ l, l < 2 ^ 64 → t.byteAt l = 0) ∧ t.poison = [] ∧ t.keySlots = 0 ∧ t.devLog = [] ∧ t.parts = [] ∧
    t.groups = [] ∧ t.launches = []
  wiped State.reset ∧ State.reset.mem.wf ∧ State.reset.ports = [] ∧
  (∀ s : State, Does .moduleReset s (fun t => wiped t ∧ (∀ l, 2 ^ 64 ≤ l → t.byteAt l = s.byteAt l) ∧ t.tripped = false ∧ t.ports = [] ∧
    t.fused = s.fused ∧ t.lcs = s.lcs ∧ t.identity = s.identity ∧ t.trip = s.trip ∧
    (t.active, t.activeSvn) = (if s.fused ≤ s.activeSvn then (s.active, s.activeSvn) else s.prev))) ∧
  ∀ s : State, s.heldCmds = [] → wiped (lifeNow s) ∧ (lifeNow s).fused = s.fused ∧ (wipeLife s).identity = s.identity ∧
    (let t := lifeNow s
     t.ports = [] ∧ t.routes = [] ∧ t.waferid = State.reset.waferid ∧ t.pwrlim = State.reset.pwrlim ∧ t.mpool = State.reset.mpool ∧
     t.dm = State.reset.dm ∧ t.devRing = State.reset.devRing) ∧
    (s.parts = [] → s.km.busy = false → s.lcs < 3 → ∀ area, Does (.lifeCycleTransition area true) s (fun t => wiped t ∧ t.lcs = s.lcs + 1)) ∧
    (∀ p, drainHead s p = some .lifeCycle → allDrained s .lifeCycle = true → finishDrain s p = lifeNow s)

/-! ### Traps (12) -/

/-- R272: trap entry at K with a handler saves the resume address, the cause, the address, the lanes and the word, or the held
instruction's that a denial reports (R278); the lanes that
trapped go to the handler with their latch marks cleared and no yield mark or watchdog count, the other live lanes are held, the
reuse latch is freed and the group is at S. Every other register, counter and arrival of the group stays, and nothing else of the
machine changes. R277: a trap at S, or without a handler, ends the group's launch with halt code 0xFF and leaves a fatal record for
the VF fault queue; the partition's other launches go on. -/
def Obligations.TrapEntry : Prop :=
  (∀ (s : State) (g : Nat) (G : Group) (P : Part) (T : List Nat) (pc : BitVec 64) (w : Nat) (t : TrapInfo),
     s.groups.look g = some G → G.region = none → G.priv = false → s.partOf G = some P → P.tvec ≠ 0 →
     ∃ G', OnlyGroup s (trapEntry s g T pc w t) g G G' ∧
       G' = { G with epc := resumePc G T pc t, ecause := t.cause, eaddr := BitVec.ofNat 64 t.addr, emask := laneMask T,
                     einsl := if t.fet then 0 else BitVec.ofNat 64 (t.word.getD w), einsh := if t.fet then 0 else BitVec.ofNat 32 (t.word.getD w / 2 ^ 64),
                     alatch := none, priv := true, lanes := G'.lanes } ∧
       ∀ i l, G.lane? i = some l → ∃ l', G'.lane? i = some l' ∧
         (i ∈ T → l' = { l with pc := BitVec.ofNat 64 P.tvec, chain := 0, chainPc := BitVec.ofNat 64 P.tvec, yielded := none, wd := 0,
                                wdDue := false, block := .free, held := false, lat := l'.lat } ∧
           l'.lat.l0 = { l.lat.l0 with valid := false } ∧ l'.lat.l1 = { l.lat.l1 with valid := false } ∧
           l'.lat.l2 = { l.lat.l2 with valid := false } ∧ l'.lat.l3 = { l.lat.l3 with valid := false }) ∧
         (i ∉ T → l.exited = true → l' = l) ∧
         (i ∉ T → l.exited = false → LaneRegsStay l l' ∧ l'.held = true ∧ l'.arr = l.arr ∧ l'.block = l.block)) ∧
  (∀ (s : State) (g : Nat) (G : Group) (L : Launch) (P : Part) (T : List Nat) (pc : BitVec 64) (w : Nat) (t : TrapInfo),
     s.groups.look g = some G → G.region = none → s.launches.look G.launch = some L → L.halt = none → s.parts.look L.part = some P →
     G.priv = true ∨ P.tvec = 0 →
     let s' := trapEntry s g T pc w t
     s'.launches.look G.launch = some { L with halt := some (0xFF, 0xFFFF) } ∧
     (∀ k, k ≠ G.launch → s'.launches.look k = s.launches.look k) ∧
     (∃ P', s'.parts.look L.part = some P' ∧ P'.fatals = P.fatals ++ [fatalRecord G t (t.word.getD w)]) ∧
     (∀ h H, s.groups.look h = some H → H.launch ≠ G.launch → ∃ H', s'.groups.look h = some H' ∧ H'.lanes = H.lanes) ∧
     ∀ h H', s'.groups.look h = some H' → H'.launch = G.launch → ∀ l ∈ H'.lanes, l.exited = true)

/-- R280, R275: TRAP raises 0x0F and resumes after itself, BKPT raises 0x0E and resumes at itself or at its chain's first
instruction; ARG is the code operand, the address saved is 0. R277: ERET at S returns the lanes of sr.emask that have not exited to
sr.epc, the group to K, and releases the held lanes; sr.emask and the other registers stay. -/
def Obligations.TrapWordsAndReturns : Prop :=
  (∀ (c : Ctl) (o : OpE) (s s1 : State) (x : Ctx) (P : Part), ready c { chnOk := false } s = some (x, s1) → x.G.priv = false →
     s1.partOf x.G = some P → P.tvec ≠ 0 →
     (∃ t G', exec (.trap c o) s = .next t ∧ t.groups.look x.g = some G' ∧ G'.epc = x.u.pc + 12 ∧
       G'.ecause = BitVec.ofNat 64 (0x0F + o.imm.toNat % 256 * 256) ∧ G'.eaddr = 0 ∧ G'.emask = laneMask x.iss ∧
       G'.einsl = BitVec.ofNat 64 x.u.word ∧ G'.einsh = BitVec.ofNat 32 (x.u.word / 2 ^ 64) ∧ G'.priv = true ∧ G'.s = x.G.s ∧
       ∀ i l, i ∈ x.iss → x.G.lane? i = some l → ∃ l', G'.lane? i = some l' ∧ l'.pc = BitVec.ofNat 64 P.tvec ∧ LaneRegsStay l l') ∧
     ∃ t G', exec (.bkpt c o) s = .next t ∧ t.groups.look x.g = some G' ∧ G'.epc = resumePc x.G x.iss x.u.pc { code := 0x0E } ∧
       G'.ecause = BitVec.ofNat 64 (0x0E + o.imm.toNat % 256 * 256) ∧ G'.eaddr = 0 ∧ G'.emask = laneMask x.iss ∧
       G'.einsl = BitVec.ofNat 64 x.u.word ∧ G'.einsh = BitVec.ofNat 32 (x.u.word / 2 ^ 64) ∧ G'.priv = true ∧ G'.s = x.G.s ∧
       ∀ i l, i ∈ x.iss → x.G.lane? i = some l → ∃ l', G'.lane? i = some l' ∧ l'.pc = BitVec.ofNat 64 P.tvec ∧ LaneRegsStay l l') ∧
  (∀ (c : Ctl) (o : OpE) (s s1 : State) (x : Ctx), ready c { sOnly := true, chnOk := false } s = some (x, s1) →
     slgHolds s1 x.g x.G x.act = false →
     ∃ t G', exec (.eret c o) s = .next t ∧ OnlyGroup s1 t x.g x.G G' ∧
       G' = { x.G with priv := false, stall := G'.stall, sb := G'.sb, lanes := G'.lanes } ∧
       ∀ i l, x.G.lane? i = some l → ∃ l', G'.lane? i = some l' ∧ LaneRegsStay l l' ∧ l'.held = false ∧ l'.exited = l.exited ∧
         l'.pc = if x.G.emask.getLsbD i ∧ l.exited = false then x.G.epc else l.pc)

/-! ### Registers and arithmetic -/

/-- R35: p15 reads true and discards writes, and each of p0 to p14 holds one bit of its lane; a guard selects a predicate and may
invert it, 15 means always, and no word with guard 31 decodes. s0 likewise reads zero and discards writes, and any other register
reads back what was written while no other changes. -/
def Obligations.HardwiredRegisters : Prop :=
  (∀ l : Lane, l.pred 15 = true) ∧ (∀ (l : Lane) (b : Bool), l.setPred 15 b = l) ∧
  (∀ (l : Lane) (n k : Nat) (b : Bool), n < 15 → k < 15 → (l.setPred n b).pred k = if k = n then b else l.pred k) ∧
  (∀ (G : Group) (iss : List Nat) (gd : BitVec 5) (i : Nat), gd ≠ 31 →
    (i ∈ passing G iss gd ↔ i ∈ iss ∧ ∃ l, G.lane? i = some l ∧ l.pred (gd.toNat % 16) = !gd.getLsbD 4)) ∧
  (∀ (G : Group) (iss : List Nat), (∀ i ∈ iss, (G.lane? i).isSome = true) → passing G iss 15 = iss) ∧
  (∀ w : Nat, w < 2 ^ 96 → wordGuard w = 31 → ∃ e, decode (wordBytes w) = .error e) ∧
  (∀ G : Group, G.sreg 0 = 0 ∧ G.spsn 0 = false) ∧ (∀ (G : Group) (y : DWord) (p : Bool), G.setS 0 y p = G) ∧
  (∀ (G : Group) (n k : Nat) (y : DWord) (p : Bool), n ≠ 0 → (G.setS n y p).sreg k = if k = n then y else G.sreg k) ∧
  (∀ (l : Lane) (n k : Nat) (y : Word) (p : Bool), (l.setV n y p).vreg k = if k = n then y else l.vreg k)

/-- R102: SDIV by zero gives all ones and SREM by zero its dividend, for every type; the least value of a signed type divided by
minus one gives itself, and its remainder is 0. No flag is set and no trap is raised. SDIV.i32 by zero extends to all ones in 64
bits, SDIV.n32 by zero to 0x0000_0000_FFFF_FFFF. -/
def Obligations.DivisionCorners : Prop :=
  (∀ (c : Ctl) (o : OpA) (s s1 : State) (x : Ctx), ready c (scalarForm2 c o (iDiv o.ty.signed)).need s = some (x, s1) →
    let gives := fun (i : Instr) (y : Nat) => ∃ t, exec i s = .next t ∧
      Wrote c x s t o.dst false (fun j => ({ x.env j with fl := 0 }, extS o.ty y)) (fun _ => false) x.next
    (sB x o = 0 → gives (.sdiv c o) (2 ^ tyW o.ty - 1) ∧ gives (.srem c o) (sA x o)) ∧
    (o.ty.signed = true → sA x o = 2 ^ (tyW o.ty - 1) → sB x o = 2 ^ tyW o.ty - 1 →
      gives (.sdiv c o) (sA x o) ∧ gives (.srem c o) 0)) ∧
  extS .i32 (2 ^ 32 - 1) = 2 ^ 64 - 1 ∧ extS .n32 (2 ^ 32 - 1) = 0xFFFFFFFF

/-- R101, R102: the arithmetic of width w: sums, differences and products modulo 2^w, the high half of a product rounded down,
quotients towards zero with the remainder's sign that of the dividend, and the fixed results of division by zero and of the least
value by minus one. R101, R104: shifts and rotates take the amount modulo w, logical and arithmetic; SEXT's field and SINS's
insertion, bit by bit; the counts of leading zeros and of ones, and reversal. -/
def Obligations.IntegerAndBitValues : Prop :=
  (∀ (w a b : Nat), 0 < w → a < 2 ^ w → b < 2 ^ w →
     iAdd w a b = (a + b) % 2 ^ w ∧ (iSub w a b + b) % 2 ^ w = a ∧ iMul w a b = a * b % 2 ^ w ∧
     (∀ sg, (iMulh sg w a b : Int) = (valOf sg w a * valOf sg w b / 2 ^ w) % 2 ^ w) ∧
     (∀ sg, iDiv sg w a 0 = 2 ^ w - 1 ∧ iRem sg w a 0 = a) ∧
     (∀ sg, b ≠ 0 → (iDiv sg w a b : Int) = (valOf sg w a).tdiv (valOf sg w b) % 2 ^ w) ∧
     (∀ sg, b ≠ 0 → (iRem sg w a b : Int) = (valOf sg w a).tmod (valOf sg w b) % 2 ^ w) ∧
     (a = 2 ^ (w - 1) → b = 2 ^ w - 1 → 1 < w → iDiv true w a b = a ∧ iRem true w a b = 0)) ∧
  (∀ (w a b : Nat), w = 32 ∨ w = 64 → a < 2 ^ w →
     (∀ i, i < w → (iShl w a b).testBit i = (decide (b % w ≤ i) && a.testBit (i - b % w))) ∧
     (∀ i, i < w → (iShr w a b).testBit i = (decide (i + b % w < w) && a.testBit (i + b % w))) ∧
     (∀ i, i < w → (iSar w a b).testBit i = a.testBit (min (i + b % w) (w - 1))) ∧
     (∀ i, i < w → (iRot w a b).testBit ((i + b % w) % w) = a.testBit i) ∧
     (∀ i, i < w → (iBrev w a).testBit i = a.testBit (w - 1 - i)) ∧
     (∀ len, 0 < len → len ≤ w → ∀ i, i < w →
       (iExt false w a b len).testBit i = (decide (i < len) && decide (b % w + i < w) && a.testBit (b % w + i))) ∧
     (∀ e len, 0 < len → len ≤ w → ∀ i, i < w → (iIns w a e b len).testBit i =
       (if b % w ≤ i ∧ i < b % w + len then e.testBit (i - b % w) else a.testBit i)) ∧
     (a ≠ 0 → iClz w a = w - 1 - a.log2) ∧ iClz w 0 = w)

/-- R97 to R108, R98: every scalar instruction gives its value once for the group, to its destination alone. -/
def Obligations.ScalarResults : Prop :=
  Executes scalarRule

/-- R121 to R127: every vector integer instruction gives each active lane its value, to its destination alone. -/
def Obligations.VectorResults : Prop :=
  Executes vectorRule

/-- R130 to R135: every vector floating-point instruction gives each active lane its value, flags and draws; approximated functions
give the value that Config names (log 7). R138 to R141: conversions. -/
def Obligations.FloatResults : Prop :=
  (Executes floatRule) ∧
  (Executes convertRule)

/-- R110, R114, R149 to R154, R192, R264, R284: words that exchange, count or report within the group. R157: MSCL scales the sum by
its count, sets NVC and gives 0 where the count is 0, and marks that in the predicate it names. -/
def Obligations.GroupResults : Prop :=
  (Executes groupRule) ∧
  (∀ (c : Ctl) (o : OpA) (s s1 : State) (x : Ctx),
     ready c ((({} : Meta).reads true [(o.a, false), (o.b, false), (o.c, false)]).write o.dst false) s = some (x, s1) →
     ∃ t, exec (.mscl c o) s = .next t ∧
       Wrote c x (s.updGroup x.g (fun G => G.updLanes x.act (fun i l => l.setPred (o.aux.toNat % 16) (vN x i o.b == 0)))) t o.dst false
         (fun i => if vN x i o.b = 0 then ((x.env i).raise flNVC, 0)
           else fMscl o.rm (x.env i) (f32In x i o.aba o.nga o.a) (vN x i o.c) (vN x i o.b)) (fun _ => false) x.next)

/-- R38, R39, R274: what the special registers read. R111, R276: SWR writes sr.fflags and sr.srctr in each active lane, the group's
registers once, and those of the partition once, each with its own writable bits; nothing else of the group but its hints and
program counters changes. -/
def Obligations.SpecialRegisters : Prop :=
  (∀ (s : State) (G : Group) (i : Nat),
     srRead s G i 0x000 = i ∧ srRead s G i 0x001 = G.w ∧ srRead s G i 0x002 = G.slot * (64 / G.w) + G.pos ∧
     srRead s G i 0x003 = G.core ∧ srRead s G i 0x004 = G.tile ∧ srRead s G i 0x005 = G.tile % 30 ∧
     srRead s G i 0x006 = G.tile / 30 ∧ srRead s G i 0x009 = s.waferid ∧ srRead s G i 0x020 = s.clock % 2 ^ 64 ∧
     srRead s G i 0x023 = G.priv.toNat ∧ srRead s G i 0x031 = G.srseed.toNat ∧ srRead s G i 0x033 = G.arstat.toNat ∧
     srRead s G i 0x034 = G.counter 0 + G.counter 1 * 2 ^ 6 + G.counter 2 * 2 ^ 12 + G.counter 3 * 2 ^ 18 ∧
     srRead s G i 0x101 = G.epc.toNat ∧ srRead s G i 0x102 = G.ecause.toNat ∧ srRead s G i 0x103 = G.eaddr.toNat ∧
     srRead s G i 0x104 = G.emask.toNat ∧ srRead s G i 0x105 = G.einsl.toNat ∧ srRead s G i 0x106 = G.einsh.toNat ∧
     srRead s G i 0x107 = G.escr0.toNat ∧ srRead s G i 0x108 = G.escr1.toNat ∧
     (∀ l, G.lane? i = some l → srRead s G i 0x030 = l.fflags.toNat ∧ srRead s G i 0x032 = l.srctr.toNat) ∧
     ∀ P, s.partOf G = some P → srRead s G i 0x008 = P.tiles.length ∧ srRead s G i 0x100 = P.tvec ∧ srRead s G i 0x109 = 2 ^ P.wdlog ∧
       srRead s G i 0x110 = P.s1root ∧ srRead s G i 0x111 = P.s1ctl) ∧
  (∀ (c : Ctl) (o : OpE) (s s1 : State) (x : Ctx),
     ready c { (({} : Meta).read false o.a false) with
       sOnly := srSonly o.imm.toNat, badS := srSonly o.imm.toNat && (!swrOk o.imm.toNat || o.a.isOf [.v]),
       chnOk := !srPart o.imm.toNat } s = some (x, s1) →
     slgHolds s1 x.g x.G x.act = false →
     let n := o.imm.toNat
     let q := BitVec.ofNat 64 (srcScalar x .n64 64 o.a)
     let y := fun (i : Nat) => srcLane x.G (match o.a with | .vreg _ => i | _ => x.low) .n32 32 o.a
     ∃ t G0 G, exec (.swr c o) s = .next t ∧ s.groups.look x.g = some G0 ∧ t.groups.look x.g = some G ∧
       (∀ h, h ≠ x.g → t.groups.look h = s.groups.look h) ∧ t = { s with groups := t.groups, parts := t.parts } ∧
       HintsTaken c s.clock G0 G ∧
       G = { G0 with lanes := G.lanes, stall := G.stall, sb := G.sb, region := G.region, arstat := G.arstat,
                     srseed := if n = 0x031 then q else G0.srseed, epc := if n = 0x101 then q else G0.epc,
                     escr0 := if n = 0x107 then q else G0.escr0, escr1 := if n = 0x108 then q else G0.escr1 } ∧
       (∀ i l, G0.lane? i = some l → ∃ l', G.lane? i = some l' ∧ l'.v = l.v ∧ l'.vPsn = l.vPsn ∧ l'.p = l.p ∧ (i ∉ x.iss → l' = l) ∧
         (i ∈ x.iss → l'.pc = x.u.pc + 12) ∧
         l'.fflags = (if n = 0x030 ∧ i ∈ x.act then BitVec.ofNat 6 (y i) else l.fflags) ∧
         l'.srctr = (if n = 0x032 ∧ i ∈ x.act then BitVec.ofNat 32 (y i) else l.srctr)) ∧
       (n ≠ 0x100 → n ≠ 0x110 → n ≠ 0x111 → t.parts = s.parts) ∧
       ∀ P, s.partOf x.G = some P →
         (n = 0x100 → t.parts.look (s.partNo x.G) = some { P with tvec := q.toNat / 4 * 4 }) ∧
         (n = 0x110 → t.parts.look (s.partNo x.G) = some { P with s1root := s1rootOf q.toNat }) ∧
         (n = 0x111 → t.parts.look (s.partNo x.G) = some { P with s1ctl := s1ctlOf q.toNat }))

/-- R58, R115, R31: a pair word without a memory half: the scalar half once for the group, the vector half in each active lane,
which reads what the scalar half has written; l1 then holds the scalar result and l0 the vector result. -/
def Obligations.PairWordResults : Prop :=
  ∀ (p : PairWord) (s s1 : State) (x : Ctx) (d : Dst), p.wf = true → ready (pairCtl p) (pairMeta p) s = some (x, s1) →
    pairVDst p = some d → p.vop ≠ 22 →
    let X : Ctx := { x with G := putPlain x x.G (pairSDst p) false (pairScalar s1 x p) }
    ∃ t G0 G, exec (.pairWord p) s = .next t ∧ OnlyGroup s t x.g G0 G ∧ GroupStays G0 G ∧ HintsTaken (pairCtl p) s.clock G0 G ∧
      (∀ k, G.sreg k = if (pairSDst p).hasS k then BitVec.ofNat 64 (pairScalar s1 x p x.low) else G0.sreg k) ∧
      ∀ i l, G0.lane? i = some l → ∃ l', G.lane? i = some l' ∧ (i ∉ x.iss → l' = l) ∧ (i ∈ x.iss → l'.pc = x.u.pc + 12) ∧
        (i ∉ x.act → LaneRegsStay l l') ∧
        (i ∈ x.act →
          let r := pairVector X p i (X.env i)
          (∀ k, l'.vreg k = if d.hasV false k then BitVec.ofNat 32 r.2 else l.vreg k) ∧
          (∀ k, k < 15 → l'.pred k = if d.hasP k then r.2 != 0 else if (pairSDst p).hasP k then pairScalar s1 x p i != 0 else l.pred k) ∧
          l'.fflags = l.fflags ||| r.1.fl ∧ l'.srctr = r.1.ctr ∧ l'.lat.l0.val = d.latched false r.2 ∧
          l'.lat.l1.val = (pairSDst p).latched false (pairScalar s1 x p (x.src (pairSDst p) i)))

/-! ### Memory (07; 01 R41, R42) -/

/-- R41, R42: an access of n bytes at an address: what each window admits, in the order of the checks, decoding before alignment
before bounds before protection. R42, R62, R270: where an access of a load or a store fails its checks, the word traps with the code
and address of the lowest-numbered failing lane's first failing check, and has no effect. R30, R42, R159: lanes whose addresses all
name local windows and pass their checks reach their places, with nothing to wait for but their own side log. R161 to R163: the
checks, translations and holds of an access, where no reduction is pending, change no byte of memory and no register. -/
def Obligations.AccessChecks : Prop :=
  (∀ (G : Group) (L : Launch) (how : How) (n ea : Nat), ea < 2 ^ 64 →
     (ea < 2 ^ 48 → addrCheck G L how n ea = if ea % n ≠ 0 then .error 0x06 else .ok (.glob ea)) ∧
     (2 ^ 48 ≤ ea → ea < 0xFFFF800000000000 → addrCheck G L how n ea = .error 0x07) ∧
     (0xFFFF830000000000 ≤ ea → addrCheck G L how n ea = .error 0x07) ∧
     (∀ off, off < 2 ^ 40 - 0x10000 → ea = 0xFFFF800000010000 + off → addrCheck G L how n ea =
       if ea % n ≠ 0 then .error 0x06 else if L.rc.scr < off + n then .error 0x05
       else .ok (.scr (storeLoc G.tile G.core (L.scrBase G.lin + off)))) ∧
     (∀ off, off < 0x10000 → ea = 0xFFFF800000000000 + off → (how = .load ∨ how = .store) → addrCheck G L how n ea =
       if ea % n ≠ 0 then .error 0x06 else if G.v * G.w * 4 ≤ off then .error 0x03 else .ok (.rv off)) ∧
     (∀ off, off < 2 ^ 40 → ea = 0xFFFF820000000000 + off → how = .load → addrCheck G L how n ea =
       if ea % n ≠ 0 then .error 0x06 else if 0x10000 ≤ off then .error 0x07 else .ok (.cst off)) ∧
     (∀ off, off < 0x10000 → ea = 0xFFFF820000000000 + off → how = .store → ea % n = 0 → addrCheck G L how n ea = .error 0x0A)) ∧
  (∀ (i : Instr) (r : AccessRule) (how : How) (s s1 : State) (x : Ctx) (L : Launch) (pre : List (Nat × Nat)) (a : Nat × Nat)
     (post : List (Nat × Nat)) (code : Nat),
     ((loadRule i = some r ∧ how = .load) ∨ (storeRule i = some r ∧ how = .store ∧ ordStop s1 x (r.ord == 2) r.sc = none)) →
     ready r.ctl r.need s = some (x, s1) → x.G.region = none → s1.launchOf x.G = some L → r.accs x = pre ++ a :: post →
     (∀ b ∈ pre, ∃ q, addrCheck x.G L how r.n b.2 = .ok q ∧ ∀ va, q ≠ .glob va) → addrCheck x.G L how r.n a.2 = .error code →
     exec i s = .next (trapIssue s1 x { code, addr := a.2 })) ∧
  (∀ (x : Ctx) (s : State) (L : Launch) (how : How) (posted whole : Bool) (n : Nat) (accs : List (Nat × Nat)) (pl : Nat × Nat → Place),
     s.launchOf x.G = some L → ownPending s x.g x.G how.need.w n (accs.map (fun a => (if whole then x.act else [a.1], a.2))) = [] →
     (∀ a ∈ accs, (∃ l, addrCheck x.G L how n a.2 = .ok (.scr l) ∧ pl a = .loc l) ∨
       (∃ o, addrCheck x.G L how n a.2 = .ok (.rv o) ∧ pl a = .rv o) ∨ (∃ o, addrCheck x.G L how n a.2 = .ok (.cst o) ∧ pl a = .cst o)) →
     prepare x s how posted whole n accs = .go s (accs.map (fun a => ⟨a.1, a.2, pl a⟩)) []) ∧
  (∀ (x : Ctx) (s s2 : State) (how : How) (posted whole : Bool) (n : Nat) (accs : List (Nat × Nat)) (ps : List LaneAcc)
     (bad : List (Nat × Nat × WFault)), s.still → prepare x s how posted whole n accs = .go s2 ps bad →
     s2.mem = s.mem ∧ s2.groups = s.groups ∧ s2.still)

/-- R159, R168, R170, R155: a load whose accesses may be performed gives each active lane, or the group, the value that its place
holds, extended by its width code, with the mark of a poisoned line; outside its group the machine is as the reads leave it. R11,
R30, R170: what a place reads: the little-endian bytes of scratch or memory, the argument copy beyond whose end zeros stand, and the
registers of the register view; memory stays as it is, but for the age of a managed frame (15 R341). -/
def Obligations.LoadResults : Prop :=
  (∀ (i : Instr) (r : AccessRule) (s s1 s2 : State) (x : Ctx) (ps : List LaneAcc) (bad : List (Nat × Nat × WFault)),
     loadRule i = some r → ready r.ctl r.need s = some (x, s1) → x.G.region = none →
     prepare x s1 .load false r.dst.isSca r.n (r.accs x) = .go s2 ps bad →
     let q := readLanes x.g x.G.tile r.n r.ext s2 ps
     q.1.groups = s1.groups →
     ∃ t, exec i s = .next t ∧
       Wrote r.ctl x (q.1.under s) t r.dst (r.w == 3 && r.dst.isVec) (fun j => (x.env j, (q.2.lookD (0, false) j).1))
         (fun j => (q.2.lookD (0, false) j).2) x.next) ∧
  (∀ (s : State) (g tile n : Nat) (G : Group), s.groups.look g = some G →
     (∀ l, readPlace s g tile n (.loc l) = (s, s.readN l n, s.isPoisoned l)) ∧
     (∀ a, spaceOf a < 2 → s.quiet (lineOf a) → readPlace s g tile n (.pa a false) =
       (touchFrame s a, s.readN (locOf s a) n, s.isPoisoned (locOf s a)) ∧ (touchFrame s a).mem = s.mem ∧ (touchFrame s a).groups = s.groups) ∧
     (∀ o L, s.launchOf G = some L →
       readPlace s g tile n (.cst o) = (s, ofLeBytes ((List.range n).map (fun i => L.args.getD (o + i) 0)), false)) ∧
     (∀ o, readPlace s g tile n (.rv o) = (s, rvRead G o n)) ∧
     (∀ r l, 0 < G.w → r < G.w → G.lane? r = some l → ∀ k, rvRead G (4 * (G.w * k + r)) 4 = ((l.vreg k).toNat, l.vpsn k)))

/-- R159, R164, R168, R180: a store whose accesses may be performed writes, passes in its group, and leaves all registers;
afterwards the byte of the highest-numbered lane that names a location stands there, and every byte that no lane names is as before.
Lanes that a fault turned away have gone to the side log (R163). R30: a store to the register view of a lane and register sets that
register of that lane, and no other register. -/
def Obligations.StoreResults : Prop :=
  (∀ (i : Instr) (r : AccessRule) (s s1 s2 s3 : State) (x : Ctx) (ps : List LaneAcc) (bad : List (Nat × Nat × WFault)),
     storeRule i = some r → ready r.ctl r.need s = some (x, s1) → x.G.region = none →
     ordStop s1 x (r.ord == 2) r.sc = none → prepare x s1 .store true (!r.clears) r.n (r.accs x) = .go s2 ps bad →
     retireSlog s2 x (!r.clears) r.n 1 none .n64 r.ord r.sc bad (fun j => (storeData x.G r.dst r.n j).1) (fun j => (storeData x.G r.dst r.n j).2) = some s3 →
     (r.written x (s1.partNo x.G) s3 ps).groups = s1.groups →
     (∃ t, exec i s = .next t ∧ Passed r.ctl x s (r.written x (s1.partNo x.G) s3 ps) t) ∧
     (bad = [] → s3 = s2) ∧
     ((∀ a ∈ ps, a.place.plain s3) → ∀ t, exec i s = .next t →
       (∀ loc, ¬ touches s3 r.n ps loc → t.byteAt loc = s3.byteAt loc) ∧
       ∀ pre a post l k, ps = pre ++ a :: post → placeLoc s3 a.place = some l → k < r.n → ¬ touches s3 r.n post (l + k) →
         (t.byteAt (l + k)).toNat = (storeData x.G r.dst r.n a.lane).1 / 256 ^ k % 256)) ∧
  (∀ (s : State) (g p k r v : Nat) (G : Group) (l : Lane) (psn : Bool), s.groups.look g = some G → 0 < G.w → r < G.w →
     G.lane? r = some l → v < 2 ^ 32 →
     let t := writePlace s g p 4 v psn (.rv (4 * (G.w * k + r)))
     t.mem = s.mem ∧ ∃ G' l', t.groups.look g = some G' ∧ G'.lane? r = some l' ∧
       (∀ j, l'.vreg j = if j = k then BitVec.ofNat 32 v else l.vreg j) ∧ l'.vpsn k = psn ∧ (∀ i, i ≠ r → G'.lane? i = G.lane? i))

/-- R169: STN writes each active lane's datum at its offset in the neighbour tile's range of its own unit's counterpart, and passes;
beyond the logical grid it raises 0x07, misaligned 0x06 and past the range 0x05. R169: one lane's neighbour store: the counterpart
unit's bytes take the datum; in a partition tile without it the drop counter rises; a tile of no or another partition drops the
packet with a drop record; no other byte changes. -/
def Obligations.NeighbourStores : Prop :=
  (∀ (c : Ctl) (d : BitVec 2) (e : BitVec 1) (o : OpM) (s s1 : State) (x : Ctx) (L : Launch),
     let n := if e = 0 then 4 else 8
     let off := fun (i : Nat) => eaOf x.G i .tile o % 2 ^ 32
     ready c { ((({} : Meta).addr true .tile o).data o.dst (n == 8)) with chnOk := false } s = some (x, s1) → s1.launchOf x.G = some L →
     (neighbour x.G.tile d.toNat = none → exec (.stn c d e o) s = .next (trapIssue s1 x { code := 0x07, addr := eaOf x.G x.low .tile o })) ∧
     ∀ nb, neighbour x.G.tile d.toNat = some nb →
       (∀ i ∈ x.act, off i % n ≠ 0 ∨ L.rc.tmb < off i + n → (∀ j ∈ x.act, j < i → off j % n = 0 ∧ off j + n ≤ L.rc.tmb) →
         x.act.Pairwise (· < ·) → exec (.stn c d e o) s =
           .next (trapIssue s1 x { code := if off i % n ≠ 0 then 0x06 else 0x05, addr := eaOf x.G i .tile o })) ∧
       (∀ s2, (∀ i ∈ x.act, off i % n = 0 ∧ off i + n ≤ L.rc.tmb) → ordStop s1 x (o.ord == 2) o.sc.toNat = none →
         ownPending s1 x.g x.G true n (x.act.map (fun i => ([i], eaOf x.G i .tile o))) = [] →
         holdAll s1 x.g x.G true false (x.act.filterMap (fun i => (stnPa x L (s1.partOf x.G) nb (i, off i)).map
           (fun pa => ⟨i, eaOf x.G i .tile o, .pa pa false⟩))) = (s2, none) →
         let s3 := x.act.foldl (fun s i => stnLane x L n nb (storeData x.G o.dst n) s (i, off i)) s2
         s3.groups = s1.groups → ∃ t, exec (.stn c d e o) s = .next t ∧ Passed c x s s3 t)) ∧
  (∀ (x : Ctx) (L : Launch) (n nb i off : Nat) (val : Nat → Nat × Bool) (s : State) (P : Part) (lv : Nat), (n = 4 ∨ n = 8) →
     s.launchOf x.G = some L → s.parts.look L.part = some P → L.rc.lowest 3 = some lv → s.still →
     (P.tiles.contains nb = false → (stnLane x L n nb val s (i, off)).mem = s.mem ∧ (stnLane x L n nb val s (i, off)).groups = s.groups) ∧
     (P.tiles.contains nb = true →
       (L.tm.find? (fun q => q.tile == nb && L.rc.idx lv (q.unit * L.rc.lanesOf lv) == L.rc.idx lv (x.G.lin + i)) = none →
         stnLane x L n nb val s (i, off) = s.updPart L.part (fun p => { p with stndrop := (p.stndrop + 1) % 2 ^ 32 })) ∧
       ∀ q, L.tm.find? (fun q => q.tile == nb && L.rc.idx lv (q.unit * L.rc.lanesOf lv) == L.rc.idx lv (x.G.lin + i)) = some q →
         spaceOf (tmPa nb (q.base + off)) = 1 →
         let l := locOf s (tmPa nb (q.base + off))
         (∀ k, k < n → ((stnLane x L n nb val s (i, off)).byteAt (l + k)).toNat = (val i).1 / 256 ^ k % 256) ∧
         ∀ loc, loc < l ∨ l + n ≤ loc → (stnLane x L n nb val s (i, off)).byteAt loc = s.byteAt loc))

/-- R174 to R177: a returning atomic gives each active lane the old value of its word, lanes applied in increasing order, and writes
the destination; outside its group the machine is as the lanes' operations leave it. R175, R180: one lane's atomic on a word of
scratch or memory with no reduction pending: the old value is returned and the word takes the operation's new value; a poisoned line
stays unchanged and marks the value; no other byte changes. R175: what the operations make of the old value: sums wrap, the least
and greatest by the type's order, the bitwise ones, the exchange, compare-and-swap, and the sum whose crossing of a threshold wakes
waiters. -/
def Obligations.AtomicResults : Prop :=
  (∀ (i : Instr) (c : Ctl) (o : OpT) (op : Nat) (s s1 s2 : State) (x : Ctx) (ps : List LaneAcc) (bad : List (Nat × Nat × WFault)),
     atomicRule i = some (c, o, op) → ready c (atomicMeta o op) s = some (x, s1) →
     ordStop s1 x (isRel o.ord.toNat) o.sc.toNat = none →
     prepare x s1 .atomic false false (tyW o.ty / 8) (x.act.map (fun j => (j, eaT x.G j o))) = .go s2 ps bad →
     let r := atomLanes x.g (s1.partNo x.G) x.G.tile op o.ty (fun j => srcLane x.G j o.ty (tyW o.ty) o.b)
       (fun j => srcLane x.G j o.ty (tyW o.ty) o.c) s2 ps
     r.1.groups = s1.groups →
     ∃ t, exec i s = .next t ∧
       Wrote c x (r.1.under s) t o.dst o.ty.is64 (fun j => (x.env j, (r.2.lookD (0, false) j).1))
         (fun j => (r.2.lookD (0, false) j).2) x.next) ∧
  (∀ (s : State) (g p : Nat) (t : Ty) (f : Nat → Nat) (pl : Place) (l : Nat), pl.plain s → placeLoc s pl = some l →
     let n := tyW t / 8
     let r := atomicPlace s g p t f pl
     r.2 = (s.readN l n, s.isPoisoned l) ∧
     (s.isPoisoned l = true → r.1.mem = s.mem) ∧
     (s.isPoisoned l = false → (∀ k, k < n → (r.1.byteAt (l + k)).toNat = f (s.readN l n) / 256 ^ k % 256) ∧
       ∀ loc, loc < l ∨ l + n ≤ loc → r.1.byteAt loc = s.byteAt loc)) ∧
  (∀ (t : Ty) (old b e : Nat),
     atomFun 0 t b e old = (old + b) % 2 ^ tyW t ∧
     atomFun 2 t b e old = (if valOf t.signed (tyW t) old ≤ valOf t.signed (tyW t) b then old else b) ∧
     atomFun 3 t b e old = (if valOf t.signed (tyW t) old ≤ valOf t.signed (tyW t) b then b else old) ∧
     atomFun 4 t b e old = old &&& b ∧ atomFun 5 t b e old = old ||| b ∧ atomFun 6 t b e old = old ^^^ b ∧ atomFun 7 t b e old = b ∧
     atomFun 8 t b e old = (if old = b then e else old) ∧ atomFun 9 t b e old = (old + b) % 2 ^ tyW t)

/-- R175, R163: a reduction whose accesses may be performed passes without writing a register; its lanes' words go to the write
queues of their homes, or are applied at once. R175, 14 R321: a reduction that waits at its home is seen by every later read of its
line: the word then holds the operation's value. -/
def Obligations.ReductionResults : Prop :=
  (∀ (i : Instr) (c : Ctl) (o : OpT) (op : Nat) (s s1 s2 s3 : State) (x : Ctx) (ps : List LaneAcc) (bad : List (Nat × Nat × WFault)),
     redRule i = some (c, o, op) → ready c { (({} : Meta).tSrcs o false) with chnOk := false } s = some (x, s1) →
     ordStop s1 x (isRel o.ord.toNat) o.sc.toNat = none →
     prepare x s1 .atomic true false (tyW o.ty / 8) (x.act.map (fun j => (j, eaT x.G j o))) = .go s2 ps bad →
     retireSlog s2 x false (tyW o.ty / 8) 2 (some op) o.ty o.ord.toNat o.sc.toNat bad (fun j => srcLane x.G j o.ty (tyW o.ty) o.b)
       (fun _ => false) = some s3 →
     let s4 := ps.foldl (redLane x.g (s1.partNo x.G) op o.ty (fun j => srcLane x.G j o.ty (tyW o.ty) o.b)) s3
     s4.groups = s1.groups → ∃ t, exec i s = .next t ∧ Passed c x s s4 t) ∧
  (∀ (s : State) (g p op a v h : Nat) (t : Ty), spaceOf a < 2 → mapped s a = false → homeTile s p a = some h → s.still →
     s.isPoisoned (locOf s a) = false →
     (readPa (redPlace s g p op t v (.pa a false)) a (tyW t / 8)).2 = atomOp op t (s.readN (locOf s a) (tyW t / 8)) (v % 2 ^ 64) % 2 ^ tyW t)

/-- R163, R167, R171, R172: fences, prefetches and range hints pass without changing a register or a byte; a fence first waits for the
side log of its active lanes, and at a far scope for their accesses to the fabric. R282: SFLUSH.c writes the core's dirty lines back. R173, 14 R322: MAPS registers the range in the scratch and answers true, or
answers false without effect when the entry is another launch's or the range overlaps a live entry; MAPS.un writes an entry of the
launch back, and answers whether it was one. -/
def Obligations.PassingAndMapsWords : Prop :=
  (∀ (i : Instr) (c : Ctl) (m : Meta) (may : State → Ctx → Bool) (s s1 : State) (x : Ctx), passRule i = some (c, m, may) →
     ready c m s = some (x, s1) → may s1 x = true → ∃ t, exec i s = .next t ∧ Passed c x s s1 t) ∧
  (∀ (c : Ctl) (o : OpE) (s s1 : State) (x : Ctx), ready c { sOnly := true, chnOk := false } s = some (x, s1) →
     ∃ t, exec (.sflushC c o) s = .next t ∧ Passed c x s (writeBackL1 s1 x.G.tile x.G.core) t ∧
       ∀ l d, (t.coreAt x.G.tile x.G.core).l1.look l = some d → d = false) ∧
  ((∀ (c : Ctl) (o : OpE) (s s1 s2 : State) (x : Ctx) (L : Launch) (pas : List (Nat × Nat)),
     let n := o.bits 48 45
     let va := src64 x o.a
     let off := src64 x o.b % 2 ^ 32
     let len := src64 x o.b / 2 ^ 32
     let v0 := va / granBytes * granBytes
     ready c { (((({} : Meta).read false o.a false).read false o.b false).write o.dst false) with chnOk := false } s = some (x, s1) →
     s1.launchOf x.G = some L → va % 4096 = 0 → off % 4096 = 0 → len % 4096 = 0 → len ≠ 0 → va + len ≤ 2 ^ 48 → off + len ≤ L.rc.scr →
     mapsPages x L.part ((va + len - v0 + granBytes - 1) / granBytes) s1 v0 [] = (s2, .ok pas) →
     let live := (s2.coreAt x.G.tile x.G.core).maps
     let free := (live.look n).all (fun e => e.launch == x.G.launch) &&
       !live.any (fun e => e.2.part == L.part && decide (e.2.va < va + len) && decide (va < e.2.va + e.2.len))
     (free = true → (mapsLines va len pas).find? (s2.lockedFor (some x.g)) = none) →
     let s3 := if free then mapsDo x L n va len off pas s2 else s2
     s3.groups = s1.groups →
     (∃ t, exec (.maps c o) s = .next t ∧ Wrote c x (s3.under s) t o.dst false (fun i => (x.env i, free.toNat)) (fun _ => false) x.next) ∧
     (free = true → (s3.coreAt x.G.tile x.G.core).maps.look n =
       some ⟨x.G.launch, L.part, va, len, pas, off, storeLoc x.G.tile x.G.core (L.scrBase x.G.lin + off)⟩)) ∧
   ∀ (c : Ctl) (o : OpE) (s s1 : State) (x : Ctx),
     let own := match (s1.coreAt x.G.tile x.G.core).maps.look (o.bits 48 45) with | some e => e.launch == x.G.launch | none => false
     let s2 := if own then unmapEntry s1 x.G.tile x.G.core (o.bits 48 45) else s1
     ready c { (({} : Meta).write o.dst false) with chnOk := false } s = some (x, s1) → s2.groups = s1.groups →
     ∃ t, exec (.mapsUn c o) s = .next t ∧ Wrote c x (s2.under s) t o.dst false (fun i => (x.env i, own.toNat)) (fun _ => false) x.next)

/-- R178: WAITA completes with true when the word has reached the threshold; else it registers the group and its active lanes block;
with the table full it completes with false. A release then writes the predicate (R177). R229, R230: WAITC waits while its counter
is above n; then at K it reports the oldest error of its class that no WAITC has reported, as a deferred trap that names the operation;
with none it goes on. At S it goes on too, and leaves the errors of its class due when a lane next issues at K (R271). -/
def Obligations.WaitWords : Prop :=
  ((∀ (c : Ctl) (o : OpT) (s s1 s2 : State) (x : Ctx) (a : LaneAcc) (bad : List (Nat × Nat × WFault)),
     ready c { (((({} : Meta).read false o.base false).read false o.c false).write o.dst false) with chnOk := false } s = some (x, s1) →
     prepare x s1 .waita false true (tyW o.ty / 8) [(x.low, eaT x.G x.low o)] = .go s2 [a] bad →
     let r := readPlace s2 x.g x.G.tile (tyW o.ty / 8) (match a.place with | .pa q _ => .pa q false | q => q)
     let wt := waiterAt r.1 (s1.partNo x.G) x.G.tile a.place
     let full := decide (256 ≤ (r.1.tileAt wt.1).waiters.length)
     let done := decide (valOf o.ty.signed (tyW o.ty) (srcScalar x o.ty (tyW o.ty) o.c) ≤ valOf o.ty.signed (tyW o.ty) r.2.1)
     let s3 := r.1.updTile wt.1 (fun t => { t with waiters := t.waiters ++ [{ pa := wt.2, g := x.g }] })
     r.1.groups = s1.groups →
     (done = true ∨ full = true → ∃ t, exec (.waita c o) s = .next t ∧
       Wrote c x (r.1.under s) t o.dst false (fun i => (x.env i, done.toNat)) (fun _ => false) x.next) ∧
     (done = false → full = false → ∃ t, exec (.waita c o) s = .next t ∧
       Waits c x s s3 t (.waita wt.1 wt.2 (predDst o.dst)) x.next)) ∧
   ∀ (s : State) (g : Nat) (sel : Nat → Bool) (res : Bool) (G : Group) (i : Nat) (l : Lane) (tile pa : Nat) (pd : BitVec 4),
     s.groups.look g = some G → G.lane? i = some l → l.block = .waita tile pa pd → sel pa = true →
     ∃ G' l', (releaseWaita s g sel res).groups.look g = some G' ∧ G'.lane? i = some l' ∧ l'.block = .free ∧
       (pd ≠ 15 → l'.pred pd.toNat = res) ∧ l'.v = l.v) ∧
  (∀ (c : Ctl) (o : OpE) (s s1 : State) (x : Ctx), ready c { chnOk := false } s = some (x, s1) →
     let cls := o.bits 48 47
     let n := o.bits 46 41
     (n < x.G.counter cls → ∃ t, exec (.waitc c o) s = .next t ∧
       Waits c x s s1 t (.waitc cls n) (fun _ => x.u.pc)) ∧
     (x.G.counter cls ≤ n → x.G.errs.find? (fun e => e.cls == cls) = none → ∃ t, exec (.waitc c o) s = .next t ∧ Passed c x s s1 t) ∧
     (x.G.counter cls ≤ n → x.G.priv = true → x.G.errs.any (fun e => e.cls == cls) = true →
       ∃ t t', exec (.waitc c o) s = .next t ∧ Passed c x s s1 t' ∧
         t = t'.updGroup x.g (fun G => { G with errs := x.G.errs.map (fun e => if e.cls = cls then { e with due := true } else e) })) ∧
     (x.G.counter cls ≤ n → x.G.priv = false → ∀ e, x.G.errs.find? (fun e => e.cls == cls) = some e → exec (.waitc c o) s = .next
       (trapIssue (s1.updGroup x.g (fun G => { G with errs := G.errs.erase e })) x
         { code := e.code, addr := e.va, arg := e.code, dfr := true, ecls := cls + 1, epos := e.pos, s2 := e.s2 }))) ∧
  ∀ (G : Group) (iss : List Nat) (e : EngErr), deniedOf G iss = none → G.mreset = false → G.errs.find? EngErr.due = some e →
    G.priv = false → dueReport G iss = some (e.trap, { G with errs := G.errs.erase e })

/-! ### Control (08; 01 R44 to R46) -/

/-- R185, R47: each active lane goes to its target and the others on to the next word; a link takes the address of the next word,
read before it is written. R187, R189, R190, R191: EXIT ends the active lanes, YIELD marks them, SLEEP blocks each until its time,
or marks it when its delay is 0, and RECONV notes its address for the group; all other lanes of the set go on. -/
def Obligations.ControlWords : Prop :=
  (∀ (i : Instr) (c : Ctl) (m : Meta) (link : Dst) (tgt : Ctx → Nat → BitVec 64) (s s1 : State) (x : Ctx),
     transferRule i = some (c, m, link, tgt) → ready c m s = some (x, s1) →
     ∃ t, exec i s = .next t ∧
       Wrote c x s t link link.isVec (fun j => (x.env j, (x.u.pc + 12).toNat)) (fun _ => false)
         (fun j => if j ∈ x.act then tgt x j else x.u.pc + 12)) ∧
  (∀ (c : Ctl) (o : OpE) (s s1 : State) (x : Ctx),
     (ready c { chnOk := false } s = some (x, s1) →
       (∃ t, exec (.exit c o) s = .next t ∧ Moved c x s t SameControl (fun i l l' =>
         (i ∈ x.iss → l'.pc = x.u.pc + 12) ∧ l'.exited = (l.exited || decide (i ∈ x.act)))) ∧
       (∃ t, exec (.yield c o) s = .next t ∧ Moved c x s t SameControl (fun i l l' =>
         (i ∈ x.iss → l'.pc = x.u.pc + 12) ∧ l'.exited = l.exited ∧
         (i ∈ x.act → l'.yielded = some (yieldDebts s1 x.G) ∧ l'.wd = 0 ∧ l'.block = .free))) ∧
       (∃ t, exec (.reconv c o) s = .next t ∧
         Moved c x s t (fun G0 G => G.ra = some (x.u.pc + dispOf o) ∧ G.grow = G0.grow ∧ G.shrnk = G0.shrnk ∧ G.enq = G0.enq ∧ G.v = G0.v)
           (fun i l l' => (i ∈ x.iss → l'.pc = x.u.pc + 12) ∧ l'.exited = l.exited))) ∧
     (ready c { (if o.a.isZero then ({} : Meta) else ({} : Meta).read true o.a false) with chnOk := false } s = some (x, s1) →
       ∃ t, exec (.sleep c o) s = .next t ∧ Moved c x s t SameControl (fun i l l' =>
         (i ∈ x.iss → l'.pc = x.u.pc + 12) ∧ l'.exited = l.exited ∧
         (i ∈ x.act → if sleepDelay x.G i o = 0 then l'.yielded = some (yieldDebts s1 x.G) ∧ l'.block = .free
           else l'.block = .sleep (s.clock + sleepDelay x.G i o)))))

/-- R193, R195: a lane that arrives at a barrier takes the open phase's number, and BAR then waits for that phase to pass; a lane
that has arrived in the open phase stays at the word; BARW waits where the lane has arrived. Each release first waits for R163, and
at a barrier of fabric or system scope for the acknowledgements of its lanes' accesses to other wafers. R407: lanes that would wait at a
fabric barrier that their wafer is cut off from take 0x11. -/
def Obligations.BarrierArrival : Prop :=
  ∀ (c : Ctl) (o : OpE) (s s1 : State) (x : Ctx) (u P : Nat),
    ready c { chnOk := false, bar := some (barDom o, barId o) } s = some (x, s1) → barOf s1 x.G o = some (u, P) →
    let cut := fabricLost s1 x.G (barDom o)
    (relStop s1 x x.act (barFar s1 x.G (barDom o)) = none → ∀ bar : Bool, (bar = true → cut = false) →
      ∃ t, exec (if bar then .bar c o else .bara c o) s = .next t ∧ Moved c x s t SameControl (fun i l l' =>
        l'.exited = l.exited ∧ (i ∈ x.iss → i ∉ x.act → l'.pc = x.u.pc + 12 ∧ l'.arr = l.arr) ∧
        (i ∈ x.act → l.arrived (barDom o) (barId o) = some P →
          l'.pc = x.u.pc ∧ l'.arr = l.arr ∧ l'.block = .bar (barDom o) u (barId o) P false) ∧
        (i ∈ x.act → l.arrived (barDom o) (barId o) ≠ some P → l'.pc = x.u.pc + 12 ∧
          l'.arrived (barDom o) (barId o) = some P ∧ l'.block = if bar then .bar (barDom o) u (barId o) P true else .free))) ∧
    (relStop s1 x x.act (barFar s1 x.G (barDom o)) = none → cut = true → exec (.bar c o) s = .next (trapIssue (s1.updGroup x.g (fun G =>
      G.updLanes x.act (fun _ l => { l with arr := l.arr.setAt (16 * barDom o + barId o) P }))) x { code := 0x11 })) ∧
    let came := x.act.any (fun i => x.G.laneTest i (fun l => l.arrived (barDom o) (barId o) == some P))
    (cut && came = true → exec (.barw c o) s = .next (trapIssue s1 x { code := 0x11 })) ∧
    (cut && came = false → ∃ t, exec (.barw c o) s = .next t ∧ Moved c x s t SameControl (fun i l l' =>
      l'.exited = l.exited ∧ l'.arr = l.arr ∧ (i ∈ x.iss → l'.pc = x.u.pc + 12) ∧
      (i ∈ x.act → l'.block = if l.arrived (barDom o) (barId o) = some P then .bar (barDom o) u (barId o) P true else .free)))

/-- R198, R199, R200, R202, R46: ENQ hands the record's bytes to the dispatcher and its lanes go on, their latches
shifted by a status that is still to come; GROW answers true at once when the
count is declared, else its request, the larger of any pending, blocks its lanes; SHRNK lowers the count and drops the registers
beyond it, waiting for outstanding writes first, and has no effect on a lower count. -/
def Obligations.QueueAndWindowWords : Prop :=
  (∀ (c : Ctl) (o : OpE) (s s1 s2 : State) (x : Ctx) (ps : List LaneAcc) (bad : List (Nat × Nat × WFault)),
    ready c { (((({} : Meta).read false o.a false).read false o.b false).write o.dst false) with chnOk := false } s = some (x, s1) →
    slgHolds s1 x.g x.G x.act = false → x.G.enq = none → noSpace (src64 x o.a) = false → src64 x o.a % 64 = 0 →
    prepare x s1 .load false true 8 ((List.range 32).map (fun i => (x.low, src64 x o.a + 8 * i))) = .go s2 ps bad →
    let q := readLanes x.g x.G.tile 8 (fun v => v) s2 ps
    q.1.groups = s1.groups →
    ∃ t, exec (.enq c o) s = .next t ∧ Moved c x (q.1.under s) t (fun G0 G => G.ra = G0.ra ∧ G.grow = G0.grow ∧ G.shrnk = G0.shrnk ∧
      G.v = G0.v ∧ G.enq = some ⟨BitVec.ofNat 64 (src64 x o.b), o.bits 44 43, src64 x o.a, q.2.flatMap (fun e => leBytes 8 e.2.1),
        q.2.any (fun e => e.2.2), false, x.act, (scaDst o.dst).1, (scaDst o.dst).2, BitVec.ofNat 4 (o.bits 48 45), false⟩)
      (fun i l l' => l'.exited = l.exited ∧ (i ∈ x.iss → l'.pc = x.u.pc + 12 ∧ l'.block = .free) ∧
        (i ∈ x.act → l'.lat.l0.enq = true ∧ l'.lat.l1.val = l.lat.l0.val))) ∧
  (∀ (c : Ctl) (o : OpE) (s s1 : State) (x : Ctx), ready c { (({} : Meta).write o.dst false) with chnOk := false } s = some (x, s1) →
    (countOf o ≤ x.G.v → ∃ t, exec (.grow c o) s = .next t ∧
      Wrote c x s t o.dst false (fun i => (x.env i, 1)) (fun _ => false) x.next) ∧
    (x.G.v < countOf o → ∃ t G, exec (.grow c o) s = .next t ∧ Waits c x s s1 t (.grow (predDst o.dst)) x.next ∧
      t.groups.look x.g = some G ∧ G.grow = some (max (countOf o) (x.G.grow.getD 0)) ∧ G.v = x.G.v)) ∧
  ∀ (c : Ctl) (o : OpE) (s s1 : State) (x : Ctx), ready c { chnOk := false } s = some (x, s1) →
    (x.G.v ≤ countOf o → ∃ t, exec (.shrnk c o) s = .next t ∧ Passed c x s s1 t) ∧
    (countOf o < x.G.v → x.G.sb.any (fun e => e.2 != 0) = true → ∃ t G, exec (.shrnk c o) s = .next t ∧ Waits c x s s1 t .shrnk x.next ∧
      t.groups.look x.g = some G ∧ G.shrnk = some (min (countOf o) (x.G.shrnk.getD (countOf o))) ∧ G.v = x.G.v) ∧
    (countOf o < x.G.v → x.G.sb.any (fun e => e.2 != 0) = false → ∃ t G, exec (.shrnk c o) s = .next t ∧ t.groups.look x.g = some G ∧
      G.v = countOf o ∧ G.s = x.G.s ∧ (∀ h, h ≠ x.g → t.groups.look h = s.groups.look h) ∧ t = { s with groups := t.groups } ∧
      ∀ i l, x.G.lane? i = some l → ∃ l', G.lane? i = some l' ∧ l'.p = l.p ∧ (i ∈ x.iss → l'.pc = x.u.pc + 12) ∧
        ∀ k, l'.vreg k = if k < countOf o then l.vreg k else 0)

/-! ### Atomic regions (09) -/

/-- R207, R208, R205, R209, R223: ARB opens a region of the active lanes with a snapshot of the scalar registers and of their
predicates, the fallback address, and empty tables; a serialised one takes the partition's token, or waits for it. With a lane that
fails the guard, or a pending GROW, it raises 0x12. R220, R222: ARX aborts the open region with cause explicit and its code: the
scalar registers and the region lanes' predicates take their snapshots, no memory is written, CNT counts up to 255, and the region
lanes continue at FB; a lane that was granted a slot of a buffer in that time then takes it. It raises 0x12 without a region. R210: ARST gives the group's status; with CLR set it then clears CNT. -/
def Obligations.RegionsOpenAndAbort : Prop :=
  (∀ (c : Ctl) (o : OpE) (s s1 : State) (x : Ctx) (P : Part), ready c { chnOk := false } s = some (x, s1) → s1.partOf x.G = some P →
     let grow := x.G.lanes.any (fun l => match l.block with | .grow _ => true | _ => false)
     let ser := o.imm.toNat.testBit 0
     let free := P.token.isNone && P.tokenQ.isEmpty
     ((x.iss.length ≠ x.act.length ∨ grow = true) → exec (.arb c o) s = .next (trapIssue s1 x { code := 0x12 })) ∧
     (x.iss.length = x.act.length → grow = false → ∃ t G r, exec (.arb c o) s = .next t ∧ t.groups.look x.g = some G ∧
       (∀ h, h ≠ x.g → t.groups.look h = s.groups.look h) ∧ t = { s with groups := t.groups, parts := t.parts } ∧
       G = { x.G with region := some r, arstat := G.arstat, lanes := G.lanes, stall := G.stall, sb := G.sb } ∧
       r.fb = arbFallback x.u.pc o.imm ∧ r.ser = ser ∧ r.lanes = x.act ∧ r.snapS = x.G.s ∧ r.snapSPsn = x.G.sPsn ∧
       (∀ i ∈ x.act, ∀ l, x.G.lane? i = some l → r.snapP.look i = some l.p) ∧ r.tags = [] ∧ r.inputs = [] ∧ r.stores = [] ∧
       r.cons = [] ∧ bitN G.arstat.toNat 7 = true ∧ bitN G.arstat.toNat 8 = ser ∧ arIcnt G.arstat = 1 ∧
       (∀ i l, x.G.lane? i = some l → ∃ l', G.lane? i = some l' ∧ LaneRegsStay l l' ∧ (i ∈ x.iss → l'.pc = x.u.pc + 12) ∧
         (i ∈ x.act → l'.block = if ser && !free then .token else .free)) ∧
       (ser = false → t.parts = s.parts) ∧
       (ser = true → t.parts.look (s.partNo x.G) =
         some (if free then { P with token := some x.g } else { P with tokenQ := P.tokenQ ++ [x.g] })))) ∧
  (∀ (c : Ctl) (o : OpE) (s s1 : State) (x : Ctx), ready c { chnOk := false, allow := .yes } s = some (x, s1) →
     (x.G.region = none → exec (.arx c o) s = .next (trapIssue s1 x { code := 0x12 })) ∧
     ∀ r, x.G.region = some r → ∃ (t : State) (G : Group), exec (.arx c o) s = .next t ∧ t.mem = s.mem ∧ t.groups.look x.g = some G.endWaits ∧
       (∀ h, h ≠ x.g → t.groups.look h = s.groups.look h) ∧
       G = { x.G with s := r.snapS, sPsn := r.snapSPsn, region := none, arstat := G.arstat, lanes := G.lanes } ∧
       G.arstat = arstatOf (min (r.cnt + 1) 255) (arIcnt x.G.arstat) 0 (o.imm.toNat % 256) (arSer x.G.arstat) false 7 ∧
       ∀ i l, x.G.lane? i = some l → ∃ l', G.lane? i = some l' ∧ l'.v = l.v ∧ l'.vPsn = l.vPsn ∧ l'.fflags = l.fflags ∧
         l'.srctr = l.srctr ∧ (i ∉ r.lanes → l' = l) ∧
         (i ∈ r.lanes → l'.p = r.snapP.lookD l.p i ∧ l'.pc = r.fb ∧ l'.block = .free ∧ l'.chain = 0)) ∧
  (∀ G : Group, (∀ l ∈ G.lanes, ∀ v d nw, l.block ≠ .cbgot v d nw) → G.endWaits = G) ∧
  (∀ (c : Ctl) (o : OpE) (s s1 : State) (x : Ctx), ready c { (({} : Meta).write o.dst false) with allow := .yes } s = some (x, s1) →
     ∃ t t', exec (.arst c o) s = .next t ∧
       Wrote c x s t' o.dst false (fun i => (x.env i, x.G.arstat.toNat)) (fun _ => false) x.next ∧
       t = t'.updGroup x.g (fun G => if o.imm.toNat.testBit 0 then
         { G with arstat := BitVec.ofNat 64 (x.G.arstat.toNat - bitsN x.G.arstat.toNat 55 48 * 2 ^ 48) } else G))

/-- R213, R216: inside a region a tracked load whose line is a new input reads memory, adds the input, unpinned and unconflicted,
and tags its destination; a tracked store is buffered and writes no memory. R218: ARE raises 0x12 without a region. Where a line cannot
be locked it keeps its place in the commit and waits. With its lines locked and their queued reductions drained, no pinned input changed
and every constraint kept, it writes each store entry, recomputes each tagged register, closes the region and goes on; a changed pinned input, a constraint that no longer holds or a poisoned re-read aborts instead, with
no memory written. -/
def Obligations.RegionsTrackAndCommit : Prop :=
  ((∀ (c : Ctl) (w : BitVec 3) (o : OpM) (s s1 s2 s3 : State) (x : Ctx) (r : Region) (pa : Nat),
     ready c { ((({} : Meta).addr false .abs o).write o.dst false) with allow := if o.ord = 0 then .yes else .no } s = some (x, s1) →
     x.G.region = some r → regionAddr x s1 r .rd w.toNat (eaOf x.G x.low .abs o) = (s2, .ok (pa, false)) →
     r.stores.find? (fun e => e.pa == pa && e.w == w.toNat) = none → r.inputs.findIdx? (fun i => i.pa == pa && i.w == w.toNat) = none →
     overlapsAny r pa w.toNat = false → r.inputs.length < 8 →
     ownPending s2 x.g x.G false (wBytes w.toNat) [(r.lanes, eaOf x.G x.low .abs o)] = [] →
     let s2' := s2.updGroup x.g (fun G => pinAll G (mSrcs o))
     claim s2' (.lanes x.g) x.G.tile x.G.core pa false false = (s3, none) →
     let q := readPlace s3 x.g x.G.tile (wBytes w.toNat) (.pa pa false)
     ∀ G1, q.1.groups.look x.g = some G1 →
       ∃ t G r1 r', exec (.sld c w o) s = .next t ∧ t.mem = q.1.mem ∧ t.groups.look x.g = some G ∧ G1.region = some r1 ∧ G.region = some r' ∧
         r'.inputs = r1.inputs ++ [⟨pa, w.toNat, BitVec.ofNat 64 (extCode w.toNat q.2.1), q.2.2, false, false⟩] ∧
         ∀ n, o.dst = .sca false n → n ≠ 0 →
           G.sreg n.toNat = BitVec.ofNat 64 (extCode w.toNat q.2.1) ∧ r'.tags.look n.toNat = some ⟨r.inputs.length, 0⟩) ∧
   ∀ (c : Ctl) (w : BitVec 3) (o : OpM) (s s1 s2 : State) (x : Ctx) (r : Region) (pa : Nat) (n : BitVec 6) (nw stb : Bool),
     ready c { (({} : Meta).addr false .abs o) with chnOk := false, allow := if o.ord = 0 then .yes else .no } s = some (x, s1) →
     x.G.region = some r → o.dst = .sca nw n → regionAddr x s1 r .wr w.toNat (eaOf x.G x.low .abs o) = (s2, .ok (pa, stb)) →
     s2.groups = s1.groups → overlapsAny r pa w.toNat = false → r.stores.length < 16 →
     (∀ a ∈ mSrcs o, srcTag x.G a = none) →
     ∃ t G r', exec (.sst c w o) s = .next t ∧ t.mem = s2.mem ∧ t.groups.look x.g = some G ∧ G.region = some r' ∧ G.s = x.G.s ∧
       r'.stores = r.stores.filter (fun q => !(q.pa == pa && q.w == w.toNat)) ++
         [⟨pa, w.toNat, x.G.sreg n.toNat, x.G.spsn n.toNat, srcTag x.G (.sreg n)⟩] ∧
       r'.inputs = r.inputs ∧ r'.cons = r.cons) ∧
  (∀ (c : Ctl) (o : OpE) (s s1 : State) (x : Ctx), ready c { chnOk := false, allow := .yes } s = some (x, s1) →
     (x.G.region = none → exec (.are c o) s = .next (trapIssue s1 x { code := 0x12 })) ∧
     ∀ r, x.G.region = some r → slgHolds s1 x.g x.G r.lanes = false →
       (∀ s2 b, commitClaims x r s1 = (s2, some b) → ∃ t G q, exec (.are c o) s = .next t ∧ t.mem = s2.mem ∧ t.groups.look x.g = some G ∧
         G.region = some q ∧ q.commit = true ∧ q.inputs = r.inputs ∧ q.stores = r.stores ∧
         ∀ i ∈ x.iss, ∀ l, G.lane? i = some l → l.block = b) ∧
       ∀ s2 q, commitClaims x r s1 = (s2, none) →
       let s3 := (r.inputs.map (fun i => lineOf i.pa) ++ r.stores.map (fun e => lineOf e.pa)).foldl drainLine s2
       (s3.groups.look x.g).bind Group.region = some q →
       (∀ s4, freshAll s3 q.inputs = (s4, none) → exec (.are c o) s = .next (abortRegion s1 x.g 5 0 0x0B)) ∧
       ∀ s4 xs, freshAll s3 q.inputs = (s4, some xs) →
         (∀ k, pinnedConflict q.inputs xs = some k → exec (.are c o) s = .next (abortRegion s1 x.g 2 k 0)) ∧
         (pinnedConflict q.inputs xs = none → ∀ j, q.cons.findIdx? (fun e => !consHolds xs e) = some j →
           exec (.are c o) s = .next (abortRegion s1 x.g 3 j 0)) ∧
         (pinnedConflict q.inputs xs = none → q.cons.findIdx? (fun e => !consHolds xs e) = none →
           let s5 := q.stores.foldl (commitStore x (s3.partNo x.G) q xs) s4
           ∃ t, exec (.are c o) s = .next t ∧ t.mem = s5.mem ∧
             ∀ G2, s5.groups.look x.g = some G2 → ∃ G, t.groups.look x.g = some G ∧ G.region = none ∧
               bitN G.arstat.toNat 7 = false ∧ arCnt G.arstat = 0 ∧
               ((∀ l ∈ G2.lanes, ∀ v d nw, l.block ≠ .cbgot v d nw) → ∀ k, G.sreg k = (q.tags.foldl (commitReg q xs) G2).sreg k) ∧
               ∀ i l, G2.lane? i = some l → ∃ l', G.lane? i = some l' ∧ LaneRegsStay l l' ∧ (i ∈ x.iss → l'.pc = x.u.pc + 12)))

/-! ### Engines and circular buffers (10, 11) -/

/-- R226 to R228, R233, R239, R260 to R263: a word that names its operands in registers and passes every check issues one operation
of its class, and goes on. R231, R233, R235, R236, R240 to R242: a word whose control block is read without poison and passes every
check issues one operation that holds the block's words. -/
def Obligations.EngineWordsIssue : Prop :=
  (∀ (i : Instr) (r : EngineRule) (s s1 : State) (x : Ctx) (L : Launch) (op : EngOp), engineRule i = some r →
     ready r.ctl { r.need with chnOk := false } s = some (x, s1) → engWait s1 x r.cls r.ch = none → s1.launchOf x.G = some L →
     r.op x s1 L = some op → ∃ t, exec i s = .next t ∧ Issued r.ctl x s s1 t op x.G.alatch) ∧
  (∀ (i : Instr) (r : BlockRule) (s s1 s2 : State) (x : Ctx) (L : Launch) (ps : List LaneAcc) (bad : List (Nat × Nat × WFault)) (op : EngOp),
     blockRule i = some r → ready r.ctl { (({} : Meta).read false r.o.a false) with chnOk := false } s = some (x, s1) →
     engWait s1 x r.cls (some (chOf r.o)) = none → s1.launchOf x.G = some L → rangeFail x.G L false 64 (src64 x r.o.a) 64 = none →
     prepare x s1 .load false true 8 ((List.range 8).map (fun k => (x.low, src64 x r.o.a + 8 * k))) = .go s2 ps bad →
     let q := readLanes x.g x.G.tile 8 (fun v => v) s2 ps
     q.1.groups = s1.groups → q.2.any (fun e => e.2.2) = false → r.op x q.1 L (q.2.map (fun e => e.2.1)) = some op →
     ∃ t, exec i s = .next t ∧ Issued r.ctl x s q.1 t op x.G.alatch)

/-- R243: a near-memory packet issues with its operand block captured, when its addresses pass their checks; with .acq.rel it first
waits as a release does (R244). R251, R253, R254: a
matrix job whose parameter block and ranges pass every check issues with its A rows captured, or with those of the held latch; RU
holds them for the next job and its absence frees the latch. R243, R258, R266, R403: a packet that nothing at a home holds completes, the
engine does the operation whose turn it is, an engine without progress is reset, and a window of the Sloe counts ends. -/
def Obligations.PacketAndMatrixWords : Prop :=
  (∀ (i : Instr) (c : Ctl) (o : OpE) (fn : Nat) (s s1 s2 : State) (x : Ctx) (L : Launch) (a : LaneAcc) (pa : Nat) (stb : Bool)
     (bad : List (Nat × Nat × WFault)),
     nmoRule i = some (c, o, fn) → ready c { (({} : Meta).reads false [(o.a, false), (o.b, false)]) with chnOk := false } s = some (x, s1) →
     engWait s1 x 2 none = none → s1.launchOf x.G = some L → src64 x o.a < 2 ^ 48 → src64 x o.a % nmoAlign fn = 0 →
     src64 x o.b % 64 = 0 → src64 x o.b + 64 ≤ L.rc.scr →
     (o.bits 44 42 = 0 ∨ relStop s1 x x.act (decide (4 ≤ o.bits 41 39)) = none) →
     prepare x s1 (.packet (fn != 5)) false true 8 [(x.low, src64 x o.a)] = .go s2 [a] bad → a.place = .pa pa stb →
     spaceOf pa ≠ 3 →
     s2.groups = s1.groups →
     let loc := storeLoc x.G.tile x.G.core (L.scrBase x.G.lin + src64 x o.b)
     s2.isPoisoned loc = false →
     ∃ t, exec i s = .next t ∧ Issued c x s s2 t
       { (engOp s2 x 2 0 (0x200 + fn) (dwords ((List.range 8).map (fun k => s2.readN (loc + 8 * k) 8) ++ [src64 x o.a, pa, loc]))) with
         d := o.bits 48 45 + 16 * o.bits 38 38, stb } x.G.alatch) ∧
  (∀ (i : Instr) (c : Ctl) (sparse ru : Bool) (o : OpE) (s s1 : State) (x : Ctx) (L : Launch) (a : ALatch),
     mmaRule i = some (c, sparse, ru, o) → ready c { (({} : Meta).read false o.a false) with chnOk := false } s = some (x, s1) →
     engWait s1 x 1 none = none → s1.launchOf x.G = some L →
     let off := srcScalar x .n32 32 o.a
     let loc := storeLoc x.G.tile x.G.core (L.scrBase x.G.lin + off)
     let w := dwords ((List.range 8).map (fun k => s1.readN (loc + 8 * k) 8))
     off % 64 = 0 → off + 64 ≤ L.rc.scr → s1.isPoisoned loc = false → matBad w (matBlk w) sparse = false → (matBlk w).acc < x.G.t →
     (matBlk w).abase + 12 * (matBlk w).ks ≤ x.G.v → matAddr x.G L (matBlk w) sparse = none →
     settleA x.G (matBlk w) sparse s1.nextId = .ok a →
     ∃ t, exec i s = .next t ∧ Issued c x s s1 t
       { (engOp s1 x 1 0 (if sparse then 0x101 else 0x100) w) with ty := (matBlk w).fmt, tileNo := (matBlk w).acc, a := some a }
       (if ru then some a else none)) ∧
  (∀ (s : State) (n tile core page : Nat) (o : EngOp), s.ops.look n = some o →
     let ends := fun (t : State) => ∃ o', t.ops.look n = some o' ∧ o'.fin = true
     (0x200 ≤ o.kind → o.fin = false → nmoStops s (o.word 9) = none →
       NmoRes.waits (nmoRun s (nmoOf s o) (o.kind - 0x200) (o.word 8) (o.word 9) o.stb) = false → Does (.nmoExecute n) s ends) ∧
     (o.kind = 0x102 → o.wait = none → (s.groups.look o.g).isSome = true → mxNext s tile core = some (n, o) → Does (.matrixKstep tile core) s ends) ∧
     (mxPending s tile core = true → (s.coreAt tile core).mxTime + 2 ^ 22 ≤ s.clock → Does (.matrixEngineReset tile core) s (fun t =>
       (t.coreAt tile core).resets = (s.coreAt tile core).resets + 1 ∧ (t.coreAt tile core).mxTime = s.clock)) ∧
     (s.clock % 4096 = 0 → Does (.sloeWindowEnd page) s (fun t => t.ops = s.ops ∧
       ∀ k T, s.tiles.look k = some T → ∀ e, (t.tileAt k).sloe.look page = some e → e.count = 0 ∧ e.from_ = [])))

/-- R237: CBCFG makes its buffer the launch's, empty, with its geometry and base, and answers true; it answers false for another
launch's buffer, waits while a CPYCB for it is queued, and raises 0x07 for a bad geometry; it shifts no latch (R238). R238: CBWAIT takes a published slot
(full) or a free one at once and gives its address, when the buffer has one and no earlier waiter of its kind stands; else the group
waits in arrival order. A buffer that the launch does not own raises 0x07. R238: what a buffer grants, and what CBREL and CBPOST do
to one that the launch owns; each is a release. The waiters that can then be served are. -/
def Obligations.BufferWords : Prop :=
  (∀ (c : Ctl) (o : OpE) (s s1 : State) (x : Ctx) (L : Launch),
     ready c { (({} : Meta).reads false [(o.a, false), (o.b, false)]) with chnOk := false } s = some (x, s1) →
     s1.launchOf x.G = some L →
     let b := cbNo o
     let answers := fun (sX t : State) (y : Bool) => ∃ G0 G, OnlyGroup (sX.under s) t x.g G0 G ∧ HintsTaken c s.clock G0 G ∧
       GroupStays G0 G ∧ G.s = G0.s ∧ ∀ i l, G0.lane? i = some l → ∃ l', G.lane? i = some l' ∧ (i ∉ x.iss → l' = l) ∧
         (i ∈ x.iss → l' = { l with pc := x.u.pc + 12, chain := l'.chain, chainPc := l'.chainPc, yielded := l'.yielded, p := l'.p,
                                    lat := l'.lat, block := l'.block } ∧ l'.lat.l0.val = l.lat.l0.val ∧
           l'.lat.l1.val = l.lat.l1.val ∧ l'.lat.l2.val = l.lat.l2.val ∧ l'.lat.l3.val = l.lat.l3.val ∧
           ∀ k, l'.pred k = if i ∈ x.act ∧ k = (predDst o.dst).toNat ∧ k ≠ 15 then y else l.pred k)
     let base := src64 x o.a
     let geom := src64 x o.b
     let z := geom % 2 ^ 32
     let m := bitsN geom 39 32
     let ok := geom / 2 ^ 40 == 0 && 64 ≤ z && z ≤ 2 ^ 20 && z % 64 == 0 && 1 ≤ m && m ≤ 64 &&
       (base / 2 ^ 40 == 0xFFFF80 || base / 2 ^ 40 == 0xFFFF81)
     let old := (s1.tileAt x.G.tile).cbufs.look b
     (ok = false → exec (.cbcfg c o) s = .next (trapIssue s1 x { code := 0x07, addr := base })) ∧
     (ok = true → rangeFail x.G L false 64 base (m * z) = none →
       ((∃ q, old = some q ∧ q.owner ≠ x.G.launch) → ∃ t, exec (.cbcfg c o) s = .next t ∧
         answers s1 t false) ∧
       ((∀ q, old = some q → q.owner = x.G.launch) → cpycbPending s1 x.G.tile b = true → ∃ t, exec (.cbcfg c o) s = .next t ∧
         Waits c x s s1 t (.cbcfg b) (fun _ => x.u.pc)) ∧
       ((∀ q, old = some q → q.owner = x.G.launch ∧ q.waiters = []) → cpycbPending s1 x.G.tile b = false →
         let new : CBuf := { owner := x.G.launch, b := base, loc := windowLoc x.G L base, z, m, f := m, n := 0, wr := 0, q := 0,
                             c := 0, e := 0, written := [], acquired := [], taken := 0, waiters := [] }
         let s2 := s1.updTile x.G.tile (fun t => { t with cbufs := t.cbufs.setAt b new })
         ∃ t, exec (.cbcfg c o) s = .next t ∧ answers s2 t true))) ∧
  (∀ (c : Ctl) (o : OpE) (full : Bool) (s s1 : State) (x : Ctx),
     ready c { (({} : Meta).write o.dst false) with chnOk := false } s = some (x, s1) →
     let i : Instr := if full then .cbwaitFull c o else .cbwaitFree c o
     let put := fun (q : CBuf) => s1.updTile x.G.tile (fun t => { t with cbufs := t.cbufs.setAt (cbNo o) q })
     (ownedCb s1 x (cbNo o) = none → exec i s = .next (trapIssue s1 x { code := 0x07 })) ∧
     ∀ q, ownedCb s1 x (cbNo o) = some q →
       (q.canServe full = true → q.waiters.any (fun w => w.2.1 == full) = false → ∃ t, exec i s = .next t ∧
         Wrote c x ((put (q.grant full).1).under s) t o.dst false (fun j => (x.env j, (q.grant full).2)) (fun _ => false) x.next) ∧
       (q.canServe full = false ∨ q.waiters.any (fun w => w.2.1 == full) = true → ∃ t, exec i s = .next t ∧
         Waits c x s (put { q with waiters := q.waiters ++ [(x.g, full, x.act)] }) t
           (.cbwait (cbNo o) full (scaDst o.dst).1 (scaDst o.dst).2) x.next)) ∧
  ((∀ q : CBuf, (q.canServe true = true ↔ 0 < q.n) ∧ (q.canServe false = true ↔ 0 < q.f) ∧
     (q.grant true).2 = q.b + q.c * q.z ∧ (q.grant true).1.n = q.n - 1 ∧ (q.grant true).1.c = (q.c + 1) % q.m ∧
     (q.grant false).2 = q.b + q.wr * q.z ∧ (q.grant false).1.f = q.f - 1 ∧ (q.grant false).1.wr = (q.wr + 1) % q.m) ∧
   (∀ (c : Ctl) (o : OpE) (s s1 : State) (x : Ctx) (q : CBuf), ready c { chnOk := false } s = some (x, s1) →
     ownedCb s1 x (cbNo o) = some q → slgHolds s1 x.g x.G x.act = false →
     let q' := if q.taken = 0 then q else { q with taken := q.taken - 1, e := (q.e + 1) % q.m, f := q.f + 1 }
     let s2 := serveCb (s1.updTile x.G.tile (fun t => { t with cbufs := t.cbufs.setAt (cbNo o) q' })) x.G.tile (cbNo o) q.waiters.length
     s2.groups = s1.groups → ∃ t, exec (.cbrel c o) s = .next t ∧ Passed c x s s2 t) ∧
   ∀ (c : Ctl) (o : OpE) (s s1 : State) (x : Ctx) (q : CBuf),
     ready c { (({} : Meta).read false o.a false) with chnOk := false } s = some (x, s1) →
     ownedCb s1 x (cbNo o) = some q → slgHolds s1 x.g x.G x.act = false →
     let q' := match q.acquired.find? (fun sl => q.b + sl * q.z == src64 x o.a) with | some sl => q.publish sl | none => q
     let s2 := serveCb (s1.updTile x.G.tile (fun t => { t with cbufs := t.cbufs.setAt (cbNo o) q' })) x.G.tile (cbNo o) q.waiters.length
     s2.groups = s1.groups → ∃ t, exec (.cbpost c o) s = .next t ∧ Passed c x s s2 t)

/-! ### System words (12) -/

/-- R281, R282, R283: STLBI drops the TLB entries of its kind and its lanes block until the partition's walks are done; SFLUSH.c writes
back the core's dirty lines, SFLUSH.t and SFLUSH.p give up those of the tile and of the partition, and the last the copies of stable pages;
HALT ends the launch
with its code at the first HALT, and every lane of its groups. -/
def Obligations.SystemWords : Prop :=
  ∀ (c : Ctl) (o : OpE) (s s1 : State) (x : Ctx),
    (ready c { (({} : Meta).read false o.a false) with sOnly := true, chnOk := false } s = some (x, s1) → slgHolds s1 x.g x.G x.act = false →
      let a := src64 x o.a
      let s2 := retryFaults (dropTlb s1 (s1.partNo x.G) (fun e => pageHas a e.s1) (fun e => e.stage == 1 && e.covers a)) (s1.partNo x.G) 1 (fun pg => pg == a / granBytes)
      s2.groups = s1.groups ∧ ∃ t, exec (.stlbiVa c o) s = .next t ∧ Waits c x s s2 t .stlbi x.next) ∧
    (ready c { sOnly := true, chnOk := false } s = some (x, s1) →
      (slgHolds s1 x.g x.G x.act = false →
        let s2 := retryFaults (dropTlb s1 (s1.partNo x.G) (fun _ => true) (fun e => e.stage == 1 && true)) (s1.partNo x.G) 1 (fun _ => true)
        s2.groups = s1.groups ∧ ∃ t, exec (.stlbiAll c o) s = .next t ∧ Waits c x s s2 t .stlbi x.next) ∧
      (∃ t, exec (.sflushC c o) s = .next t ∧ Passed c x s (writeBackL1 s1 x.G.tile x.G.core) t) ∧
      (∃ t, exec (.sflushT c o) s = .next t ∧ Passed c x s (giveUpLines s1 [x.G.tile]) t) ∧
      (∀ P, s1.partOf x.G = some P →
        let s2 := dropStable (giveUpLines s1 P.tiles) P.tiles
        (∃ t, exec (.sflushP c o) s = .next t ∧ Passed c x s s2 t) ∧ s2.mem = s.mem ∧ ∀ k ∈ P.tiles, (s2.tileAt k).stable = []) ∧
      (∀ L, s.launches.look x.G.launch = some L → L.halt = none →
        ∃ t, exec (.halt c o) s = .next t ∧ t.launches.look x.G.launch = some { L with halt := some (o.imm.toNat % 256, x.G.tile) } ∧
          (∀ k, k ≠ x.G.launch → t.launches.look k = s.launches.look k) ∧
          ∀ h H, t.groups.look h = some H → H.launch = x.G.launch → ∀ l ∈ H.lanes, l.exited = true))

/-! ### Events of groups, cores and the dispatcher (01, 08, 09, 16) -/

/-- R57, R36, R45, R190, R202, R281, R336: what ends a wait: a STALL hint that has run out, a result written, the watchdog's limit,
a wake time, a SHRNK's outstanding writes, an STLBI's walks, and a fault that has ended. -/
def Obligations.WaitsEnd : Prop :=
  (∀ (s : State) (g : Nat) (G : Group), s.groups.look g = some G →
    (∀ c, G.stall = some c → c ≤ s.clock → Does (.stallExpiry g) s (fun t => OnlyGroup s t g G { G with stall := none })) ∧
    (∀ k, Does (.resultWriteback g k) s (fun t => ∃ G', OnlyGroup s t g G G' ∧ G' = { G with sb := G'.sb } ∧
      ∀ j, G'.sb.lookD 0 j = G.sb.lookD 0 j - (if j = k then 1 else 0))) ∧
    (∀ i l, G.lane? i = some l → 2 ^ (s.coreAt G.tile G.core).wdlog ≤ l.wd → Does (.watchdogExpiry g i) s (fun t =>
      ∃ G', OnlyGroup s t g G G' ∧ G' = { G with lanes := G'.lanes } ∧ G'.lane? i = some { l with wdDue := true } ∧
        ∀ j, j ≠ i → G'.lane? j = G.lane? j)) ∧
    (∀ i l c, G.lane? i = some l → l.block = .sleep c → c ≤ s.clock → Does (.sleepWake g i) s (fun t =>
      ∃ G' d, OnlyGroup s t g G G' ∧ G' = { G with lanes := G'.lanes } ∧
        G'.lane? i = some { l with block := .free, yielded := some d, wd := 0, wdDue := false } ∧ ∀ j, j ≠ i → G'.lane? j = G.lane? j)) ∧
    (∀ n, G.shrnk = some n → n < G.v → G.sb.any (fun e => e.2 != 0) = false → Does (.shrnkRelease g) s (fun t =>
      ∃ G', OnlyGroup s t g G G' ∧ G' = { G with v := n, shrnk := none, lanes := G'.lanes } ∧
        ∀ i l, G.lane? i = some l → ∃ l', G'.lane? i = some l' ∧ l'.p = l.p ∧ l'.pc = l.pc ∧ (l.block = .shrnk → l'.block = .free) ∧
          ∀ k, l'.vreg k = if k < n then l.vreg k else 0)) ∧
    Does (.stlbiDone g) s (fun t => ∃ G', OnlyGroup s t g G G' ∧ G' = { G with lanes := G'.lanes } ∧
      ∀ i l, G.lane? i = some l → G'.lane? i = some (if l.block = .stlbi then { l with block := .free } else l))) ∧
  ∀ (s : State) (part page : Nat), Does (.heldAccessRetry part page) s (fun t => t = { s with groups := t.groups } ∧
    ∀ g G i l, s.groups.look g = some G → G.lane? i = some l → ∃ G' l', t.groups.look g = some G' ∧ G' = { G with lanes := G'.lanes } ∧
      G'.lane? i = some l' ∧ l' = { l with block := l'.block } ∧
      (∀ k va f more, l.block = .fault k va f more → l'.block = if k.part = part ∧ k.page = page ∧ s.hasFault k = false then .free else l.block) ∧
      ((∀ k va f more, l.block ≠ .fault k va f more) → l' = l))

/-- R193, R194, R407, R223: a barrier's phase passes once every member has arrived or exited, and frees those that wait for it; in
the fabric domain this wafer's symbol is sent to rank 0, whose last symbol passes the phase there and is answered by a release to every
other member, and the release passes the phase at that member; the serialisation token goes to the first that waits, and a wait of 65,536 cycles
aborts the region with cause 8. -/
def Obligations.PhasesAndTokens : Prop :=
  (∀ (s : State) (launch dom unit id : Nat) (L : Launch), s.launches.look launch = some L →
    (dom ≠ 5 → phaseFull s (barGroups s launch dom unit) dom id (L.phaseOf dom unit id) = true → Does (.barrierPhaseComplete launch dom unit id) s (fun t => t = { s with launches := t.launches } ∧
      (∀ k, k ≠ launch → t.launches.look k = s.launches.look k) ∧
      (∃ L', t.launches.look launch = some L' ∧ L' = { L with phase := L'.phase } ∧
        L'.phaseOf dom unit id = L.phaseOf dom unit id + 1 ∧
        ∀ k, k ≠ phaseKey dom unit id → L'.phase.lookD 0 k = L.phase.lookD 0 k) ∧
      ∀ g G past, G.launch = launch → blockClear t g G (.bar dom unit id (L.phaseOf dom unit id) past) = true)) ∧
    (dom = 5 → ∀ P k, s.parts.look L.part = some P → L.fabric = some k → L.starting = false → fjobRank P ≠ 0 →
      fabricFull s P (barGroups s launch dom unit) id (L.phaseOf dom unit id) = true → hasSymbol P k id (fjobRank P) = false →
      Does (.barrierPhaseComplete launch dom unit id) s (fun t => ∃ P' y, t.parts.look L.part = some P' ∧
        y = { job := fjobId P, launch := k, id, count := L.rc.bars.getD 3 0,
              live := phaseBegun (barGroups s launch dom unit) dom id (L.phaseOf dom unit id) } ∧
        (y, fjobRank P) ∈ P'.symbols ∧ Reply.symbol (memberWafer P 0) y (fjobRank P) false ∈ t.out ∧
        t.launches = s.launches ∧ t.groups = s.groups))) ∧
  (∀ (s : State) (part rank n : Nat) (y : BarSym) (P : Part) (L : Launch), s.parts.look part = some P → P.stopped = false →
    fabricLaunch s part y.launch = some (n, L) → s.launches.look n = some L → fjobEn P = true → y.job = fjobId P →
    (fjobRank P ≠ 0 → hasSymbol P y.launch y.id (fjobRank P) = true → Does (.fabricBarrierSymbol part y rank true) s (fun t =>
      ∃ L', t.launches.look n = some L' ∧ L'.phaseOf 5 (fjobRank P) y.id = L.phaseOf 5 (fjobRank P) y.id + 1)) ∧
    (fjobRank P = 0 → hasSymbol P y.launch y.id rank = false →
      fabricReady { P with symbols := (y, rank) :: P.symbols } y.launch y.id = true → Does (.fabricBarrierSymbol part y rank false) s (fun t =>
      (∃ L', t.launches.look n = some L' ∧ L'.phaseOf 5 0 y.id = L.phaseOf 5 0 y.id + 1) ∧
      ∀ m, 0 < m → m < fjobMem P → ∃ z, Reply.symbol (memberWafer P m) z 0 true ∈ t.out ∧ z.job = fjobId P ∧ z.launch = y.launch ∧ z.id = y.id))) ∧
  (∀ (s : State) (part g : Nat) (rest : List Nat) (P : Part), s.parts.look part = some P → P.token = none → P.tokenQ = g :: rest →
    Does (.serTokenGrant part) s (fun t => OnlyPart s t part P { P with token := some g, tokenQ := rest })) ∧
  ∀ (s : State) (g : Nat) (G : Group) (r : Region) (P : Part), s.groups.look g = some G → G.region = some r → s.partOf G = some P →
    P.tokenQ.contains g = true → r.start + 65536 ≤ s.clock → (∀ l ∈ G.lanes, ∀ v d nw, l.block ≠ .cbgot v d nw) →
    Does (.serTokenTimeout g) s (fun t => t.mem = s.mem ∧ (∀ h, h ≠ g → t.groups.look h = s.groups.look h) ∧
      ∃ G', t.groups.look g = some G' ∧ G'.region = none ∧ G'.s = r.snapS ∧
        G'.arstat = arstatOf (min (r.cnt + 1) 255) (arIcnt G.arstat) 0 0 (arSer G.arstat) false 8 ∧
        (∀ i l, i ∈ r.lanes → G.lane? i = some l →
          ∃ l', G'.lane? i = some l' ∧ l'.pc = r.fb ∧ l'.p = r.snapP.lookD l.p i ∧ l'.v = l.v ∧ l'.block = .free) ∧
        ∃ P', t.parts.look (s.partNo G) = some P' ∧ P'.tokenQ = P.tokenQ.filter (· != g))

/-- R200, R201: the oldest pending GROW of a core is granted when the store can meet it; when all groups of the core that are not
frozen are blocked in GROW, the others' requests fail, and the oldest's is granted or fails, after the banks that it needs have woken.
A granted group has the count and the
window asked for, and pd is true; a failed one stays as it was, with pd false. R188, R230: a group whose lanes have exited ends once
its counters, its side log and its ENQ are done: its errors that no WAITC covered are posted, the first one marks the launch, and it
leaves its core, where the launch keeps what it held (16 R354). -/
def Obligations.GroupsGrowAndEnd : Prop :=
  ((∀ (s : State) (tile core g n b : Nat) (G : Group) (moved : List (Nat × Nat)), s.groups.look g = some G →
     oldestOf ((coreGroups s tile core).filter (fun e => e.2.grow.isSome)) = some (g, G) → G.frozen = false → G.grow = some n →
     growPlace s g G (page4 (n * G.w * 4)) = some (b, moved) →
     wakeStore s G.tile G.core (growRuns s b (page4 (n * G.w * 4)) moved) (page4 (n * G.w * 4) - G.winSize) = (s, true) →
     Does (.growGrant tile core) s (fun t => t = { s with groups := t.groups } ∧
       t.groups.look g = some { (growDone G true) with v := n, win := b } ∧
       ∀ h H, h ≠ g → s.groups.look h = some H → ∃ H', t.groups.look h = some H' ∧ H' = { H with win := H'.win })) ∧
   (∀ (s : State) (tile core g : Nat) (G : Group),
     let gs := (coreGroups s tile core).filter (fun e => !e.2.frozen)
     gs.all (fun e => growBlocked e.2) = true → oldestOf gs = some (g, G) →
     Does (.growDeadlockResolve tile core) s (fun t =>
       (growTry s g = none → ∀ h H, s.groups.look h = some H → H.tile = tile → H.core = core → H.frozen = false →
         t.groups.look h = some (growDone H false)) ∧
       ∀ s1, growTry s g = some s1 → ((s1.groups.look g).any (fun X => X.grow.isSome) = true → t = s1) ∧
        ((s1.groups.look g).any (fun X => X.grow.isSome) = false → t.groups.look g = s1.groups.look g ∧
         ∀ h H H1, h ≠ g → s.groups.look h = some H → H.tile = tile → H.core = core → H.frozen = false → s1.groups.look h = some H1 →
           t.groups.look h = some (growDone H1 false)))) ∧
   ∀ (G : Group) (ok : Bool), (growDone G ok).grow = none ∧ (growDone G ok).v = G.v ∧ (growDone G ok).s = G.s ∧
     ∀ i l pd, G.lane? i = some l → l.block = .grow pd → ∃ l', (growDone G ok).lane? i = some l' ∧ l'.block = .free ∧ l'.pc = l.pc ∧
       l'.v = l.v ∧ (pd ≠ 15 → l'.pred pd.toNat = ok)) ∧
  (∀ (s : State) (g : Nat) (G : Group) (L : Launch) (P : Part), s.groups.look g = some G → groupOver s g G = true →
     s.launches.look G.launch = some L → s.parts.look L.part = some P →
     (∀ m ∈ (s.coreAt G.tile G.core).maps, m.2.launch ≠ G.launch) →
     Does (.groupEnd g) s (fun t => t.groups.look g = none ∧
       (∀ h H, h ≠ g → s.groups.look h = some H → ∃ H', t.groups.look h = some H' ∧ H' = { H with frozen := H'.frozen }) ∧
       (∃ P', t.parts.look L.part = some P' ∧ P'.log.length = P.log.length + G.errs.length) ∧
       ∃ L', t.launches.look G.launch = some L' ∧ L' = { L with engErr := L'.engErr, times := L'.times, ended := L'.ended } ∧
         L'.ended = L.ended ++ [(G.tile, G.core, G.win, G.winSize, G.t * G.w * 128)] ∧
         L'.engErr = if L.engErr.isSome then L.engErr else G.errs.head?.map EngErr.code))

/-- R347, R348, R346, R362: the host's writes to a queue: a TAIL in range of an enabled queue of the host appends its records in
order, another one sets BADTAIL; an amount is added to the budget; the control word of a disabled queue; EN := 0 cancels what has
been appended and not taken. R198: an ENQ that fails a check ends with that check's status and appends nothing; one that passes is
charged at once. A charged record is written into the ring slot at TAIL, TAIL rises, and the status is 0; a write refused returns the
charge and gives status 5; one whose fault is answered later leaves the ENQ charged. R199: one issued again reads its record anew. -/
def Obligations.QueuesTakeRecords : Prop :=
  (∀ (s : State) (part q : Nat) (P : Part), s.parts.look part = some P → q < 64 →
     let Q := P.queue q
     (∀ (lv : Nat) (v : BitVec 32), lv < 4 →
       let l := Q.lvl lv
       let ok := Q.en && !Q.dev && decide (diff32 v.toNat l.head ≤ Q.entries) && decide (diff32 v.toNat l.tail ≤ Q.entries)
       Does (.tailWrite part q lv v) s (fun t => OnlyPart s t part P
         (if ok then { P with queues := P.queues.setAt q (Q.setLvl lv { l with tail := v.toNat }), appended := P.appended ++ hostAppends Q q lv v.toNat }
          else { P with queues := P.queues.setAt q { Q with badtail := true } }))) ∧
     (∀ (v : BitVec 64), Does (.qbaddWrite part q v) s (fun t => ∃ P', OnlyPart s t part P P' ∧ P' = { P with queues := P'.queues } ∧
       (P'.queue q).budget = max (-(2 ^ 63)) (min (2 ^ 63 - 1) (Q.budget + v.toInt)) ∧ (P'.queue q).levels = Q.levels ∧
       ∀ k, k ≠ q → P'.queue k = P.queue k)) ∧
     (∀ (v : BitVec 64), Q.en = false → bitsN v.toNat 63 19 = 0 → bitsN v.toNat 15 12 = 0 → bitsN v.toNat 7 2 = 0 →
       Does (.queueControlWrite part q 0 v) s (fun t => ∃ P', OnlyPart s t part P P' ∧ P' = { P with queues := P'.queues } ∧
         P'.queue q = { Q with en := bitN v.toNat 0, dev := bitN v.toNat 1, log2n := max 2 (min 12 (bitsN v.toNat 11 8)), set := bitsN v.toNat 18 16 })) ∧
     (Q.en = true → Does (.queueDisable part q) s (fun t => ∃ P', t.parts.look part = some P' ∧ (P'.queue q).en = false ∧
       P'.appended = P.appended.map (fun a => if a.q = q then { a with cancelled := true } else a) ∧ t = { s with parts := t.parts } ∧
       ∀ k u, P.tasks.look k = some u → u.q = q → u.launch = none → u.fin = none →
         ∃ u', P'.tasks.look k = some u' ∧ u' = { u with charged := 0, fin := some (statusWord 9 0 0 0) }))) ∧
  (∀ (s : State) (g : Nat) (G : Group) (e : EnqReq) (P : Part), s.groups.look g = some G → G.enq = some e → s.partOf G = some P →
     let p := s.partNo G
     let q := e.q.toNat
     let r := recOf e.bytes
     let idx := ((P.queue q).lvl e.level).tail
     let turn := P.stopped = false ∧ enqHeld s p g e = false ∧ G.ending = false ∧
       (G.lanes.all Lane.exited && slgHolds s g G (List.range G.lanes.length)) = false
     (e.charged = false → turn → e.again = true → ∀ s1 e1, enqReread s g G e = (s1, some e1) →
       Does (.enqAtDispatcher g) s (fun t => t = s1.updGroup g (fun G => { G with enq := some e1 }))) ∧
     (e.charged = false → turn → e.again = false → ∀ st, enqStatus P e r = some st → Does (.enqAtDispatcher g) s (fun t => EnqAnswered s t g e st ∧ t.mem = s.mem ∧
       (st ≠ 2 → t.parts = s.parts) ∧ (st = 2 → ∃ P', t.parts.look p = some P' ∧ (P'.queue q).fulldrop = true ∧ P'.appended = P.appended))) ∧
     (e.charged = false → turn → e.again = false → enqStatus P e r = none →
       let s0 := (s.updQueue p q (fun Q => { Q with budget := Q.budget - (r.cost : Int) })).updGroup g
         (fun G => { G with enq := some { e with charged := true } })
       exec (.enqAtDispatcher g) s = exec (.enqAtDispatcher g) s0) ∧
     (e.charged = true → ∀ s1 P1, s1.parts.look p = some P1 →
       (dispWrite s p ((P.queue q).slotVa e.level idx) e.bytes = (s1, .error .wait) →
         Does (.enqAtDispatcher g) s (fun t => t = s1)) ∧
       (dispWrite s p ((P.queue q).slotVa e.level idx) e.bytes = (s1, .error .fail) →
         Does (.enqAtDispatcher g) s (fun t => EnqAnswered s1 t g e 5 ∧ t.mem = s1.mem ∧ ∃ P', t.parts.look p = some P' ∧
           P'.appended = P1.appended ∧ (P'.queue q).budget = budgetAdd (P1.queue q).budget (r.cost : Int))) ∧
       (dispWrite s p ((P.queue q).slotVa e.level idx) e.bytes = (s1, .ok ()) →
         Does (.enqAtDispatcher g) s (fun t => EnqAnswered s1 t g e 0 ∧ t.mem = s1.mem ∧ ∃ P', t.parts.look p = some P' ∧
           P'.enqc = P1.enqc + r.cost ∧ (P'.queue q).budget = (P1.queue q).budget ∧
           P'.appended = P1.appended ++
             [({ q, level := e.level, idx, va := (P.queue q).slotVa e.level idx, parent := some G.launch, cost := r.cost,
                 cancelled := !(P.queue q).en, passed := false } : Append)]))))

/-- R347 to R349, R352, R353: RECORD_TAKE charges the oldest appended record that passes the first checks, once, and makes one that
passes every check a task under the next sequence number, and HEAD moves; the event word decides whether an input event has fired; a task eligible for 2^20 cycles is
starved. -/
def Obligations.TasksAdvance : Prop :=
  ∀ (s : State) (part : Nat) (P : Part), s.parts.look part = some P →
    (∀ (a : Append) (rest : List Append) (s1 s2 : State) (bs : List Byte) (m : List Nat) (P2 : Part), endedTasks P = [] →
      P.appended = a :: rest → a.cancelled = false → dispRead s part a.va 256 = (s1, .ok bs) →
      (a.passed = false → checkHead P a bs (recOf bs) = none) →
      checkTail (if a.passed then (s1, a) else chargeHost s1 part a (recOf bs)).1 part P bs (recOf bs) = (s2, .task m) →
      s2.parts.look part = some P2 →
      Does (.recordTake part) s (fun t => ∃ P' u, OnlyPart s2 t part P2 P' ∧ P'.appended = P2.appended.drop 1 ∧ P'.seq = P2.seq + 1 ∧
        P'.tasks.look P2.seq = some u ∧ u.rc = recOf bs ∧ u.q = a.q ∧ u.level = a.level ∧ u.pmap = m ∧ u.launch = none ∧ u.fin = none ∧
        (∀ k, k ≠ P2.seq → P'.tasks.look k = P2.tasks.look k) ∧
        (P'.queue a.q).budget = (P2.queue a.q).budget)) ∧
    (∀ (a : Append) (r : Rec), ∃ P', (chargeHost s part a r).1.parts.look part = some P' ∧ (chargeHost s part a r).2.passed = true ∧
      P'.appended = (chargeHost s part a r).2 :: P.appended.drop 1 ∧
      (P'.queue a.q).budget = (P.queue a.q).budget - (if a.parent.isSome then 0 else (r.cost : Int))) ∧
    ∀ (k : Nat) (u : Task), P.tasks.look k = some u →
      (∀ s1 bs P1, waitingTask u = true → depsClear P u = true → u.rc.evt ≠ 0 → u.fired = false → dispRead s part u.rc.evt 8 = (s1, .ok bs) →
        s1.parts.look part = some P1 → Does (.eventPoll part k) s (fun t => ∃ P', OnlyPart s1 t part P1 P' ∧
          P'.tasks.look k = some { u with fired := ofLeBytes bs != 0, polled := s.clock + 1 } ∧
          ∀ j, j ≠ k → P'.tasks.look j = P1.tasks.look j)) ∧
      (∀ c, eligible P u = true → u.since = some c → c + 2 ^ 20 ≤ s.clock → Does (.taskStarvation part k) s (fun t =>
        ∃ P', OnlyPart s t part P P' ∧ P'.tasks.look k = some { u with starved := true } ∧ ∀ j, j ≠ k → P'.tasks.look j = P.tasks.look j))

/-- R356, R18, R170: a launch that starts is resident with its arguments copied, its TM and scratch zero, and its groups, lane by
lane, ready at ENTRY with every register zero. R359, R360, R28: a launch with no group and no operation left completes: it leaves,
its circular buffers are free, and a task without a completion address is gone; the completion writes the status word and then the
value, and the interrupt follows; a launch of a fabric job counts as arrived at each later phase (R187). A parked group's window moves to
a lower free run. -/
def Obligations.LaunchesStartAndComplete : Prop :=
  (∀ (s s2 : State) (part k : Nat) (P P2 : Part) (u : Task) (x : Plan) (args : List Byte), s.parts.look part = some P →
     P.tasks.look k = some u → eligible P u = true → P.stopped = false → firstInRank s part P u = true →
     planNow s part P u.rc u.map? false = some x →
     let w := wakePlan s x u.rc false
     let s1 := reserveLaunch w.1 part u x false
     let k1 := w.1.nextId
     (w.2 = false → Does (.launchStart part k) s (fun t => t = w.1)) ∧
     (w.2 = true → dispRead s1 part u.rc.argva u.rc.argsz = (s2, .error .wait) → Does (.launchStart part k) s (fun t => t = s2)) ∧
     (w.2 = true → dispRead s1 part u.rc.argva u.rc.argsz = (s2, .ok args) →
       s2.parts.look part = some P2 → Does (.launchStart part k) s (fun t =>
         (∃ L, t.launches.look k1 = some L ∧ L.rc = u.rc ∧ L.args = args ∧ L.part = part ∧ L.q = u.q ∧ L.seq = u.seq ∧
           L.tm = x.tm ∧ L.scr = x.scr ∧ L.halt = none ∧ L.phase = [] ∧ L.starting = false) ∧
         (∀ (j : Nat) (sp : Spot), x.groups[j]? = some sp → ∃ G, t.groups.look (k1 + 1 + j) = some G ∧ G.launch = k1 ∧
           G.tile = sp.tile ∧ G.core = sp.core ∧ G.slot = sp.slot ∧ G.lin = sp.lin ∧ G.v = u.rc.v ∧ G.s = [] ∧ G.priv = false ∧
           G.age = s.clock ∧ G.lanes.length = u.rc.w ∧
           ∀ l ∈ G.lanes, l.pc = u.rc.entry ∧ l.v = [] ∧ l.p = 0 ∧ l.exited = false ∧ l.block = .free) ∧
         (∀ h H, h ≤ k1 → s2.groups.look h = some H → ∃ H', t.groups.look h = some H' ∧ H' = { H with region := H'.region, age := H'.age }) ∧
         (s2.still → ∀ a ∈ x.tm, a.base + a.size ≤ 2 ^ 25 → ∀ j, j < a.size → t.byteAt (tmPa a.tile (a.base + j)) = 0) ∧
         (∀ a ∈ x.scr, ∀ j, j < a.size → t.byteAt (storeLoc a.tile a.core a.base + j) = 0) ∧
         ∃ P', t.parts.look part = some P' ∧ P'.lnch = P2.lnch + 1 ∧ P'.tasks.look u.seq = some { u with launch := some k1 }))) ∧
  ((∀ (s : State) (k : Nat) (L : Launch) (P : Part) (u : Task), s.launches.look k = some L → L.halt = none → s.parts.look L.part = some P →
     P.tasks.look L.seq = some u → u.launch = some k → u.unread = false → u.rc.cva = 0 →
     s.groups.any (fun e => e.2.launch == k) = false → s.ops.any (fun e => e.2.launch == k) = false → launchOwed s k = false →
     Does (.launchCompletion k) s (fun t => t.launches.look k = none ∧
       (L.fabric = none ∨ fjobMem P ≤ 1 → ∀ j, j ≠ k → t.launches.look j = s.launches.look j) ∧
       (s.still → t.mem = s.mem) ∧ t.groups = s.groups ∧ (∀ j b q, (t.tileAt j).cbufs.look b = some q → q.owner ≠ k) ∧
       ∃ P', t.parts.look L.part = some P' ∧ P'.tasks.look L.seq = none ∧ ∀ f, L.fabric = some f → (f, L.rc.bars.getD 3 0) ∈ P'.fabEnded)) ∧
   (∀ (s s1 s2 : State) (p seq sw : Nat) (P P2 : Part) (u : Task), s.parts.look p = some P → P.tasks.look seq = some u →
     u.fin = some sw → u.unread = false → u.rc.cva ≠ 0 → u.rc.cva % 16 = 0 →
     dispWrite (postStnDrops s u.launch) p (u.rc.cva + 8) (leBytes 8 sw) = (s1, .ok ()) → dispWrite s1 p u.rc.cva (leBytes 8 u.rc.cval.toNat) = (s2, .ok ()) →
     s2.parts.look p = some P2 → (completeTask s p seq).2 = true ∧ (completeTask s p seq).1.mem = s2.mem ∧
       (completeTask s p seq).1.out = (if u.rc.irq then .irq p u.q :: s2.out else s2.out) ∧
       ∃ P', (completeTask s p seq).1.parts.look p = some P' ∧ P'.tasks.look seq = none) ∧
   ∀ (s : State) (g base : Nat) (G : Group), s.groups.look g = some G → parked s g G = true → G.frozen = false → base < G.win →
     base % 4096 = 0 →
     runFree (areaOf s G).1 (areaOf s G).2 (scratchTaken s G.tile G.core ++ windowsTaken s G.tile G.core [g]) base G.winSize = true →
     wakeStore s G.tile G.core [(base, G.winSize)] 0 = (s, true) → Does (.windowRelocation g base) s (fun t => OnlyGroup s t g G { G with win := base }))

/-! ### Events of memory and translation (14, 15) -/

/-- R313 to R318: a flush that ends, with no reduction pending, gives the granule its new class, marks the regions' inputs on it,
releases the waiters on it and changes no value; but for a core's granule that its tile now shares, no copy of it is left. The directory's
answers to a read miss, an ownership request, an acknowledgement, the last one, and the evictions; a tile's copy goes with an
acknowledgement, and every copy with the line's eviction at its home. A line that waits for acknowledgements holds other requests. R389: a
broadcast invalidation takes a free channel of its partition's tree, and waits while there is none. -/
def Obligations.ClassesAndDirectory : Prop :=
  (∀ (s : State) (gr : Nat) (c : ClassEnt) (k : Cls) (wr : Bool), s.classes.look gr = some c → c.flush = some (k, wr) →
    s.still → Does (.classFlushComplete gr) s (fun t => t.mem = s.mem ∧ t.classes.look gr = some ⟨k, wr, none⟩ ∧
      (∀ h, h ≠ gr → t.classes.look h = s.classes.look h) ∧
      (∀ g G r, s.groups.look g = some G → G.region = some r → ∃ G' r', t.groups.look g = some G' ∧ G'.region = some r' ∧
        r'.inputs = r.inputs.map (fun i => if granOf i.pa = gr then { i with conflicted := true } else i)) ∧
      (∀ k, ∀ w ∈ (t.tileAt k).waiters, granOf w.pa ≠ gr) ∧
      ((∀ u, k ≠ .prt u) → ∀ line, line / 1024 = gr → ∀ j, (t.tileAt j).rdc.look line = none ∧ ∀ m, (t.coreAt j m).l1.look line = none))) ∧
  ∀ (s : State) (tile line : Nat), (∀ a b c, (s.dir.lookD DirEnt.reset line).st ≠ .m a b c) → tile < 960 → s.still →
    let d := s.dir.lookD DirEnt.reset line
    let fills := fun (t : State) (d' : DirEnt) => t.mem = s.mem ∧ t.groups = s.groups ∧ t.launches = s.launches ∧ t.classes = s.classes ∧
      t.dir.lookD DirEnt.reset line = d' ∧
      ∀ k, k ≠ line → t.dir.lookD DirEnt.reset k = s.dir.lookD DirEnt.reset k ∨ (t.dir.lookD DirEnt.reset k).st = .i
    let becomes := fun (t : State) (d' : DirEnt) => t = { s with dir := t.dir, cores := t.cores, tiles := t.tiles, parts := t.parts } ∧
      (∀ p P, s.parts.look p = some P → ∃ P', t.parts.look p = some P' ∧ P' = { P with dirty := P'.dirty }) ∧
      (∀ j, t.tileAt j = { s.tileAt j with rdc := (t.tileAt j).rdc, l2 := (t.tileAt j).l2 }) ∧
      (∀ j m, t.coreAt j m = { s.coreAt j m with l1 := (t.coreAt j m).l1 }) ∧ t.dir.lookD DirEnt.reset line = d' ∧
      ∀ k, k ≠ line → t.dir.lookD DirEnt.reset k = s.dir.lookD DirEnt.reset k
    let bare := fun (t : State) (j : Nat) => (t.tileAt j).rdc.look line = none ∧ ∀ m, m < 4 → (t.coreAt j m).l1.look line = none
    (lineShared s line = true → d.pend = none → d.ownedBy tile = true → Does (.readMiss tile line) s (fun t => fills t d)) ∧
    (lineShared s line = true → d.pend = none → d.ownedBy tile = false → Does (.readMiss tile line) s (fun t => ∃ d', fills t d' ∧ d'.st = .s ∧
      (tile ∈ d.ptrs ∨ d.bc = true → d'.ptrs = d.ptrs ∧ d'.bc = d.bc) ∧
      (tile ∉ d.ptrs → d.bc = false → d.ptrs.length < 4 → d'.ptrs = d.ptrs ++ [tile] ∧ d'.bc = false) ∧
      (tile ∉ d.ptrs → d.bc = false → 4 ≤ d.ptrs.length → d'.ptrs = [] ∧ d'.bc = true))) ∧
    (∀ rmw, lineShared s line = true → d.pend = none → rmw = true ∨ d.ownedBy tile = false → Does (.ownershipRequest tile line rmw) s (fun t =>
      let ts := if d.bc then treeTiles s tile else d.ptrs.filter (· != tile)
      let ch := freeChannel s (partOfTile s tile)
      (ts = [] → fills t (dirOwn d tile rmw)) ∧ (ts ≠ [] → d.bc = true → ch = none → t = s) ∧
      (ts ≠ [] → d.bc = false ∨ ch ≠ none → becomes t { d with acks := ts, pend := some (tile, rmw), chan := if d.bc then ch else none }))) ∧
    (d.pend ≠ none → ∀ rmw, Does (.readMiss tile line) s (fun t => t = s) ∧ Does (.ownershipRequest tile line rmw) s (fun t => t = s)) ∧
    (lineShared s line = true → d.pend = none → d.ownedBy tile = true → Does (.ownershipRequest tile line false) s (fun t => fills t d)) ∧
    (tile ∈ d.acks → Does (.invalidation tile line) s (fun t => becomes t { d with acks := d.acks.filter (· != tile) } ∧ bare t tile)) ∧
    (tile ∉ d.acks → Does (.invalidation tile line) s (fun t => t = s)) ∧
    (∀ u rmw, d.acks = [] → d.pend = some (u, rmw) → Does (.invalidationAcksDone line) s (fun t => ∃ d', becomes t d' ∧ d'.pend = none ∧
      d'.bc = false ∧ (rmw = true → d'.st = .i ∧ d'.ptrs = []) ∧ (rmw = false → d'.st = .o ∧ d'.owner = u ∧ d'.ptrs = [u]))) ∧
    (d.pend = none → Does (.l2Eviction line) s (fun t => t.mem = (drainLine s line).mem ∧ (∀ j, (t.tileAt j).l2.look line = none) ∧
      (lineShared s line = true → t.dir.lookD DirEnt.reset line = DirEnt.reset ∧ ∀ j, bare t j))) ∧
    (d.pend ≠ none → Does (.l2Eviction line) s (fun t => t = s)) ∧
    Does (.rdcEviction tile line) s (fun t =>
      becomes t (if d.st = .o ∧ d.owner = tile then { d with st := .i, ptrs := [] } else d) ∧ bare t tile)

/-- R320, R321, R175, R177: a reduction that arrives at its home, where nothing holds it, is seen by the next read of its word; an entry
512 cycles old drains into memory; a returning atomic writes its word and no other byte, and an AADDT that crosses its threshold wakes the
waiters; what the home holds is kept to be performed. R324 to R326, R306, R358: an SRAM error is counted, or poisons its line, the lines
that its entry described, its register or its accumulator tile, and Damson has a record of an entry; a unit that may be gated is gated,
its L1's dirty lines or its way's lines gone, and one that wakes is free with zeros in every byte; PCARVE takes effect, no gated
bank of TM left beyond its region, and the watchdog's limit on a core on which no lane issues. -/
def Obligations.HomesAndUnits : Prop :=
  (∀ (s : State) (tile : Nat),
     (∀ (pa op : Nat) (ty : Ty) (v : BitVec 64) (s1 : State), homedOn s tile pa = true → pa % (tyW ty / 8) = 0 → op < 7 →
       claimUnit s (.req (.reduction tile pa op ty v)) tile pa true true = (s1, false) →
       Does (.reductionArrival tile pa op ty v) s (fun t => t = holdReq s1 (partOfTile s tile) (.reduction tile pa op ty v))) ∧
     (∀ (pa op : Nat) (ty : Ty) (v : BitVec 64) (s1 : State), homedOn s tile pa = true → pa % (tyW ty / 8) = 0 → op < 7 → s.still →
       s.isPoisoned (locOf s pa) = false → claimUnit s (.req (.reduction tile pa op ty v)) tile pa true true = (s1, true) →
       Does (.reductionArrival tile pa op ty v) s (fun t => (mapped s pa = false → t.mem = s.mem) ∧
         (readPa t pa (tyW ty / 8)).2 = atomOp op ty (s.readN (locOf s pa) (tyW ty / 8)) v.toNat % 2 ^ tyW ty)) ∧
     (∀ (pre post : FMap Tile) (X : Tile) (e : WqEnt) (off : Nat) (v : DWord), s.tiles = pre ++ (tile, X) :: post → s.tileAt tile = X →
       X.wq.filter (fun q => q.line == e.line) = [e] → (∀ y ∈ pre ++ post, ∀ q ∈ y.2.wq, q.line ≠ e.line) → e.parts = [(off, v)] →
       e.since + 512 ≤ s.clock → s.isPoisoned (locOf s (e.line * 64 + off)) = false →
       Does (.writeQueueDrain tile e.line) s (fun t =>
         let loc := locOf s (e.line * 64 + off)
         t.readN loc (tyW e.ty / 8) = atomOp e.op e.ty (s.readN loc (tyW e.ty / 8)) v.toNat % 2 ^ tyW e.ty ∧
         ∀ l, l < loc ∨ loc + tyW e.ty / 8 ≤ l → t.byteAt l = s.byteAt l)) ∧
     (∀ (pa op : Nat) (ty : Ty) (b c : BitVec 64) (s1 : State), homedOn s tile pa = true → pa % (tyW ty / 8) = 0 → op ≤ 9 →
       claimUnit s (.req (.atomic tile pa op ty b c)) tile pa true true = (s1, false) →
       Does (.atomicAtHome tile pa op ty b c) s (fun t => t = holdReq s1 (partOfTile s1 tile) (.atomic tile pa op ty b c))) ∧
     ∀ (pa op : Nat) (ty : Ty) (b c : BitVec 64) (s1 : State), homedOn s tile pa = true → pa % (tyW ty / 8) = 0 → op ≤ 9 → s.still →
       s.isPoisoned (locOf s pa) = false → claimUnit s (.req (.atomic tile pa op ty b c)) tile pa true true = (s1, true) → Does (.atomicAtHome tile pa op ty b c) s (fun t =>
         let loc := locOf s pa
         let old := s.readN loc (tyW ty / 8)
         t.readN loc (tyW ty / 8) = atomFun op ty b.toNat c.toNat old % 2 ^ tyW ty ∧
         (∀ l, l < loc ∨ loc + tyW ty / 8 ≤ l → t.byteAt l = s.byteAt l) ∧
         (op = 9 → mapped s pa = false → valOf ty.signed (tyW ty) old < valOf ty.signed (tyW ty) c.toNat →
           valOf ty.signed (tyW ty) c.toNat ≤ valOf ty.signed (tyW ty) (atomFun op ty b.toNat c.toNat old) →
           ∀ w ∈ (t.tileAt tile).waiters, w.pa ≠ pa))) ∧
  (∀ (s : State) (tile : Nat),
     (∀ a, Does (.sramError tile (.corrected a)) s (fun t => OnlyTile s t tile
       { s.tileAt tile with corr := (s.tileAt tile).corr.setAt a (s.clock :: (s.tileAt tile).corr.lookD [] a) })) ∧
     (∀ l, Does (.sramError tile (.dataLine l)) s (fun t => t = { s with poison := t.poison } ∧
       ∀ k, t.isPoisoned k = (s.isPoisoned k || lineOf k == lineOf l))) ∧
     (∀ l, Does (.sramError tile (.tag l)) s (fun t =>
       t = { s with poison := t.poison, damson := s.damson ++ [(s.clock, tile, .tag l)] } ∧ t.isPoisoned (locOf s (64 * l)) = true)) ∧
     (∀ gr, Does (.sramError tile (.entry gr)) s (fun t =>
       t = { s with poison := t.poison, damson := s.damson ++ [(s.clock, tile, .entry gr)] } ∧ ∀ i, i < 1024 → t.isPoisoned (locOf s (gr * 65536 + 64 * i)) = true)) ∧
     (∀ g G i l r, s.groups.look g = some G → G.lane? i = some l → ∀ h, h = .register g i r ∨ h = .operand g i r → Does (.sramError tile h) s (fun t =>
       ∃ G' l', OnlyGroup s t g G G' ∧ G'.lane? i = some l' ∧ l'.vpsn r = true ∧ l' = { l with vPsn := l'.vPsn })) ∧
     (∀ g G r, s.groups.look g = some G → r ≠ 0 → Does (.sramError tile (.scalar g r)) s (fun t =>
       ∃ G', OnlyGroup s t g G G' ∧ G' = { G with sPsn := G'.sPsn } ∧ ∀ k, G'.spsn k = (G.spsn k || k == r))) ∧
     (∀ g G k, s.groups.look g = some G → Does (.sramError tile (.acc g k)) s (fun t => ∃ G' a, OnlyGroup s t g G G' ∧
       G' = { G with acc := G'.acc } ∧ G'.acc.look k = some a ∧ a.flags.getLsbD 5 = true ∧
       a.words = (G.acc.lookD { words := [], flags := 0 } k).words)) ∧
     (∀ u, (mayGate s tile u = true → Does (.powerGate tile u) s (fun t =>
         (t.tileAt tile).gated = (s.tileAt tile).gated ++ [u] ∧ (s.still → t.mem = s.mem) ∧
         (∀ k b, u = .storeBank k b → ∀ l, (t.coreAt tile k).l1.look l ≠ some true) ∧ ∀ i, u = .l2Way i → wayLines (t.tileAt tile) i = [])) ∧
       (mayGate s tile u = false → Does (.powerGate tile u) s (fun t => t = s)) ∧
       ((s.tileAt tile).waking.contains u = true → Does (.powerWakeDone tile u) s (fun t =>
         (t.tileAt tile).gated.contains u = false ∧ (t.tileAt tile).waking.contains u = false ∧
         (∀ k b j, u = .storeBank k b → j < 65536 → t.byteAt (storeLoc tile k (b * 65536) + j) = 0) ∧
         (∀ b j, u = .tmBank b → j < 524288 → t.byteAt (tmPa tile (b * 524288) + j) = 0)))) ∧
     (∀ p P, s.parts.look p = some P → P.tiles.contains tile = true → s.launches.any (fun e => e.2.slots.any (fun q => q.1 == tile)) = false →
       Does (.pcarveTakeEffect p tile) s (fun t => (t.tileAt tile).carve = P.pcarve ∧ t.groups = s.groups ∧ t.launches = s.launches ∧
         (s.still → t.mem = s.mem) ∧ ((s.tileAt tile).carve ≠ P.pcarve → ∀ b, GateUnit.tmBank b ∈ (t.tileAt tile).gated →
           (b + 1) * 524288 ≤ P.pcarve.2.1 * 2 ^ 18))) ∧
     ∀ core P, s.parts.look (partOfTile s tile) = some P → coreQuiet s tile core = true → Does (.pschedTakeEffect tile core) s (fun t => t = { s with cores := t.cores } ∧
       t.coreAt tile core = { s.coreAt tile core with wdlog := P.wdlog }))

/-- R332, R336, R337: a walk that ends well leaves the entry that serves the address in the tile's TLB, and one that faults an
outstanding fault; a side-log entry whose fault has ended, with none of its page before it, is performed and leaves the log, or takes the
fault that its page now has; one that fails leaves the log, and its lane has a report more. R334, R336, R341: a stage-2 command is
dropped while one is in progress; an invalidation removes every TLB entry that derives from its page, or all, and ends the
outstanding stage-2 faults that it covers; its end raises SEQ; a migrate-in of an unaligned region fails with status 2, and of a
region with a host-form page begins to move that page. -/
def Obligations.WalksAndStage2 : Prop :=
  ((∀ (s s1 : State) (tile part : Nat) (va : BitVec 64) (kind : AccKind) (sup : Bool),
     (∀ e pa, translate s tile part (needOf kind) sup va.toNat = (s1, .ok e pa) → Does (.pageWalkComplete tile part va kind sup) s (fun t =>
       t = s1 ∧ (e.size ≠ 0 → tlbHit t tile part va.toNat = some e))) ∧
     (∀ f, translate s tile part (needOf kind) sup va.toNat = (s1, .fault f) → (s1.tileAt tile).faults.length < 64 →
       Does (.pageWalkComplete tile part va kind sup) s (fun t => t.hasFault (faultKey tile part f) = true ∧ t.groups = s1.groups))) ∧
   ∀ (s s1 : State) (tile core p i : Nat) (e : SlgEnt) (a : SlgAcc) (G : Group), s.groups.look e.g = some G → s.partNo G = p → G.ending = false →
     let log := (s.coreAt tile core).slog
     log[i]? = some e → e.accs = [a] → s.hasFault e.key = false → (∀ d ∈ log.take i, s.hasFault d.key = true ∧ d.page ≠ e.page) →
     (s.parts.look p).any Part.stopped = false →
     (∀ tl pa s2, coreTranslate s tile core p (if e.op.isSome then .rmw else .wr) e.priv a.va = (s1, .ok tl pa) → e.op = none →
       spaceOf pa < 2 → claim s1 (.lanes e.g) tile core pa true false = (s2, none) →
       Does (.sideLogReplay tile core) s (fun t => (t.coreAt tile core).slog = log.eraseIdx i ∧
         ∀ k, k < a.n → (t.byteAt (locOf s1 pa + k)).toNat = a.val.toNat / 256 ^ k % 256)) ∧
     (∀ f, coreTranslate s tile core p (if e.op.isSome then .rmw else .wr) e.priv a.va = (s1, .fault f) →
       Does (.sideLogReplay tile core) s (fun t => t.mem = s1.mem ∧ t.groups = s1.groups ∧
         (t.coreAt tile core).slog[i]? = some { e with key := faultKey tile p f })) ∧
     ∀ c j ls l, coreTranslate s tile core p (if e.op.isSome then .rmw else .wr) e.priv a.va = (s1, .trap c) → a.lanes = j :: ls →
       G.lane? j = some l → Does (.sideLogReplay tile core) s (fun t => (t.coreAt tile core).slog = log.eraseIdx i ∧ t.mem = s1.mem ∧
         ∃ G' l', t.groups.look e.g = some G' ∧ G'.lane? j = some l' ∧ l'.slg = l.slg ++ [(c, a.va, false)])) ∧
  (∀ (s : State) (part : Nat) (ipa : BitVec 64) (P : Part), s.parts.look part = some P →
     let a := bitsN ipa.toNat 47 16 * 65536
     (P.s2busy = true → ∀ i, i = .s2cmdInvalidateIpa part ipa ∨ i = .s2cmdInvalidateAll part ∨ i = .s2cmdMigrateIn part ipa →
       Does i s (fun t => OnlyPart s t part P { P with s2drop := true })) ∧
     (P.s2busy = false →
       Does (.s2cmdInvalidateIpa part ipa) s (fun t => (∃ P', t.parts.look part = some P' ∧ P'.s2busy = true) ∧
         (∀ k, ∀ e ∈ (t.tileAt k).tlb, e.part = part → e.s2.any (pageHas a) = false) ∧
         (∀ k, ∀ e ∈ (t.tileAt k).walks, e.part = part → e.s2.any (pageHas a) = false) ∧
         (∀ k m, ∀ e ∈ (t.coreAt k m).tlb, e.part = part → e.s2.any (pageHas a) = false) ∧
         ∀ k, k.part = part → k.stage = 2 → k.page = a / 65536 → t.hasFault k = false) ∧
       Does (.s2cmdInvalidateAll part) s (fun t => (∃ P', t.parts.look part = some P' ∧ P'.s2busy = true) ∧
         (∀ k, ∀ e ∈ (t.tileAt k).tlb, e.part = part → e.s2 = []) ∧
         (∀ k m, ∀ e ∈ (t.coreAt k m).tlb, e.part = part → e.s2 = []) ∧ ∀ k, k.part = part → k.stage = 2 → t.hasFault k = false) ∧
       (a % 2 ^ 21 ≠ 0 → Does (.s2cmdMigrateIn part ipa) s (fun t =>
         OnlyPart s t part P { P with s2status := 2, s2seq := (P.s2seq + 1) % 2 ^ 32 })) ∧
       (a % 2 ^ 21 = 0 → P.move = none → P.res ≠ P.burst → P.res < P.guar → ∀ l ls f fs, regionPages s P a = l :: ls → poolFree s = f :: fs →
         Does (.s2cmdMigrateIn part ipa) s (fun t => ∃ P', t.parts.look part = some P' ∧ P'.s2busy = true ∧ P'.mig = some (a, reserveNow s part) ∧
           P'.move = some ⟨l.2.2.2, l.1, l.2.2.1 + 2 ^ 59, f * 65536, none⟩))) ∧
     (P.s2busy = true → P.mig = none → Does (.s2InvalidationDone part) s (fun t =>
       OnlyPart s t part P { P with s2busy := false, s2status := 0, s2seq := (P.s2seq + 1) % 2 ^ 32, mig := none })))

/-- R338, R339, R336, 12 R278: a fatal record or a fault's record is posted at PI when its queue has room, with an interrupt; a CI
that stands in range answers the records it passes: RESP 2 denies, and the held lanes take the trap at their instruction; any other
retries. R340 to R343, R422: a move that ends copies the frame and, where the leaf still stands, points it to the new place with BSY
clear; a region whose count reaches ACTHR is notified, or counted as lost; NQCI advances within range; each tick adds the mapped
frames. -/
def Obligations.FaultsAndNotes : Prop :=
  (∀ (s : State) (part : Nat) (P : Part), s.parts.look part = some P →
     (P.fqen = true → diff32 P.fqpi P.fqci < queueSize P.fqsz →
       let place := hostLoc (P.fqbase + 64 + 64 * (P.fqpi % queueSize P.fqsz))
       let posted := fun (t : State) (rcd : List Byte) => t.readBytes place 64 = rcd ∧
         t.out = .irq (64 + part / 16) (1 + part % 16) :: s.out ∧ ∃ P', t.parts.look part = some P' ∧ P'.fqpi = (P.fqpi + 1) % 2 ^ 32
       (∀ r rs, P.fatals = r :: rs → r.length = 64 → Does (.faultRecordPost part 2) s (fun t => posted t (numbered r P.fqpi))) ∧
       (∀ f fs, P.fatals = [] → unposted s part 2 = f :: fs → Does (.faultRecordPost part 2) s (fun t => posted t (faultRecord f P.fqpi)))) ∧
     (∀ (f : FaultEnt) (fs : List FaultEnt) (s1 s2 : State), unposted s part 1 = f :: fs → bitN P.s1ctl 0 = true →
       diff32 P.s1pi P.s1ci < s1Size P → s.hasFault (stuckFault part (s1Base P + 64 + 64 * (P.s1pi % s1Size P))).key = false →
       s.hasFault (stuckFault part (s1Base P)).key = false →
       ∀ ra pa, s1Place s part (s1Base P + 64 + 64 * (P.s1pi % s1Size P)) .wr = (s1, some ra) →
       s1Place s1 part (s1Base P) .rmw = (s2, some pa) →
       Does (.faultRecordPost part 1) s (fun t => t.out = .irq part 64 :: s2.out ∧
         t.mem = (atomicPa (writePaBytes s2 none part ra (faultRecord f P.s1pi)) none part pa .n32 (fun old => iAdd 32 old 1)).1.mem ∧
         ∃ P', t.parts.look part = some P' ∧ P'.s1pi = (P.s1pi + 1) % 2 ^ 32)) ∧
     (∀ ci n k, diff32 ci P.fqci ≤ diff32 P.fqpi P.fqci → (n, some k) ∈ P.fqOpen →
       P.fqOpen.filter (fun q => decide (diff32 q.1 P.fqci < diff32 ci P.fqci)) = [(n, some k)] →
       (s.tileAt k.tile).faults.any (fun f => f.key == k && f.posted == some n) = true →
       let resp := s.readN (hostLoc (P.fqbase + 64 + 64 * (n % queueSize P.fqsz) + 0x18)) 4
       Does (.faultCiAdvance part 2 ci) s (fun t => t.hasFault k = false ∧ t.mem = s.mem ∧
         (∃ P', t.parts.look part = some P' ∧ P'.fqci = ci % 2 ^ 32) ∧ (resp ≠ 2 → t.groups = s.groups) ∧
         (resp = 2 → ∀ g G i l k1 va1 fet more va, s.groups.look g = some G → G.lane? i = some l → l.block = .fault k1 va1 fet more →
           ((k1, va1) :: more).find? (fun q => q.1 == k) = some (k, va) →
           ∃ G' l', t.groups.look g = some G' ∧ G'.lane? i = some l' ∧ l'.block = .free ∧
             l'.deny = some (if k.stage = 1 then (0x08, va, false, fet) else (0x09, va, true, fet))))) ∧
     ∀ ci s1 P1, s1Ci s part P = (s1, some (ci % 2 ^ 32)) → s1.parts.look part = some P1 → diff32 ci P.s1ci ≤ diff32 P.s1pi P.s1ci →
       P.s1Open.filter (fun q => decide (diff32 q.1 P.s1ci < diff32 ci P.s1ci)) = [] →
       Does (.faultCiAdvance part 1 ci) s (fun t => OnlyPart s1 t part P1 { P1 with s1ci := ci % 2 ^ 32 })) ∧
  (∀ (s : State) (part : Nat) (P : Part), s.parts.look part = some P →
     (∀ m, P.move = some m → m.heir = none → (∀ e ∈ s.parts, e.2.mig = none) → s.mem.wf → s.readN (locOf s m.leaf) 8 = m.val →
       let a := locOf s (pteAddr m.val)
       let b := locOf s m.target
       a + 65536 ≤ b ∨ b + 65536 ≤ a → locOf s m.leaf + 8 ≤ b ∨ b + 65536 ≤ locOf s m.leaf →
       Does (.frameMoveDone part) s (fun t =>
         t.readN (locOf s m.leaf) 8 = (m.val - 2 ^ 59 - pteAddr m.val + m.target) % 2 ^ 64 ∧
         (∀ k, k < 65536 → t.byteAt (b + k) = s.byteAt (a + k)) ∧
         ∃ P', t.parts.look part = some P' ∧ P'.move = none ∧
           (spaceOf (pteAddr m.val) = 3 → P'.res = P.res + 1 ∧
             t.frames.look (granOf m.target) = some ⟨part, m.ipa, pteAddr m.val, s.clock / 2 ^ 20⟩) ∧
           (spaceOf (pteAddr m.val) ≠ 3 → P'.res = P.res - 1 ∧ t.frames.look (granOf (pteAddr m.val)) = none))) ∧
     (∀ region n, let c := P.act.lookD ⟨0, false, none⟩ region
       c.note = some n → c.pending = false → P.nqen = true →
       (noteRoom P = true → Does (.accessCountThreshold part region) s (fun t =>
         t.readBytes (hostLoc (P.nqbase + 64 + 32 * (P.nqpi % queueSize P.nqsz))) 32 = noteRecord (region * 2 ^ 21) 0 n P.nqpi 0 ∧
         ∃ P', t.parts.look part = some P' ∧ P'.nqpi = (P.nqpi + 1) % 2 ^ 32 ∧ P'.act.lookD ⟨0, false, none⟩ region = ⟨c.count, true, none⟩)) ∧
       (noteRoom P = false → Does (.accessCountThreshold part region) s (fun t =>
         OnlyPart s t part P { P with act := P.act.setAt region ⟨0, false, none⟩, nqovf := true, nqlost := P.nqlost + 1 }))) ∧
     (∀ v : BitVec 32, diff32 v.toNat P.nqci ≤ diff32 P.nqpi P.nqci → Does (.nqciWrite part v) s (fun t =>
       ∃ P', t.parts.look part = some P' ∧ P'.nqci = v.toNat ∧ (P.nqlost = 0 → P'.nqpi = P.nqpi) ∧
         (P.nqlost ≠ 0 → P.nqen = true → noteRoom { P with nqci := v.toNat } = true → P'.nqlost = 0 ∧ P'.nqpi = (P.nqpi + 1) % 2 ^ 32))) ∧
     Does .frameTick s (fun t => t = { s with parts := t.parts } ∧ ∀ p Q, s.parts.look p = some Q →
       t.parts.look p = some { Q with frmt := Q.frmt + mappedFrames s Q }))

/-! ### Events of engines (10, 11) -/

/-- R227, R230, R239, R368, R235: the oldest operation of a class, once finished and acknowledged, is reported: its counter falls and its
error is kept; a CPYCB takes a free slot, or waits behind those that wait at the buffer
already (R238); a chunk of an exact copy is read whole, a gathered row by its index as read once (R236), and then written; a lossy block is written as it arrived,
or as zeros where it did not arrive intact or its deadline has passed, and its count after it. R240, R241, R436: a call starts when its last participant has reached its
engine, and fails as a whole where they disagree; a block of an exact reduction combines every contribution, word by word in the
tree's order, and goes to every participant. -/
def Obligations.CopiesAndCollectives : Prop :=
  ((∀ (s : State) (g cls n : Nat) (o : EngOp) (G : Group), oldestOp s g cls = some (n, o) → o.fin = true → opOwes s g cls o.pos = false →
     s.groups.look g = some G → Does (.engineCompletion g cls) s (fun t => t.ops = s.ops.remove n ∧ ∃ G', OnlyGroup { s with ops := t.ops } t g G G' ∧
       G' = { G with cnt := G'.cnt, errs := G.errs ++ o.err.toList } ∧ G'.counter cls = G.counter cls - 1 ∧
       ∀ k, k ≠ cls → G'.counter k = G.counter k)) ∧
   (∀ (s : State) (n : Nat) (o : EngOp) (b : CBuf), s.ops.look n = some o → cbOf s o = some b → o.kind = 2 → o.slot = none → 0 < b.f →
     copyReady s n o = true → b.waiters.any (fun w => w.1 == n && w.2.2.isEmpty) = false →
     (b.waiters.any (fun w => !w.2.1) = true → Does (.cpycbSlotAcquire n) s (fun t =>
       (t.tileAt o.tile).cbufs.look (o.word 0) = some { b with waiters := b.waiters ++ [(n, false, [])] } ∧ t.ops = s.ops ∧ t.groups = s.groups)) ∧
     (b.waiters.any (fun w => !w.2.1) = false → Does (.cpycbSlotAcquire n) s (fun t => t.ops.look n = some { o with slot := some b.wr } ∧
       (t.tileAt o.tile).cbufs.look (o.word 0) = some { b with f := b.f - 1, wr := (b.wr + 1) % b.m } ∧
       (∀ k, k ≠ n → t.ops.look k = s.ops.look k) ∧ t.groups = s.groups))) ∧
   (∀ (s s1 s2 s3 : State) (n chunk : Nat) (o0 o1 : EngOp) (ws : List (Nat × Nat × Bool)) (ps : List Place), s.ops.look n = some o0 →
     copyReady s n o0 = true → o0.kind < 4 → (o0.kind = 2 → o0.slot.isSome = true) →
     let o := { o0 with wait := none }
     let cnt := chunkCount s o
     let len := copyLen s o
     chunk < cnt → o.done.contains chunk = false → chunk ≤ firstOpen o cnt + 8 →
     let is := (List.range ((min 4096 (len - 4096 * chunk) + 3) / 4)).map (fun j => 4096 * chunk + 4 * j)
     readRows (s.updOp n (fun _ => o)) n o is = (s1, .ok o1) → chunkReads s1 o1 is = (s2, .ok ws) →
     chunkPlaces s2 o1 (ws.map Prod.fst) = (s3, .ok ps) →
     let fl := chunkFlits o1 len chunk (ws.map Prod.fst) ps
     engRoom s3 fl = true →
     let s4 := engCount s3 o1 ((newRows o is).map (rowVa o) ++ chunkVas o1 is)
     ∀ bad, Does (.copyChunkDone n ⟨chunk, bad⟩) s (fun t => t.mem = (engPuts s4 o1 4 fl (ws.map Prod.fst) (ps.zip (ws.map Prod.snd))).mem ∧
       ∃ o', t.ops.look n = some o' ∧ o'.done = setAdd o.done chunk ∧
         (o.kind ≠ 2 → firstOpen { o with done := setAdd o.done chunk } cnt = cnt → o'.fin = true))) ∧
   (∀ (s s1 : State) (n j : Nat) (o0 : EngOp) (b : Option (List Nat × Nat)), s.ops.look n = some o0 → copyReady s n o0 = true →
     o0.kind = 0x20 ∨ o0.kind = 0x21 →
     let o := { o0 with wait := none }
     j < blockCount o → s.clock ≤ lossyLimit s o → o.done.contains (4 * j) = false → o.done.contains (4 * j + 2) = false →
     (lossyRead (s.updOp n (fun _ => o)) o j = (s1, .ok b) →
       Does (.copyChunkDone n ⟨j, false⟩) s (fun t => t = lossyEnd (lossyWrite s1 n o j b) n)) ∧
     Does (.copyChunkDone n ⟨j, true⟩) s (fun t => t = lossyEnd (lossyWrite (s.updOp n (fun _ => o)) n o j none) n)) ∧
   (∀ (s : State) (n : Nat) (o : EngOp), s.ops.look n = some o → o.kind = 0x20 ∨ o.kind = 0x21 → o.fin = false → o.wait = none →
     lossyLimit s o < s.clock → blockCount o = 1 → o.done = [] →
     Does (.lossyDeadline n) s (fun t => t = lossyEnd (lossyWrite (s.updOp n (fun o => { o with wait := none })) n o 0 none) n)) ∧
   ∀ (s s1 s3 : State) (n j : Nat) (o : EngOp) (blk : Option (List Nat × Nat)) (ps : List Place) (pl : Place), s.ops.look n = some o →
     o.wait = none → o.lack.contains (4 * j) = false → (∀ i, i < 4 → o.done.contains (4 * j + i) = false) →
     engPlaces s o false 4 (blockVas o j) = (s1, .ok ps) →
     let vals := match blk with | some b => b.1 | none => List.replicate 64 0
     let o1 := { o with done := setAdd (if blk.isSome then o.done else setAdd o.done (4 * j + 3)) (4 * j) }
     let s2 := (engPuts s1 o 4 [] (blockVas o j) (ps.zip (vals.map (fun v => (v, false))))).updOp n (fun _ => o1)
     engPlace s2 o1 .wr false 1 (((lossyCounts o).1 + j) % 2 ^ 64) = (s3, .ok pl) →
     (lossyWrite s n o j blk).mem = (engPut s3 o1 1 (match blk with | some b => b.2 % 256 | none => 0) false pl).mem ∧
       (lossyWrite s n o j blk).ops.look n = some { o1 with done := setAdd o1.done (4 * j + 1) }) ∧
  (∀ (s : State) (c : Nat) (q : Call), s.calls.look c = some q →
     (∀ o os, q.start = none → q.n ≤ q.members.length →
       q.members.any (fun m => (s.ops.look m.2).any (fun o => (opStopped s o).isSome)) = false →
       q.members.filterMap (fun m => s.ops.look m.2) = o :: os →
       ((∀ p ∈ os, p.kind = o.kind ∧ p.word 2 = o.word 2 ∧ p.word 5 / 2 ^ 32 = o.word 5 / 2 ^ 32) → o.word 2 ≠ 0 →
         Does (.collCallStart c) s (fun t => t = { s with calls := s.calls.setAt c { q with start := some s.clock } })) ∧
       ((∃ p ∈ os, ¬(p.kind = o.kind ∧ p.word 2 = o.word 2 ∧ p.word 5 / 2 ^ 32 = o.word 5 / 2 ^ 32)) →
         (∀ m o, q.members.head? = some m → s.ops.look m.2 = some o → o.call = some c) → (∀ m ∈ q.members, (s.ops.look m.2).isSome = true) →
         Does (.collCallStart c) s (fun t => ∀ m ∈ q.members, ∃ o', t.ops.look m.2 = some o' ∧ o'.fin = true ∧ o'.err.isSome = true))) ∧
     ∀ (t0 n b : Nat) (o : EngOp) (s1 s2 : State) (vs : List (Option (List (Nat × Bool) × Nat))) (ds : List (EngOp × Nat × List Nat × List Place × Option Place))
       (arrived lostTo : List Nat),
       q.start = some t0 → memberOf s q 0 = some (n, o) → o.kind = 4 → o.fin = false → o.collKind ≠ 1 → q.closed.contains b = false →
       b < o.word 2 / 256 → q.members.any (fun m => match (s.ops.look m.2).bind EngOp.wait with | some (k, _) => s.hasFault k | none => false) = false →
       collReads (q.members.foldl (fun s m => s.updOp m.2 (fun o => { o with wait := none })) s) q o.collKind (o.word 2) b q.n = (s1, .ok vs) →
       collPlaces s1 q o.collKind (o.word 2) b q.n = (s2, .ok ds) → (∀ d ∈ ds, d.2.2.2.2 = none ∧ engRoom s2 (fabricFlits 4 d.2.2.2.1) = true) →
       vs.any Option.isSome = true →
       let word := fun (i : Nat) => collWordOf q.n o.collOp o.collTy (vs.map (fun v => v.map (fun v => (v.1.getD i (0, false)).1)))
       let psn := fun (i : Nat) => vs.any (fun v => match v with | some v => (v.1.getD i (0, false)).2 | none => false)
       Does (.collBlockClose c b arrived lostTo) s (fun t =>
         t.mem = (ds.foldl (fun s d => engPuts s d.1 4 (fabricFlits 4 d.2.2.2.1) d.2.2.1 (d.2.2.2.1.zip ((List.range 64).map (fun i => (word i, psn i)))))
           (collCount s2 q o.collKind (o.word 2) b ds)).mem ∧
         (q.closed.length + 1 ≠ o.word 2 / 256 → t.calls.look c = some { q with closed := setAdd q.closed b }) ∧
         (q.closed.length + 1 = o.word 2 / 256 → ∀ m ∈ q.members, ∀ o', t.ops.look m.2 = some o' → o'.fin = true)))

/-- R243, R403: a packet runs at its target's home as one event, where nothing holds it, writes its results into its block and completes: a
fetch-and-op, a compare-and-swap of two words, a dequeue from an empty list, a poisoned target. At the end of a window the home sets a page's mode
by the packets it counted. A packet whose wafer has left the connected group, or whose target refuses it, ends with that error (R228, R401,
R404). R258, R260, R265, R266: the matrix engine does one step of the operation whose class is highest: ACCZ
zeroes its tile, ACCLD loads it, and a K-step adds to the tile the step's products, each word's sum rounded once. An engine with
pending work and no progress for 2^22 cycles is reset: every group that owns tiles in it loses them and its operations, and takes
0x10. -/
def Obligations.PacketsAndMatrixSteps : Prop :=
  ((∀ (s s1 : State) (n pa blk : Nat) (o : EngOp), s.ops.look n = some o → 0x200 ≤ o.kind → o.fin = false → o.word 9 = pa → o.word 10 = blk →
     spaceOf pa < 2 → mapped s pa = false → lineOf (pa + 31) = lineOf pa → 2 ^ 48 ≤ blk → s.still →
     (nmoClaim s (nmoOf s o) pa (o.kind - 0x200 != 5) o.stb = (s1, false) → Does (.nmoExecute n) s (fun t => t = s1)) ∧
     (nmoClaim s (nmoOf s o) pa (o.kind - 0x200 != 5) o.stb = (s1, true) →
     (s.isPoisoned pa = true → Does (.nmoExecute n) s (fun t => t.readN (blk + 56) 8 = 3 ∧ (∀ l, l < blk → t.byteAt l = s.byteAt l))) ∧
     (s.isPoisoned pa = false →
       (o.kind = 0x202 → Does (.nmoExecute n) s (fun t => t.readN pa 8 = nmoFop o.d (s.readN pa 8) (o.word 0) % 2 ^ 64 ∧
         t.readN blk 8 = s.readN pa 8 ∧ t.readN (blk + 56) 8 = 0 ∧ (∀ l, l < blk → l < pa ∨ pa + 8 ≤ l → t.byteAt l = s.byteAt l))) ∧
       (o.kind = 0x200 → Does (.nmoExecute n) s (fun t =>
         let eq := s.readN pa 8 = o.word 0 ∧ s.readN (pa + 8) 8 = o.word 1
         (eq → t.readN pa 8 = o.word 2 ∧ t.readN (pa + 8) 8 = o.word 3 ∧ t.readN (blk + 56) 8 = 0) ∧
         (¬eq → t.readN pa 8 = s.readN pa 8 ∧ t.readN (pa + 8) 8 = s.readN (pa + 8) 8 ∧ t.readN (blk + 56) 8 = 1) ∧
         t.readN blk 8 = s.readN pa 8 ∧ t.readN (blk + 8) 8 = s.readN (pa + 8) 8)) ∧
       (o.kind = 0x204 → s.readN pa 8 = 0 → Does (.nmoExecute n) s (fun t => t.readN blk 8 = 0 ∧ t.readN (blk + 56) 8 = 1 ∧
         ∀ l, l < blk → t.byteAt l = s.byteAt l))) ∧
     Does (.nmoExecute n) s (fun t => ∃ o', t.ops.look n = some o' ∧ (o'.fin = true ∨ (0x203 ≤ o.kind ∧ o' = o))))) ∧
   (∀ (s : State) (n code : Nat) (o : EngOp), s.ops.look n = some o → 0x200 ≤ o.kind → o.fin = false → o.call = none → o.err = none →
     nmoStops s (o.word 9) = some code → Does (.nmoExecute n) s (fun t => t.mem = s.mem ∧
       ∃ o', t.ops.look n = some o' ∧ o'.fin = true ∧ o'.err.map EngErr.code = some code)) ∧
   ∀ (s : State) (page : Nat), s.clock % 4096 = 0 → Does (.sloeWindowEnd page) s (fun t => t.ops = s.ops ∧ t.launches = s.launches ∧
     (s.still → t.mem = s.mem) ∧
     ∀ k T e, s.tiles.look k = some T → T.sloe.look page = some e →
       let e' := (t.tileAt k).sloe.lookD ⟨none, 0, []⟩ page
       e'.count = 0 ∧ e'.from_ = [] ∧ (64 < e.count → e'.owned = none) ∧
       (∀ u, e.count < 8 → e.from_ = [u] → u < 1024 → e'.owned = some u) ∧
       (8 ≤ e.count → e.count ≤ 64 → e'.owned = e.owned))) ∧
  ((∀ (s : State) (tile core n : Nat) (o : EngOp) (G : Group), mxNext s tile core = some (n, o) → s.ops.look n = some o →
     s.groups.look o.g = some G → o.wait = none →
     let s0 := s.updOp n (fun _ => o)
     (o.kind = 0x102 → Does (.matrixKstep tile core) s (fun t => (∃ G', t.groups.look o.g = some G' ∧ accTile G' o.tileNo = AccTile.zero ∧
         (∀ k, k ≠ o.tileNo → accTile G' k = accTile G k) ∧ G'.s = G.s ∧ G'.lanes = G.lanes) ∧ ∃ o', t.ops.look n = some o' ∧ o'.fin = true)) ∧
     (∀ s1 vs, o.kind = 0x103 → engReads s0 o true 4 ((List.range G.w).flatMap (fun r =>
         (List.range 32).map (fun k => (rowAt (o.word 0) (o.word 1) r + 4 * k) % 2 ^ 64))) = (s1, .ok vs) →
       Does (.matrixKstep tile core) s (fun t => ∃ G' o', t.groups.look o.g = some G' ∧ t.ops.look n = some o' ∧ o'.fin = true ∧
         (∀ i, i < 32 * G.w → (accTile G' o.tileNo).words.lookD 0 i = BitVec.ofNat 32 (vs.getD i (0, false)).1) ∧
         (accTile G' o.tileNo).flags = (if vs.any Prod.snd then 32 else 0))) ∧
     (∀ a s1, (o.kind = 0x100 ∨ o.kind = 0x101) → o.a = some a → stepReady s0 o (stepVas n o G.w a) = (s1, false) →
       Does (.matrixKstep tile core) s (fun t => t = s1)) ∧
     (∀ a s1, (o.kind = 0x100 ∨ o.kind = 0x101) → o.a = some a → stepReady s0 o (stepVas n o G.w a) = (s1, true) → Does (.matrixKstep tile core) s (fun t => ∃ o', t.ops.look n = some o' ∧
         o'.done = setAdd o.done o.done.length ∧ (o.done.length + 1 = (matBlk o.ops).ks → o'.fin = true) ∧
         ∃ G', t.groups.look o.g = some G' ∧ (∀ k, k ≠ o.tileNo → accTile G' k = accTile G k) ∧ G'.s = G.s)) ∧
     (o.kind = 0x104 → Does (.matrixKstep tile core) s (fun t =>
       let r := accRows s0 n o (accTile G o.tileNo) G.w (G.w - o.done.length)
       t = if mxStepped o r n then r.updCore tile core (fun c => { c with mxTime := s.clock }) else r))) ∧
   (∀ (f : MatEl) (base : Nat) (ps : List ((Nat × Fv) × (Nat × Fv))),
     let vs := Fmt.f32.read base :: ps.flatMap (fun p => [p.1.2, p.2.2])
     (matWord .i8 base ps).2 = modW 32 ((base : Int) + (ps.map (fun p => valOf true 8 p.1.1 * valOf true 8 p.2.1)).sum) ∧
     (matWord .n8 base ps).2 = (base + (ps.map (fun p => p.1.1 * p.2.1)).sum) % 2 ^ 32 ∧
     (f ≠ .i8 → f ≠ .n8 → vs.any Fv.isNan = true → (matWord f base ps).2 = 0x7FC00000) ∧
     (f ≠ .i8 → f ≠ .n8 → vs.any Fv.isNan = false → (matWord f base ps).2 =
       (Fmt.f32.sum .rne false { key := 0, ctr := 0, fl := 0 } (ps.map (fun p => (p.1.2, p.2.2))) [Fmt.f32.read base]).2)) ∧
   ∀ (s : State) (tile core : Nat), mxPending s tile core = true → (s.coreAt tile core).mxTime + 2 ^ 22 ≤ s.clock →
     Does (.matrixEngineReset tile core) s (fun t => (t.coreAt tile core).resets = (s.coreAt tile core).resets + 1 ∧
       (∀ g G, s.groups.look g = some G → ∃ G', t.groups.look g = some G' ∧
         (G.tile = tile → G.core = core → 0 < G.t → G' = { G with cnt := G'.cnt, acc := [], alatch := none, mreset := true } ∧ G'.counter 1 = 0) ∧
         (¬(G.tile = tile ∧ G.core = core ∧ 0 < G.t) → G' = G)) ∧
       ∀ k o, t.ops.look k = some o → ∀ G, s.groups.look o.g = some G → G.tile = tile → G.core = core → 0 < G.t → o.cls ≠ 1))

/-! ### Contexts and pre-emption (17) -/

/-- R370, R372: a context command is dropped while another is in progress; a save or a migration stop that cannot go on completes
with its status, and else holds a key slot and stops the partition's groups, but for one whose commit is past its first step; a restore
completes with the status of the first check that fails, or puts the image's groups back under new numbers (log 9) with the partition's
registers. R371 to R373: the dirty log goes on and off, is harvested, and a frame is exported and imported. R374, R411, R392: an FLR removes every launch and group of the partition and leaves its
SRAM and frames zero, its queues disabled, EPOCH 0 and the interface unlocked (in ERROR when it was); behind a change of shape that
drains it comes next, every save given up. -/
def Obligations.ContextsAndReset : Prop :=
  (∀ (s : State) (part ctx : Nat) (area : BitVec 64) (P : Part), s.parts.look part = some P →
     let a := areaOf12 area
     let ends := fun (i : Instr) (st : Nat) => Does i s (fun t => OnlyPart s t part P { P with ctxStatus := st })
     let saves := fun (i : Instr) (c : Cmd) => Does i s (fun t => t.keySlots = s.keySlots + 1 ∧ t.mem = s.mem ∧ t.launches = s.launches ∧
       (∃ P', t.parts.look part = some P' ∧ P'.ctxBusy = true ∧ P'.stopped = true ∧ P'.pend = P.pend ++ [c] ∧ P'.ctxStatus = P.ctxStatus) ∧
       (∀ g, g ∉ partGroups s part → t.groups.look g = s.groups.look g) ∧
       (∀ g G, s.groups.look g = some G → G.commits = true → t.groups.look g = some G) ∧
       ∀ g G L, s.groups.look g = some G → s.launches.look G.launch = some L → L.part = part → G.commits = false →
         ∃ G', t.groups.look g = some G' ∧ G'.region = none ∧ G'.grow = none ∧ G'.stall = none ∧ (G.region = none → G'.s = G.s))
     (P.ctxBusy = true → ∀ i, i = .ctxSave part ctx area ∨ i = .migrationStop part ctx area ∨ i = .ctxRestore part ctx area ∨
       i = .dirtyLogOn part ∨ i = .dirtyLogOff part ∨ i = .harvest part area ∨ i = .exportFrame part area ∨ i = .importFrame part area →
       Does i s (fun t => OnlyPart s t part P { P with ctxDrop := true })) ∧
     (P.ctxBusy = false →
       Does (.dirtyLogOn part) s (fun t => ∃ P', t.parts.look part = some P' ∧ P'.dirtyOn = true ∧ P'.dirty = [] ∧ P'.ctxStatus = 0) ∧
       Does (.dirtyLogOff part) s (fun t => ∃ P', t.parts.look part = some P' ∧ P'.dirtyOn = false ∧ P'.ctxStatus = 0) ∧
       (P.dirtyOn = true → Does (.harvest part area) s (fun t => ∃ P', t.parts.look part = some P' ∧ P'.dirty = [] ∧ P'.ctxStatus = 0)) ∧
       (∀ k f, P.migKey = some k → frameAt s P P.fipa = some f →
         Does (.exportFrame part area) s (fun t => (∃ P', t.parts.look part = some P' ∧ P'.ctxStatus = 0) ∧
           t.exportsOut.any (fun e => e.1 == a && e.2.1 == k) = true) ∧
         (s.readBytes (hostLoc (a + 65552)) 48 = padTo 48 (ckey s) → ∀ e s1 go, sealedFrame s k a = some e →
           claimRange s (.req (.frame a)) 1024 f 65536 true false = (s1, go) →
           Does (.importFrame part area) s (fun t => ∃ P', t.parts.look part = some P' ∧ P'.ctxBusy = !go ∧
             if go then P'.ctxStatus = 0 else .frame a ∈ P'.heldReqs ∧ t.mem = s1.mem))) ∧
       (P.stopped5 = true → ends (.ctxSave part ctx area) 1 ∧ ends (.migrationStop part ctx area) 1) ∧
       (P.stopped5 = false → P.migKey = none → ends (.migrationStop part ctx area) 6) ∧
       (P.stopped5 = false → 256 ≤ s.keySlots → ends (.ctxSave part ctx area) 7 ∧ (P.migKey ≠ none → ends (.migrationStop part ctx area) 7)) ∧
       (P.stopped5 = false → s.keySlots < 256 → saves (.ctxSave part ctx area) (.save (ctx % 4) a) ∧
         (P.migKey ≠ none → saves (.migrationStop part ctx area) (.migStop (ctx % 4) a))) ∧
       (P.stopped5 = true ∨ partLaunches s part ≠ [] → ends (.ctxRestore part ctx area) 1) ∧
       (P.stopped5 = false → partLaunches s part = [] →
         (256 ≤ s.keySlots → ends (.ctxRestore part ctx area) 7) ∧
         (s.keySlots < 256 → s.readBytes (hostLoc (a + 0x10)) 48 ≠ ckey s → ends (.ctxRestore part ctx area) 3) ∧
         (s.keySlots < 256 → s.readBytes (hostLoc (a + 0x10)) 48 = ckey s →
           ((imageAt s a).or (importedImage s P a) = none → ends (.ctxRestore part ctx area) 4) ∧
           ∀ m, (imageAt s a).or (importedImage s P a) = some m →
             (imageOk P (ctx % 4) m = false → ends (.ctxRestore part ctx area) 4) ∧
             (imageOk P (ctx % 4) m = true → m.maps = [] → Does (.ctxRestore part ctx area) s (fun t =>
               (∃ P', t.parts.look part = some P' ∧ P'.ctxStatus = 0 ∧ P'.queues = m.queues ∧ P'.seq = m.nextSeq ∧ P'.tvec = m.tvec ∧
                 P'.s1root = m.s1root ∧ P'.s1ctl = m.s1ctl ∧ P'.wdlog = m.wdlog ∧ P'.tiles = P.tiles) ∧
               (∀ g G, s.groups.look g = some G → t.groups.look g = some G) ∧
               let r : Remap := ⟨s.nextId, part, m.tiles.zip P.tiles, s.clock, if m.kind = 2 then m.clock else s.clock⟩
               ∀ g G, m.groups.look g = some G → s.groups.look (g + s.nextId) = none → t.groups.look (g + s.nextId) =
                 some { G with launch := G.launch + s.nextId, tile := r.tile G.tile, age := G.age + r.now - r.stop,
                               lanes := G.lanes.map r.lane })))))) ∧
  (∀ (s : State) (part : Nat) (P : Part), s.parts.look part = some P →
     (∀ c cs, P.pend = c :: cs → c.isReshape = true → Does (.flr part) s (fun t => t.mem = s.mem ∧ t.groups = s.groups ∧ t.launches = s.launches ∧
       ∃ P', t.parts.look part = some P' ∧ P'.pend = c :: .flr :: cs.filter (fun d => !d.isSave && d != .flr && d != .rekey) ∧
         P'.ctxBusy = false ∧ P'.ctxStatus = if P.ctxBusy then 5 else P.ctxStatus)) ∧
     ((P.pend.head?.any Cmd.isReshape) = false → Does (.flr part) s (fun t =>
       (∀ l, t.launches.look l = if l ∈ partLaunches s part then none else s.launches.look l) ∧
       (∀ g, t.groups.look g = if g ∈ partGroups s part then none else s.groups.look g) ∧
       (∀ k ∈ P.tiles, k < 960 → (∀ off, off < 24 * 2 ^ 20 → t.byteAt (tmPa k off) = 0) ∧
         ∀ c off, c < 4 → off < 2 ^ 24 → t.byteAt (storeLoc k c off) = 0) ∧
       (s.still → (∀ pa, mapped s pa = false) → ∀ r ∈ hbmRanges s P, ∀ j, j < r.2 → r.1 + j < 2 ^ 64 → t.byteAt (r.1 + j) = 0) ∧
       ∃ P', t.parts.look part = some P' ∧ P'.epoch = 0 ∧ P'.tasks = [] ∧ P'.appended = [] ∧ P'.migKey = none ∧ P'.world = s.nextKey ∧ P'.traffic = s.nextKey + 1 ∧
         P'.tdi = (if P.tdi = .error then .error else .unlocked) ∧ P'.meas5 = none ∧ P'.tiles = P.tiles ∧ P'.tag = P.tag ∧
         ∀ q, P'.queues.look q = (P.queues.look q).map (fun Q => { Q with en := false }))))

/-- R371 to R373: the dirty log on and off; HARVEST writes one bit for each frame written since, and clears the log; a frame exported
is sealed under the migration key into host memory with this module's compatibility key in its trailer (log 46), and one that stands
there sealed is imported with its poison, or stays BUSY while something holds an access to its lines; one of another compatibility key is
refused. Each completes with its status. -/
def Obligations.FramesAndDirtyLog : Prop :=
  ∀ (s : State) (part : Nat) (area : BitVec 64) (P : Part), s.parts.look part = some P → P.ctxBusy = false →
    HeldReq.frame (areaOf12 area) ∉ P.heldReqs →
    let a := areaOf12 area
    let ends := fun (i : Instr) (st : Nat) => Does i s (fun t => OnlyPart s t part P { P with ctxStatus := st })
    Does (.dirtyLogOn part) s (fun t => OnlyPart s t part P { P with dirtyOn := true, dirty := [], ctxStatus := 0 }) ∧
    Does (.dirtyLogOff part) s (fun t => OnlyPart s t part P { P with dirtyOn := false, ctxStatus := 0 }) ∧
    (P.dirtyOn = false → ends (.harvest part area) 1) ∧
    (P.dirtyOn = true → ∀ P1,
      (P.tiles.foldl drainTile (cleanLines s P.tiles.contains (fun l => spaceOf (l * lineBytes) == 0))).parts.look part = some P1 → P1.dirty.Nodup →
      Does (.harvest part area) s (fun t => (∃ P', t.parts.look part = some P' ∧ P'.dirty = [] ∧ P'.ctxStatus = 0 ∧ P'.dirtyOn = true) ∧
        ∀ i j, i < 2 ^ 22 → j < 8 → (t.byteAt (hostLoc a + i)).getLsbD j = decide (8 * i + j ∈ P1.dirty))) ∧
    (P.migKey = none → ends (.exportFrame part area) 6 ∧ ends (.importFrame part area) 6) ∧
    (P.migKey ≠ none → frameAt s P P.fipa = none → ends (.exportFrame part area) 2 ∧ ends (.importFrame part area) 2) ∧
    ∀ k f, P.migKey = some k → frameAt s P P.fipa = some f → s.still →
      Does (.exportFrame part area) s (fun t => (∃ P', t.parts.look part = some P' ∧ P' = { P with ctxStatus := 0 }) ∧
        ∃ c, t.readBytes (hostLoc a) 65600 = c ∧ c.drop 65552 = padTo 48 (ckey s) ∧ t.exportsOut.head? = some (a, k,
          (List.range 1024).flatMap (fun i => s.readBytes (locOf s (f + 64 * i)) 64),
          (List.range 1024).filter (fun i => s.isPoisoned (locOf s (f + 64 * i))), c)) ∧
      (s.readBytes (hostLoc (a + 65552)) 48 ≠ padTo 48 (ckey s) → ends (.importFrame part area) 3) ∧
      (s.readBytes (hostLoc (a + 65552)) 48 = padTo 48 (ckey s) →
        (match sealedFrame s k a with | none => ends (.importFrame part area) 4 | some _ => True) ∧
        ∀ e s1 go, sealedFrame s k a = some e → (∀ i, i < 1024 → mapped s (f + 64 * i) = false) →
        claimRange s (.req (.frame a)) 1024 f 65536 true false = (s1, go) →
        (go = false → Does (.importFrame part area) s (fun t => t.mem = s.mem ∧ ∃ P', t.parts.look part = some P' ∧ P'.ctxBusy = true ∧
          P'.ctxStatus = P.ctxStatus ∧ .frame a ∈ P'.heldReqs)) ∧
        (go = true → Does (.importFrame part area) s (fun t =>
          (∃ P', t.parts.look part = some P' ∧ P'.ctxStatus = 0 ∧ P'.ctxBusy = false) ∧
          (∀ j, j < 65536 → t.byteAt (f + j) = (padTo 65536 e.1).getD j 0) ∧ (∀ l, l < f ∨ f + 65536 ≤ l → t.byteAt l = s.byteAt l) ∧
          ∀ i, i < 1024 → t.isPoisoned (f + 64 * i) = e.2.contains i)))

/-- R363 to R365: the task first in rank that no place holds marks slots for itself in the reserve of its cores; a slot marked is
frozen at a boundary of all its groups, an open region aborting with cause 6; with every marked slot frozen the task starts in the
reserve, and a task that is gone gives its marks up and its frozen groups go on. -/
def Obligations.FastPreemption : Prop :=
  (∀ (s : State) (part k : Nat) (P : Part), s.parts.look part = some P →
    let marked := markedCores s P k
    (P.tasks.look k = none → Does (.fastPreemption part k) s (fun t =>
      (∀ q ∈ marked, (t.coreAt q.1 q.2).pre = none ∧ (t.coreAt q.1 q.2).freezing = [] ∧ (t.coreAt q.1 q.2).given = []) ∧
      ∀ g G, s.groups.look g = some G → ∃ G', t.groups.look g = some G' ∧ G' = { G with frozen := G'.frozen } ∧
        G'.frozen = if (G.tile, G.core) ∈ marked then false else G.frozen)) ∧
    ∀ u, P.tasks.look k = some u → eligible P u = true → P.stopped = false →
      (∀ x, marked = [] → planNow s part P u.rc u.map? false = none → firstInRank s part P u = true →
        planReserve s part P u (freezeChoice s u) = some x → (∀ q ∈ planSlots x, q.2.1 < 4) → Does (.fastPreemption part k) s (fun t =>
          t = { s with cores := t.cores } ∧
          ∀ q ∈ planSlots x, (t.coreAt q.1 q.2.1).pre = some k ∧ (t.coreAt q.1 q.2.1).freezing = q.2.2)) ∧
      (∀ x, marked ≠ [] → (∀ q ∈ marked, (s.coreAt q.1 q.2).freezing = []) →
        planReserve s part P u (fun a c => if (s.coreAt a c).pre = some k then (s.coreAt a c).given else []) = some x →
        let s1 := startPlaced s part u (sortSlots x) true
        s1.launches.any (fun e => e.2.part == part && e.2.seq == u.seq && e.2.reserve) = true → Does (.fastPreemption part k) s (fun t =>
          t = { s1 with cores := t.cores } ∧
          ∀ q ∈ marked, (t.coreAt q.1 q.2).pre = none ∧ (t.coreAt q.1 q.2).reserve = some s.nextId))) ∧
  ∀ (s : State) (tile core slot : Nat), (s.coreAt tile core).freezing.contains slot = true →
    (∀ e ∈ s.groups, e.2.tile = tile → e.2.core = core → e.2.slot = slot → atBoundary e.2 = true) →
    Does (.slotFreeze tile core slot) s (fun t =>
      t.coreAt tile core = { (s.coreAt tile core) with freezing := (s.coreAt tile core).freezing.erase slot,
                                                       given := (s.coreAt tile core).given ++ [slot] } ∧
      (∀ g, (∀ e ∈ s.groups, e.1 = g → ¬(e.2.tile = tile ∧ e.2.core = core ∧ e.2.slot = slot)) → t.groups.look g = s.groups.look g) ∧
      ∀ g G, s.groups.look g = some G → G.tile = tile → G.core = core → G.slot = slot → ∃ G', t.groups.look g = some G' ∧
        G'.frozen = true ∧ G'.region = none ∧ (∀ l ∈ G'.lanes, l.wd = 0 ∧ l.wdDue = false) ∧
        (G.region = none → G' = { G with frozen := true, lanes := G'.lanes }) ∧
        ∀ r, G.region = some r → G'.arstat = arstatOf (min (r.cnt + 1) 255) (arIcnt G.arstat) 0 0 (arSer G.arstat) false 6 ∧
          ((∀ l ∈ G.lanes, ∀ v d nw, l.block ≠ .cbgot v d nw) → G'.s = r.snapS))

/-! ### Partitions and the mesh (18) -/

/-- R390, R391, R381, R392: a partition command is held during a firmware activation and dropped while another runs; create
completes at once, with the status of the first check that fails or with a partition of the tiles named, the lowest free tag and the
home map; the others complete with the status of a check, or drain the partition. A reshape gives the partition its new tiles in
rising order, the home map over them, and SGEN one more; both write each tile's routing table and its parent in the Rowan tree; destroy
leaves no partition. R380, R388: the spec's example of routing
entries, over tiles 0, 1, 30 and 31; a tile's entry for itself is 4 in both fields; the parent in the Rowan tree is a neighbour of
lesser depth within the partition, and local tile 0 has none. -/
def Obligations.PartitionsAndRoutes : Prop :=
  let tabled := fun (t : State) (ts : List Nat) => ∀ u ∈ ts, (t.tileAt u).tree = rowanParent ts u ∧
    ∀ i, i < ts.length → (t.tileAt u).table.lookD 0x77 i = routeEntry ts u (ts.getD i 0)
  ((∀ (s : State) (p : Nat) (area : BitVec 64), p < 64 →
     let a := areaOf12 area
     let ia := (dmArgument s a).1
     let ib := (dmArgument s a).2
     let ended := fun (st : Nat) => { s with dm := { s.dm with seq := (s.dm.seq + 1) % 2 ^ 32, busy := false, status := st } }
     (∀ i h, (i, h) ∈ ([(.partitionCreate p area, .create p a), (.partitionDestroy p, .destroy p), (.partitionGrow p area, .grow p a),
         (.partitionShrink p area, .shrink p a), (.partitionCompact p area, .compact p a)] : List (Instr × Held)) →
       (s.fwHold = true → Does i s (fun t => t = { s with heldCmds := s.heldCmds ++ [h] })) ∧
       (s.fwHold = false → s.dm.busy = true → Does i s (fun t => t = { s with dm := { s.dm with drop := true } }))) ∧
     (s.fwHold = false → s.dm.busy = false →
       (createStatus s p ia ≠ 0 → Does (.partitionCreate p area) s (fun t => t = ended (createStatus s p ia))) ∧
       (createStatus s p ia = 0 → Does (.partitionCreate p area) s (fun t => t.mem = s.mem ∧ t.dm.status = 0 ∧ t.dm.busy = false ∧
         t.dm.seq = (s.dm.seq + 1) % 2 ^ 32 ∧ (∀ k, k ≠ p → t.parts.look k = s.parts.look k) ∧
         ∃ P k, t.parts.look p = some P ∧ freeTag s = some k ∧ P.tag = k ∧ P.tiles = ia ∧ P.epoch = 0 ∧ P.pcarve = (12, 48, 32) ∧
           P.wdlog = 24 ∧ P.maxcls = 3 ∧ P.tvec = 0 ∧ P.weight = 16 ∧ P.tdi = .unlocked ∧ P.queues = [] ∧
           (∀ j, j < 4096 → P.homes.look j = some (ia.getD (j % ia.length) 0)) ∧ tabled t ia)) ∧
       ∀ i c arg bad, (i, c, arg, bad) ∈ ([(.partitionDestroy p, .destroy, [], fun _ => 0), (.partitionGrow p area, .grow ia, ia, growBad ia s),
           (.partitionShrink p area, .shrink ia, ia, shrinkBad ia s),
           (.partitionCompact p area, .compact ia ib, ia ++ ib, compactBad ia ib s)] : List (Instr × Cmd × List Nat × (Part → Nat))) →
         (badIds arg = true → Does i s (fun t => t = ended 6)) ∧
         (badIds arg = false → s.parts.look p = none → Does i s (fun t => t = ended 5)) ∧
         ∀ P, badIds arg = false → s.parts.look p = some P →
           (bad P ≠ 0 → Does i s (fun t => t = ended (bad P))) ∧
           (bad P = 0 → Does i s (fun t => t.dm.busy = true ∧ t.dm.seq = s.dm.seq ∧ t.mem = s.mem ∧ t.launches = s.launches ∧
             ∃ P', t.parts.look p = some P' ∧ P'.stopped = true ∧ P'.pend = P.pend ++ [c] ∧ P'.tiles = P.tiles)))) ∧
   ∀ (s : State) (p : Nat) (P : Part), s.parts.look p = some P →
     let became := fun (t : State) (ts : List Nat) => t.dm.status = 0 ∧ t.dm.busy = false ∧ ∃ P', t.parts.look p = some P' ∧
       P'.tiles = sortIds ts ∧ P'.homes = homeMap (sortIds ts) ∧ P'.sgen = (P.sgen + 1) % 2 ^ 32 ∧ P'.tag = P.tag ∧ P'.epoch = P.epoch ∧ tabled t (sortIds ts)
     (∀ ids, growBad ids s P = 0 → became (drainEffect s p (.grow ids)) (P.tiles ++ ids)) ∧
     (∀ ids, shrinkBad ids s P = 0 → became (drainEffect s p (.shrink ids)) (P.tiles.filter (fun t => !ids.contains t))) ∧
     (∀ a b, compactBad a b s P = 0 → became (drainEffect s p (.compact a b)) (movedTiles P.tiles (a.zip b))) ∧
     (drainEffect s p .destroy).parts.look p = none) ∧
  (([0, 1, 30, 31].map (fun u => [0, 1, 30, 31].map (routeEntry [0, 1, 30, 31] u)) =
     [[0x44, 0x11, 0x22, 0x11], [0x73, 0x44, 0x73, 0x22], [0x70, 0x70, 0x44, 0x11], [0x70, 0x70, 0x73, 0x44]]) ∧
   (∀ ts u, routeEntry ts u u = 0x44) ∧
   (∀ ts t v, rowanParent ts t = some v → v ∈ ts ∧ (∃ d, neighbour t d = some v) ∧ (tileDepths ts).lookD 0 v < (tileDepths ts).lookD 0 t) ∧
   ∀ ts, rowanParent ts (ts.headD 0) = none)

/-- R382, R383, R384, R385: a packet on the transit plane waits at its edge resource, one on the tile plane is at its destination. A
resource that is free takes the oldest packet of one tag, tag 0 before every other, is occupied for a cycle per flit, and delivers it.
Delivered, a packet that no partition with its tag may receive has no effect but its drop, and a REQ is refused; one whose seal holds in
order takes effect once: a WRITE's bytes are then in memory and no other byte changes, or what holds its granule or line holds it; a
repeat only counts as a drop; in the exact class one whose seal fails or whose order has a gap refuses a REQ or poisons the lines that
it would have written, and in the lossy class a failed block becomes zeros and a gap is passed. A drop window closes 1,024 cycles after
its first drop. -/
def Obligations.PacketsArrive : Prop :=
  ((∀ (s : State) (k : Packet),
     let e := s.edges.lookD Edge.reset k.dst
     (packetToEdge k = true → Does (.packetDelivery k) s (fun t => t = { s with edges := s.edges.setAt k.dst { e with wait := e.wait ++ [k] } })) ∧
     (packetToEdge k = false → Does (.packetDelivery k) s (fun t => t = deliver s k))) ∧
   (∀ (s t : State) (n : Nat) (e : Edge), edgeServe s n e = some t → e.freeAt ≤ s.clock ∧ ∃ k e', e.wait.find? (fun q => q.tag == k.tag) = some k ∧
     (e.wait.any (fun q => q.tag == 0) = true → k.tag = 0) ∧ e'.wait = e.wait.erase k ∧ e'.freeAt = s.clock + packetFlits k ∧
     t = deliver { s with edges := s.edges.setAt n e' } k)) ∧
  (∀ (s : State) (k : Packet), packetOwner s k = none →
    let t := deliver s k
    t.mem = s.mem ∧ t.groups = s.groups ∧ t.launches = s.launches ∧ t.poison = s.poison ∧
    t.out = (if k.cls = 0 then [.refusal] else []) ++ s.out ∧
    (k.inbound = true → t.tiles = s.tiles) ∧
    (k.inbound = false → (s.tileAt k.src).drop = none → (t.tileAt k.src).drop = some ⟨s.clock, if k.transit then 0x8000 + k.dst % 64 else k.dst, k.tag,
      k.cls + (if k.transit then 0x80 else 0), 1, k.addr % 2 ^ 48 / 64 * 64, []⟩) ∧
    (k.transit = true → ∀ e Q, packetTarget s k = some e → s.parts.look e.1 = some Q →
      t.parts.look e.1 = some { Q with rxdrop := (Q.rxdrop + 1) % 2 ^ 32 }) ∧
    (k.transit = false → k.inbound = false → k.dst < 960 → ∀ Q, s.parts.look (partOfTile s k.dst) = some Q →
      t.parts.look (partOfTile s k.dst) = some { Q with rxdrop := (Q.rxdrop + 1) % 2 ^ 32 })) ∧
  (∀ (s : State) (k : Packet) (p : Nat) (P : Part), packetOwner s k = some p → s.parts.look p = some P →
    let t := deliver s k
    let src := (flowOf k).1
    let key := (flowOf k).2
    let want := (s.tileAt src).flows.lookD 0 key
    let taken := fun (n : Nat) => s.updTile src (fun x => { x with flows := x.flows.setAt key n })
    let written := fun (t : State) (bs : List Byte) => (∀ j (h : j < bs.length), t.byteAt (k.addr + j) = bs[j]) ∧
      ∀ l, l < k.addr ∨ k.addr + bs.length ≤ l → t.byteAt l = s.byteAt l
    let lands := fun (s0 : State) (bs : List Byte) => ∀ s1 go, claimRange s0 (.req (.packet { k with payload := bs })) 1024 k.addr bs.length true false = (s1, go) →
      (go = false → t = s1.updPart p (fun Q => if Q.heldReqs.contains (.packet { k with payload := bs }) then Q else
        { Q with heldReqs := Q.heldReqs ++ [.packet { k with payload := bs }] })) ∧
      (go = true → s.still → (∀ j, j < bs.length → spaceOf (k.addr + j) < 2 ∧ mapped s (k.addr + j) = false) → written t bs)
    (k.tagOk = true → (k.seq = want ∨ (k.lossy = true ∧ want < k.seq)) → (t.tileAt src).flows.lookD 0 key = k.seq + 1 ∧
      (k.cls ≠ 3 → t.mem = s.mem) ∧ (k.cls = 3 → lands (taken (k.seq + 1)) k.payload)) ∧
    (k.tagOk = true → k.seq < want → OnlyPart s t p P { P with rxdrop := (P.rxdrop + 1) % 2 ^ 32 }) ∧
    (k.lossy = true → k.tagOk = false → (k.cls ≠ 3 → t = s) ∧ (k.cls = 3 → lands s (k.payload.map (fun _ => 0)))) ∧
    (k.lossy = false → k.tagOk = false ∨ want < k.seq →
      (k.cls = 0 → t = s.reply .refusal) ∧ (k.cls = 2 → t = s) ∧
      (k.cls ≠ 0 → k.cls ≠ 2 → t = { s with poison := t.poison } ∧ ∀ l, t.isPoisoned l = (s.isPoisoned l ||
        (List.range (k.payload.length / 64 + 1)).any (fun j => decide (64 * j < k.payload.length) &&
          lineOf l == lineOf (locOf s (k.addr + 64 * j))))))) ∧
  ∀ (s : State) (tile : Nat),
    (∀ w, (s.tileAt tile).drop = some w → w.time + 1024 ≤ s.clock → Does (.dropWindowClose tile) s (fun t =>
      (t.tileAt tile).drop = none ∧ t.clock = s.clock ∧ t.groups = s.groups ∧ t.devLog = s.devLog ++ [eventRecord w.time 1
        (leBytes 2 tile ++ leBytes 2 w.dst ++ leBytes 1 w.tag ++ leBytes 1 w.cls ++ leBytes 2 w.cnt ++ leBytes 8 w.addr) s.devSeq])) ∧
    ((∀ w, (s.tileAt tile).drop = some w → s.clock < w.time + 1024) → Does (.dropWindowClose tile) s (fun t => t = s))

/-- R387: a rekey asked for while one is pending is absorbed; else it drains the partition, and once the drain is done EPOCH rises,
BUSY clears, the traffic key is a new one, and the flows of the partition's tiles start again at 0. R376, R377: a tile whose array has more than 64 corrections of
late is retired when no partition holds it, and else drains its partition; a tile that fails loses its contents and its groups, the
launches with a unit there end as at S, and its partition drains (log 53). R390 to R392: a partition is created, and the other partition
commands whose checks pass drain theirs. -/
def Obligations.RekeyingAndTileLoss : Prop :=
  (∀ (s : State) (part : Nat) (P : Part), s.parts.look part = some P →
     (∀ pf, P.rekeyBusy = true → Does (.rekeyRequest part pf) s (fun t => t = s)) ∧
     (∀ pf, P.rekeyBusy = false → Does (.rekeyRequest part pf) s (fun t => t.mem = s.mem ∧ ∃ P', t.parts.look part = some P' ∧
       P'.rekeyBusy = true ∧ P'.stopped = true ∧ P'.pend = P.pend ++ [.rekey] ∧ P'.epoch = P.epoch ∧
       P'.rekeyCause = if P.pend.any Cmd.isReshape then 2 else if pf then 1 else 0)) ∧
     (drainHead s part = some .rekey → Does (.rekeyExecute part) s (fun t =>
       (∀ k ∈ P.tiles, (t.tileAt k).flows = []) ∧ ∃ P', t.parts.look part = some P' ∧ P'.epoch = (P.epoch + 1) % 2 ^ 32 ∧
         P'.traffic = s.nextKey ∧ P'.rekeyBusy = false ∧ P'.pend = P.pend.drop 1 ∧ P'.stopped = (!(P.pend.drop 1).isEmpty || P.stopped5 || P.lost))) ∧
     (drainHead s part ≠ some .rekey → Does (.rekeyExecute part) s (fun t => t = s))) ∧
  (∀ (s : State) (tile : Nat),
     (∀ array, recentCorr s tile array ≤ 64 → Does (.tilePredictedFailure tile array) s (fun t => t = s)) ∧
     (∀ array, 64 < recentCorr s tile array → (s.tileAt tile).failed = false → (s.tileAt tile).retired = false →
       (s.parts.look (partOfTile s tile) = none → Does (.tilePredictedFailure tile array) s (fun t =>
         t.tileAt tile = { (s.tileAt tile) with retired := true } ∧ t.devLog.length = s.devLog.length + 1 ∧ t.groups = s.groups)) ∧
       ∀ P, s.parts.look (partOfTile s tile) = some P → 
         P.pend.any (fun c => match c with | .predicted t a _ => t == tile && a == array | _ => false) = false →
         Does (.tilePredictedFailure tile array) s (fun t => t.mem = s.mem ∧ ∃ P', t.parts.look (partOfTile s tile) = some P' ∧
           P'.stopped = true ∧ P'.pend = P.pend ++ [.predicted tile array s.clock] ∧ P'.tiles = P.tiles)) ∧
     (tile < 960 → (s.tileAt tile).failed = false →
       (s.parts.look (partOfTile s tile) = none → Does (.tileFailure tile) s (fun t =>
         t.tileAt tile = { (s.tileAt tile) with failed := true } ∧ t.devLog.length = s.devLog.length + 1 ∧ t.groups = s.groups)) ∧
       ∀ P, s.parts.look (partOfTile s tile) = some P → Does (.tileFailure tile) s (fun t => (t.tileAt tile).failed = true ∧
         (∀ g G, t.groups.look g = some G → G.tile ≠ tile) ∧
         (∀ off, off < 24 * 2 ^ 20 → t.byteAt (tmPa tile off) = 0) ∧ (∀ c off, c < 4 → off < 2 ^ 24 → t.byteAt (storeLoc tile c off) = 0) ∧
         (∀ l L, s.launches.look l = some L → launchOn L tile = true → L.halt = none → ∃ L', t.launches.look l = some L' ∧
           L' = { L with halt := some (0xFF, 0xFFFF), times := L'.times }) ∧
         ∃ P', t.parts.look (partOfTile s tile) = some P' ∧ P'.stopped = true ∧ P'.pend = P.pend ++ [.tileLost tile s.clock] ∧
           P'.tiles = P.tiles))) ∧
  ∀ (s : State) (p : Nat) (area : BitVec 64), p < 64 → s.fwHold = false → s.dm.busy = false →
     let ia := (dmArgument s (areaOf12 area)).1
     let ib := (dmArgument s (areaOf12 area)).2
     (createStatus s p ia = 0 → Does (.partitionCreate p area) s (fun t => ∃ P', t.parts.look p = some P' ∧ P'.tiles = ia)) ∧
     ∀ P, s.parts.look p = some P →
       let drains := fun (i : Instr) (c : Cmd) => Does i s (fun t => ∃ P', t.parts.look p = some P' ∧ P'.stopped = true ∧ P'.pend = P.pend ++ [c])
       drains (.partitionDestroy p) .destroy ∧
       (growBad ia s P = 0 → drains (.partitionGrow p area) (.grow ia)) ∧
       (shrinkBad ia s P = 0 → drains (.partitionShrink p area) (.shrink ia)) ∧
       (compactBad ia ib s P = 0 → drains (.partitionCompact p area) (.compact ia ib))

/-! ### The fabric (19) -/

/-- R395 to R397: EN, RETRAIN and what training finds change a port's state, its good wavelengths, peer and version, and every
change rewrites the route table; the accesses that a port which leaves its link still held take another route, or are lost; WAFERID is written only while every port is DISABLED. A route entry is direct, by the lowest usable
port to the wafer, or else through the lowest intermediate wafer (which other wafers reach each other is log 10's open value). -/
def Obligations.PortsTrain : Prop :=
  (∀ (s : State) (k : Nat), k < 16 →
    let x := s.portAt k
    let left := fun (y : Port) => x.owed.foldl reroute (rewriteRoutes (s.setPort k y))
    let becomes := fun (t : State) (y : Port) => t = left y
    let fresh := fun (st : Nat) (en : Bool) => { x with en, st, ver := 0, good := if st = 0 then 0 else x.good, replayBuf := [], owed := [],
                                                        loss := [], badRun := 0, badNums := [], unsent := 0, feedAt := 0, trainAt := s.clock }
    (x.en = false → Does (.portEnable k) s (fun t => becomes t (fresh 1 true)) ∧ Does (.portDisable k) s (fun t => t = s) ∧
      Does (.portRetrain k) s (fun t => t = s)) ∧
    (x.en = true → Does (.portDisable k) s (fun t => becomes t (fresh 0 false)) ∧ Does (.portEnable k) s (fun t => t = s) ∧
      Does (.portRetrain k) s (fun t => becomes t (fresh 1 true))) ∧
    (x.st = 1 → s.clock ≤ x.trainAt + 2 ^ 24 → ∀ r : TrainResult,
      (trainReason s r ≠ 0 → Does (.trainingDone k r) s (fun t =>
        t = linkRecord (left { (fresh 4 x.en) with good := 0, reason := trainReason s r }) 5 k 0xFF 0 0 0 0)) ∧
      (trainReason s r = 0 → Does (.trainingDone k r) s (fun t => ∃ y n, t = linkRecord (rewriteRoutes (s.setPort k y)) 4 k 0xFF n 0 0 0 ∧
        n = countGood (keptGood r.good) ∧ 4 ≤ n ∧ y.peerw = r.peerWafer % 64 ∧ y.peerp = r.peerPort % 16 ∧
        y = { x with st := y.st, good := keptGood r.good, ver := 1, peerw := y.peerw, peerp := y.peerp, nextTx := 0, nextRx := 0, lit := y.lit } ∧
        y.st = if keptGood r.good = 0xFFFF then 2 else 3))) ∧
    (x.st = 1 → x.trainAt + 2 ^ 24 ≤ s.clock → Does (.trainingTimeout k) s (fun t =>
      t = linkRecord (left { (fresh 4 x.en) with good := 0, reason := 4 }) 5 k 0xFF 0 0 0 0))) ∧
  (∀ (s : State) (v : BitVec 64),
    (s.ports.all (fun e => e.2.st == 0) = true → Does (.waferidWrite v) s (fun t => t = { s with waferid := v.toNat % 64 })) ∧
    (s.ports.all (fun e => e.2.st == 0) = false → Does (.waferidWrite v) s (fun t => t = s))) ∧
  (∀ (s : State) (r : TrainResult), trainReason s r =
    if countGood (keptGood r.good) < 4 then 1 else if r.peerWafer = s.waferid then 3 else if min 1 r.peerHi < max 1 r.peerLo then 2 else 0) ∧
  (∀ (g : BitVec 16) (i : Nat), i < 16 → (keptGood g).getLsbD i = (List.range 4).all (fun j => g.getLsbD (i / 4 * 4 + j))) ∧
  ∀ (s : State) (w : Nat), w < 64 →
    let e := ((rewriteRoutes s).routes.lookD 0 w).toNat
    (bitN e 15 = false → e = 0) ∧ (w = s.waferid → e = 0) ∧
    (w ≠ s.waferid → ∀ k, k < 16 → (s.portAt k).up = true → (s.portAt k).peerw = w → (∀ j, j < k → ¬((s.portAt j).up = true ∧ (s.portAt j).peerw = w)) →
      bitN e 15 = true ∧ bitN e 14 = true ∧ bitsN e 13 10 = k ∧ bitsN e 5 0 = 0) ∧
    (bitN e 15 = true → bitN e 14 = false → ∃ v, v < 64 ∧ v ≠ s.waferid ∧ v ≠ w ∧ bitsN e 5 0 = v ∧ directPort s w = none ∧
      directPort s v = some (bitsN e 13 10))

/-- R404, R405: an exact flit in order advances the receiver, and one out of order or damaged does not and is asked for again; that of a
packet for another wafer goes on at once (R398); a damaged lossy flit is counted and dropped; what has been sent and is not acknowledged is sent again from the number asked for and counted, and a flit is sent once the mesh has brought it,
one in a cycle (18 R378), and no replay is under way (26 R449); an acknowledged flit and those
before it leave the buffer, and the accesses that end with them are acknowledged (log 78). A laser module that fails stops emitting; its loss is noticed, recorded, and its wavelengths leave the
stripe, or the port goes DOWN below 4; the record of the replay is posted once it has ended (R450). A single wavelength that fails leaves
the stripe too. -/
def Obligations.LinksRun : Prop :=
  ∀ (s : State) (k : Nat), k < 16 →
    let x := s.portAt k
    (x.up = true →
      (∀ onward seq crc, Does (.flitReceive ⟨k, onward⟩ seq true crc) s (fun t =>
        let taken := crc && seq == x.nextRx && onward.all (onwardRoom s)
        ∃ y, y = { x with nextRx := y.nextRx, badRun := y.badRun, badNums := y.badNums } ∧
          y.nextRx = (if taken then (x.nextRx + 1) % 2 ^ 32 else x.nextRx) ∧
          (taken = true → t = match (generalizing := false) onward with
            | some w => sendFlits (s.setPort k y) (2 ^ 46 + w * 2 ^ 39) 1
            | none => s.setPort k y) ∧
          (taken = false → t = { s with ports := t.ports, out := .replay k x.nextRx :: s.out } ∧ t.portAt k = y ∧
            ∀ j, j ≠ k → t.portAt j = s.portAt j))) ∧
      (∀ onward seq crc, Does (.flitReceive ⟨k, onward⟩ seq false crc) s (fun t => ∃ y, t = { s with ports := t.ports } ∧ t.portAt k = y ∧
        (∀ j, j ≠ k → t.portAt j = s.portAt j) ∧ y = { x with lossydrop := y.lossydrop, badRun := y.badRun, badNums := y.badNums, loss := y.loss } ∧
        y.lossydrop = if crc then x.lossydrop else (x.lossydrop + 1) % 2 ^ 32)) ∧
      (∀ seq, x.loss.any (fun l => l.seen && l.ends.isNone) = false → Does (.replayRequest k seq) s (fun t => ∃ y, t = { s with ports := t.ports } ∧ t.portAt k = y ∧
        (∀ j, j ≠ k → t.portAt j = s.portAt j) ∧ y = { x with replays := y.replays, badNums := y.badNums, loss := y.loss } ∧
        (x.loss = [] → y.replays = (x.replays + ((x.sent s.clock).dropWhile (fun n => n != seq)).length) % 2 ^ 32))) ∧
      (∀ a b seq, x.replayBuf = a ++ seq :: b → seq ∉ a → a.length + x.waiting s.clock < x.replayBuf.length → Does (.linkAcknowledgement k seq) s (fun t => ∃ y, t = { s with ports := t.ports } ∧
        t.portAt k = y ∧ (∀ j, j ≠ k → t.portAt j = s.portAt j) ∧ y = { x with replayBuf := b, owed := y.owed } ∧
        ∀ o, o ∈ y.owed ↔ o ∈ x.owed ∧ o.seq ∈ b)) ∧
      (∀ laser own, laser < 4 → x.good &&& laserMask laser = laserMask laser → x.loss.any (fun l => l.laser == laser && l.seen) = false →
        (own = true → x.loss.any (fun l => l.laser == laser && l.own) = true) → Does (.lossOfLightDetect k laser own) s (fun t =>
          ∃ y, t = linkRecord (s.setPort k y) 1 k (if own then laser else 0xFF) (countGood (x.good &&& ~~~(laserMask laser))) (laserMask laser) 0 0 ∧
            y = { x with reason := 1, unsent := x.waiting s.clock, replays := y.replays, loss := y.loss } ∧ (own = true → y.replays = x.replays) ∧
            y.loss.any (fun l => l.laser == laser && l.own == own && l.seen) = true)) ∧
      (∀ w own, w < 16 → x.good.getLsbD w = true →
        let good := x.good &&& ~~~(BitVec.twoPow 16 w)
        (4 ≤ countGood good → Does (.lossOfLightDetect k (4 + w) own) s (fun t => ∃ y, t = rewriteRoutes (s.setPort k y) ∧ y.st = 3 ∧ y.good = good ∧
          y.replayBuf = x.replayBuf)) ∧
        (countGood good < 4 → Does (.lossOfLightDetect k (4 + w) own) s (fun t => ∃ y,
          t = linkRecord (x.owed.foldl reroute (rewriteRoutes (s.setPort k y))) 3 k 0xFF (countGood good) (BitVec.twoPow 16 w) 0 0 ∧ y.st = 4))) ∧
      ∀ laser own l, x.loss.find? (fun l => l.laser == laser && l.own == own && l.seen) = some l →
        let good := x.good &&& ~~~(laserMask laser)
        let name := if own then laser else 0xFF
        (∀ c, l.ends = some c → s.clock < c → Does (.restripe k laser own) s (fun t => t = s)) ∧
        (∀ c, l.ends = some c → c ≤ s.clock → Does (.restripe k laser own) s (fun t =>
          t = linkRecord (s.setPort k { x with loss := x.loss.filter (fun l => !(l.laser == laser && l.own == own)) }) 2 k name
            (countGood x.good) (laserMask laser) l.nums.length l.lost)) ∧
        (l.ends = none → countGood good < 4 → Does (.restripe k laser own) s (fun t => ∃ y,
          t = linkRecord (x.owed.foldl reroute (rewriteRoutes (s.setPort k y))) 3 k name (countGood good) (laserMask laser) 0 0 ∧ y.st = 4 ∧
          y.good = good ∧ y.reason = 1 ∧ y.replayBuf = [] ∧ y.owed = [] ∧ y.en = x.en)) ∧
        (l.ends = none → 4 ≤ countGood good → Does (.restripe k laser own) s (fun t => ∃ y, t = rewriteRoutes (s.setPort k y) ∧ y.st = 3 ∧
          y.good = good ∧ y.replayBuf = x.replayBuf ∧ y.unsent = x.unsent ∧ y.peerw = x.peerw ∧
          ∃ l', y.loss.find? (fun l => l.laser == laser && l.own == own && l.seen) = some l' ∧ l.nums.length ≤ l'.nums.length ∧
            l'.ends = some (s.clock + (28 * (x.sent s.clock).length + 25 * countGood good - 1) / (25 * countGood good))))) ∧
    ∀ laser, laser < 4 → x.lit.getLsbD laser = true → Does (.laserLoss k laser) s (fun t => ∃ y, t = { s with ports := t.ports } ∧
      t.portAt k = y ∧ (∀ j, j ≠ k → t.portAt j = s.portAt j) ∧ y = { x with lit := x.lit &&& ~~~(BitVec.twoPow 4 laser), loss := y.loss } ∧
      y.loss = if x.up = true ∧ x.good &&& laserMask laser = laserMask laser then x.loss ++ [⟨laser, true, s.clock, 0, [], false, none⟩] else x.loss)

/-- R399, R400, R412: an export-table word keeps its defined bits, a live entry changes only by its V cleared, and a locked table
moves the interface to ERROR. A request is refused when the handle does not admit it; else it acts on the target's memory at home: a
read gives the bytes, a write stores them and is acknowledged, an atomic gives the old value and stores the new one, a reduction is seen by
the next read, a WAITA whose word has reached its value is answered, a near-memory packet is held or answered; what holds an access at its
home holds the request. R406, R407: a fabric barrier's symbol is held while its partition is stopped or its context saved, and is of no
effect in another job; a release that reaches a member whose symbol is sent passes the barrier's phase there; a symbol that reaches rank 0
is kept, and with every member's the phase passes. -/
def Obligations.ExportsAndSymbols : Prop :=
  ((∀ (s : State) (part h : Nat) (second : Bool) (v : BitVec 64) (P : Part), s.parts.look part = some P → h < 64 →
     (regLocked P = true → Does (.exportHandleWrite part h second v) s (fun t => ∃ P', t.parts.look part = some P' ∧ P'.tdi = .error ∧
       P'.exports = P.exports)) ∧
     (regLocked P = false → bitN (P.export h false) 0 = false ∨ (second = false ∧ v.getLsbD 0 = false) →
       (second = false → v.getLsbD 0 = true → handleTaken s part h = false) → Does (.exportHandleWrite part h second v) s (fun t =>
         ∃ P', OnlyPart s t part P P' ∧ P' = { P with exports := P'.exports } ∧
           P'.exports.lookD 0 (2 * h + second.toNat) = v &&& (if second then 0x7F3F0003FFFF else 0xFFFFFFFF0007) ∧
           ∀ j, j ≠ 2 * h + second.toNat → P'.exports.lookD 0 j = P.exports.lookD 0 j)) ∧
     (regLocked P = false → bitN (P.export h false) 0 = true → second = true ∨ v.getLsbD 0 = true →
       Does (.exportHandleWrite part h second v) s (fun t => t = s))) ∧
   ∀ (s : State) (part wafer sp h : Nat) (off : BitVec 33) (op : FabricOp) (P : Part), s.parts.look part = some P →
     let base := bitsN (P.export h false) 47 16 * 65536
     let req : HeldReq := .fabric wafer sp h off.toNat op base
     P.heldReqs.contains req = false →
     (exportOk P wafer sp h off.toNat op = false → Does (.fabricRequest part wafer sp h off op) s (fun t => t.out = .refusal :: s.out ∧
       t.mem = s.mem ∧ t.groups = s.groups ∧ ∀ k, t.parts.look k = s.parts.look k)) ∧
     (exportOk P wafer sp h off.toNat op = true → P.pend.any Cmd.isReshape = true → Does (.fabricRequest part wafer sp h off op) s (fun t =>
       OnlyPart s t part P { P with heldReqs := P.heldReqs ++ [req] })) ∧
     ∀ s1 s2 go b z a r w x u, exportOk P wafer sp h off.toNat op = true → P.pend.any Cmd.isReshape = false →
       let ipa := base + off.toNat
       let pa := a + (ipa - b)
       let n := fabSize op
       stage2 s P ipa = (s1, .page b z a r w x u) → s2Denies (fabNeed op) r w false = false → paCheck s1 part (fabNeed op) pa = none →
       claimRange s1 (.req req) 1024 pa n (fabNeed op).w (fabNeed op == .rmw) = (s2, go) →
       (go = false → Does (.fabricRequest part wafer sp h off op) s (fun t => t = holdReq s2 part req)) ∧
       (go = true → s1.still → (∀ j, j < n → spaceOf (pa + j) < 2 ∧ mapped s1 (pa + j) = false ∧ s1.isPoisoned (pa + j) = false) →
       Does (.fabricRequest part wafer sp h off op) s (fun t => match op with
         | .read m => t.mem = s1.mem ∧ t.out.head? = some (.bytes ((List.range m).map (fun j => s1.byteAt (pa + j))))
         | .write bs => (∀ j (q : j < bs.length), t.byteAt (pa + j) = bs[j]) ∧ (∀ l, l < pa ∨ pa + bs.length ≤ l → t.byteAt l = s1.byteAt l) ∧
             t.out.head? = some .ack
         | .reduction o ty v => o < 7 → pa % n = 0 → (homeTile s1 part pa).isSome = true → t.out.head? = some .ack ∧
             (readPa t pa n).2 = atomOp o ty (s1.readN pa n) v.toNat % 2 ^ tyW ty
         | .waita ty c => t.mem = s1.mem ∧ (valOf ty.signed (tyW ty) c.toNat ≤ valOf ty.signed (tyW ty) (s1.readN pa n) →
             t.out.head? = some (.value 1))
         | .nmo _ _ _ => (∃ u, t = holdReq u part req) ∨ ∃ bs, t.out.head? = some (.bytes bs)
         | .atomic o ty e c => 0 < n → pa % n = 0 → t.readN pa n = atomFun o ty e.toNat c.toNat (s1.readN pa n) % 2 ^ tyW ty ∧
             (∀ l, l < pa ∨ pa + n ≤ l → t.byteAt l = s1.byteAt l) ∧ t.out.head? = some (.value (s1.readN pa n))))) ∧
  (∀ (s : State) (part rank : Nat) (y : BarSym) (release : Bool) (P : Part), s.parts.look part = some P →
     P.heldReqs.contains (.symbol y rank release) = false →
     let saved := P.ctxs.any (fun c => c.2.saved)
     let does := fun (q : State → Prop) => Does (.fabricBarrierSymbol part y rank release) s q
     (P.stopped = true ∨ (saved = true ∧ fabricLaunch s part y.launch = none ∧ endedSymbol P y.launch y.id = none) → does (fun t =>
       OnlyPart s t part P { P with heldReqs := P.heldReqs ++ [.symbol y rank release] })) ∧
     (P.stopped = false → saved = false → fjobEn P = false ∨ y.job ≠ fjobId P → does (fun t => OnlyPart s t part P P)) ∧
     (P.stopped = false → fjobEn P = true → y.job = fjobId P → ∀ n L, fabricLaunch s part y.launch = some (n, L) →
       s.launches.look n = some L → endedSymbol P y.launch y.id = none →
       let passes := fun (t : State) => ∃ L' P', t.launches.look n = some L' ∧ L' = { L with phase := L'.phase } ∧
         L'.phaseOf 5 (fjobRank P) y.id = L.phaseOf 5 (fjobRank P) y.id + 1 ∧
         (∀ j, j ≠ phaseKey 5 (fjobRank P) y.id → L'.phase.lookD 0 j = L.phase.lookD 0 j) ∧ t.groups = s.groups ∧
         t.parts.look part = some P' ∧ ∀ q ∈ P'.symbols, ¬(q.1.launch = y.launch ∧ q.1.id = y.id)
       (release = true → fjobRank P ≠ 0 → hasSymbol P y.launch y.id (fjobRank P) = true → does passes) ∧
       (release = false → fjobRank P = 0 → hasSymbol P y.launch y.id rank = false →
         let Q := { P with symbols := (y, rank) :: P.symbols }
         (fabricReady Q y.launch y.id = true → does passes) ∧
         (fabricReady Q y.launch y.id = false → does (fun t => OnlyPart s t part P Q)))))

/-! ### Trust and the host interface (20) -/

/-- R411, R412, R415: LOCK, START and STOP move the interface along its states within a session, are refused out of place, and are
held during an activation; TVEC, a locked register, is written in CONFIG_UNLOCKED, and a write in CONFIG_LOCKED or RUN moves the
interface to ERROR. R413 to R415, R420: with an identity, KEY_EXCHANGE opens a session and drops its acknowledgements, and CHALLENGE
and GET_MEASUREMENTS answer signed digests, for a VF and for a PF; without one, all are refused. An IDE key and a firmware
acknowledgement need a session, and the key waits until what was issued under the old one is done. R14: a message of another version is refused. (Digests and signatures are uninterpreted, log 8; the
codes of the versions, log 13.) -/
def Obligations.InterfacesAndSessions : Prop :=
  (∀ (s : State) (p : Nat),
     let refused := fun (i : Instr) => Does i s (fun t => t = { s with out := .refusal :: s.out })
     (∀ ver, ver ≠ 0x10 → refused (.lockInterfaceRequest ⟨p, ver⟩) ∧ refused (.startInterfaceRequest ⟨p, ver⟩) ∧ refused (.stopInterfaceRequest ⟨p, ver⟩)) ∧
     (∀ ver, ver ≠ 0x13 → refused (.keyExchange ⟨p, ver⟩) ∧ (∀ n, refused (.challenge ⟨p, ver⟩ n)) ∧ (∀ i raw, refused (.getMeasurements ⟨p, ver⟩ i raw)) ∧
       (∀ key, refused (.ideKmKeyProg ⟨p, ver⟩ key)) ∧ (∀ d, refused (.fwAck ⟨p, ver⟩ d)) ∧ ∀ peer, refused (.migrationKeyMessage ⟨p, ver⟩ peer)) ∧
     (s.fwHold = true →
       Does (.lockInterfaceRequest ⟨p, 0x10⟩) s (fun t => t = { s with heldCmds := s.heldCmds ++ [.lock p] }) ∧
       Does (.startInterfaceRequest ⟨p, 0x10⟩) s (fun t => t = { s with heldCmds := s.heldCmds ++ [.start p] }) ∧
       Does (.stopInterfaceRequest ⟨p, 0x10⟩) s (fun t => t = { s with heldCmds := s.heldCmds ++ [.stop p] })) ∧
     (s.fwHold = false → (∀ P, s.parts.look p = some P → P.session = false) →
       refused (.lockInterfaceRequest ⟨p, 0x10⟩) ∧ refused (.startInterfaceRequest ⟨p, 0x10⟩) ∧ refused (.stopInterfaceRequest ⟨p, 0x10⟩)) ∧
     ∀ P, s.parts.look p = some P →
       (s.fwHold = false → P.session = true →
         (P.tdi = .unlocked → Does (.lockInterfaceRequest ⟨p, 0x10⟩) s (fun t =>
           OnlyPart s t p P { P with tdi := .locked, meas5 := some (lockedRegs P) })) ∧
         (P.tdi ≠ .unlocked → refused (.lockInterfaceRequest ⟨p, 0x10⟩)) ∧
         (P.tdi = .locked → Does (.startInterfaceRequest ⟨p, 0x10⟩) s (fun t => OnlyPart s t p P { P with tdi := .run })) ∧
         (P.tdi ≠ .locked → refused (.startInterfaceRequest ⟨p, 0x10⟩)) ∧
         (P.tdi = .error → Does (.stopInterfaceRequest ⟨p, 0x10⟩) s (fun t => OnlyPart s t p P { P with tdi := .unlocked, meas5 := none })) ∧
         (P.tdi = .unlocked → Does (.stopInterfaceRequest ⟨p, 0x10⟩) s (fun t => t = s)) ∧
         (regLocked P = true → (P.pend.head?.any Cmd.isReshape) = false → Does (.stopInterfaceRequest ⟨p, 0x10⟩) s (fun t =>
           (∀ l, t.launches.look l = if l ∈ partLaunches s p then none else s.launches.look l) ∧
           ∃ P', t.parts.look p = some P' ∧ P'.tdi = .unlocked ∧ P'.meas5 = none ∧ P'.epoch = 0)) ∧
         (regLocked P = true → (P.pend.head?.any Cmd.isReshape) = true → Does (.stopInterfaceRequest ⟨p, 0x10⟩) s (fun t =>
           t.launches = s.launches ∧ ∃ P', t.parts.look p = some P' ∧ P'.tdi = P.tdi ∧ (P'.pend.drop 1).head? = some .flr))) ∧
       ∀ v : BitVec 64,
         (regLocked P = false → Does (.tvecWrite p v) s (fun t => OnlyPart s t p P { P with tvec := v.toNat / 4 * 4 })) ∧
         (regLocked P = true → Does (.tvecWrite p v) s (fun t => ∃ P', t.parts.look p = some P' ∧ P'.tdi = .error ∧ P'.tvec = P.tvec))) ∧
  (∀ (s : State) (p : Nat),
     let refused := fun (i : Instr) => Does i s (fun t => t = { s with out := .refusal :: s.out })
     (signKey s p = none → refused (.keyExchange ⟨p, 0x13⟩) ∧ (∀ n, refused (.challenge ⟨p, 0x13⟩ n)) ∧ ∀ i raw, refused (.getMeasurements ⟨p, 0x13⟩ i raw)) ∧
     (∀ i raw, measured s p i = none → refused (.getMeasurements ⟨p, 0x13⟩ i raw)) ∧
     (∀ k, signKey s p = some k →
       Does (.keyExchange ⟨p, 0x13⟩) s (fun t => (∃ b, t.out = .bytes b :: s.out ∧ b.length = 3309) ∧ t.mem = s.mem ∧
         (∀ q, q ≠ p → t.parts.look q = s.parts.look q) ∧
         ∀ P, s.parts.look p = some P → t.parts.look p = some { P with session := true, fwAck := none }) ∧
       (∀ n, Does (.challenge ⟨p, 0x13⟩ n) s (fun t => ∃ sum, t = { s with out := .bytes (sum ++ padTo 3309 (Config.signature k (n ++ sum))) :: s.out } ∧
         sum = digest ((List.range 6).flatMap (fun i => ((measured s p i).map digest).getD [])))) ∧
       ∀ i raw m, measured s p i = some m → Does (.getMeasurements ⟨p, 0x13⟩ i raw) s (fun t => ∃ b,
         t = { s with out := .bytes (b ++ padTo 3309 (Config.signature k b)) :: s.out } ∧ b = if raw = true ∧ 4 ≤ i then m else digest m)) ∧
     ((∀ P, s.parts.look p = some P → P.session = false) → (∀ key, refused (.ideKmKeyProg ⟨p, 0x13⟩ key)) ∧ ∀ d, refused (.fwAck ⟨p, 0x13⟩ d)) ∧
     ∀ P, s.parts.look p = some P → P.session = true →
       (∀ d, Does (.fwAck ⟨p, 0x13⟩ d) s (fun t => OnlyPart s t p P { P with fwAck := some d })) ∧
       ∀ key,
         (portsQuiet s p P (.ide key) = true → Does (.ideKmKeyProg ⟨p, 0x13⟩ key) s (fun t =>
           OnlyPart s t p P { P with ideKey := some key, heldReqs := P.heldReqs.erase (.ide key) })) ∧
         (portsQuiet s p P (.ide key) = false → Does (.ideKmKeyProg ⟨p, 0x13⟩ key) s (fun t => t = holdReq s p (.ide key))))

/-- R417 to R421, R425: a key or firmware command is dropped while another runs, and completes with the status of the first check
that fails or with its effect: an import bound to a key slot, an image staged or discarded, an activation or a transition that
drains every partition, a migration key asked for, agreed on under the identity key that the argument names, and retired. Whether an
exporting wafer authenticates is a free value (log 13). R14: a header format that is not reported is a bad argument.
R411, R413 to R415: the messages of a session complete. (Header layout and key numbers: log 13.) -/
def Obligations.KeyCommands : Prop :=
  ∀ (s : State) (p : Nat) (area : BitVec 64),
    let a := hostLoc (areaOf12 area)
    let ended := fun (st : Nat) => { s with km := { s.km with seq := (s.km.seq + 1) % 2 ^ 32, busy := false, status := st } }
    let done := fun (t : State) (st : Nat) => t.km.status = st ∧ t.km.busy = false ∧ t.km.seq = (s.km.seq + 1) % 2 ^ 32
    let busyAll := fun (t : State) (c : Cmd) => t.fwHold = true ∧ t.km = { s.km with busy := true } ∧
      ∀ k P, s.parts.look k = some P → ∃ P', t.parts.look k = some P' ∧ P'.stopped = true ∧ c ∈ P'.pend ∧ P.pend <+: P'.pend
    (s.km.busy = true → ∀ i, (i = .bindFabricImport p area ∨ (∃ ok, i = .stageFirmware area ok) ∨ i = .activateFirmware ∨ i = .discardStaged ∨
        (∃ ok, i = .lifeCycleTransition area ok) ∨ i = .establishMigrationKey p area ∨ i = .retireMigrationKey p) →
      Does i s (fun t => t = { s with km := { s.km with drop := true } })) ∧
    (s.km.busy = false →
      (s.parts.look p = none → Does (.bindFabricImport p area) s (fun t => t = ended 8) ∧
        Does (.establishMigrationKey p area) s (fun t => t = ended 8)) ∧
      (∀ P, s.parts.look p = some P →
        let i := (s.byteAt a).toNat
        (64 ≤ i ∨ bitN (P.imports.lookD 0 i).toNat 15 = false → Does (.bindFabricImport p area) s (fun t => t = ended 6)) ∧
        (i < 64 → bitN (P.imports.lookD 0 i).toNat 15 = true →
          ((P.bound.look i).isSome = true → Does (.bindFabricImport p area) s (fun t => t = ended 0)) ∧
          (P.bound.look i = none → 256 ≤ s.keySlots → Does (.bindFabricImport p area) s (fun t => t = ended 5)) ∧
          (P.bound.look i = none → s.keySlots < 256 → Does (.bindFabricImport p area) s (fun t => t.mem = s.mem ∧
            (Config.verifies s.fresh = true → done t 0 ∧ t.keySlots = s.keySlots + 1 ∧ t.nextKey = s.nextKey + 1 ∧
              ∃ P', t.parts.look p = some P' ∧ P' = { P with bound := P'.bound } ∧ P'.bound.look i = some s.nextKey ∧
                ∀ j, j ≠ i → P'.bound.look j = P.bound.look j) ∧
            (Config.verifies s.fresh = false → done t 1 ∧ t.keySlots = s.keySlots ∧ t.parts.look p = some P)))) ∧
        let arg := s.readBytes a 4096
        (migStatus s p P arg ≠ 0 → Does (.establishMigrationKey p area) s (fun t => t = ended (migStatus s p P arg))) ∧
        (migStatus s p P arg = 0 → P.migWait = none → Does (.establishMigrationKey p area) s (fun t => t.km = { s.km with busy := true } ∧
          t.keySlots = s.keySlots - (if P.migKey.isSome then 1 else 0) + 1 ∧ t.mem = s.mem ∧ (byteOf arg 0 = 1 → ∃ b, t.out = .bytes b :: s.out) ∧ ∃ P', t.parts.look p = some P' ∧
          P' = { P with migKey := none, migWait := some (byteOf arg 0, (arg.drop 8).take 48, byteOf arg 56) })) ∧
        (P.migWait = none → Does (.retireMigrationKey p) s (fun t => done t 0 ∧ t.keySlots = s.keySlots - (if P.migKey.isSome then 1 else 0) ∧
          ∃ P', t.parts.look p = some P' ∧ P' = { P with migKey := none }))) ∧
      let h := s.readBytes a 96
      Does (.stageFirmware area false) s (fun t => t = ended 1) ∧
      Does (.stageFirmware area true) s (fun t =>
        if fieldOf h 0 4 ≠ Config.firmwareFormat.toNat then t = ended 6
        else if fieldOf h 4 4 < s.fused then t = ended 2
        else done t 0 ∧ t.staged = fieldOf h 4 4 ∧ t.stagedDigest = (h.drop 16).take 48 ∧ t.mem = s.mem ∧
          ∀ k P, s.parts.look k = some P → t.parts.look k = some { P with fwAck := none }) ∧
      Does .discardStaged s (fun t => t = { (ended 0) with staged := 0, stagedDigest := [] }) ∧
      (activateStatus s ≠ 0 → Does .activateFirmware s (fun t => t = ended (activateStatus s))) ∧
      (activateStatus s = 0 → s.parts ≠ [] → Does .activateFirmware s (fun t => busyAll t .activate ∧ t.active = s.active)) ∧
      (activateStatus s = 0 → s.parts = [] → s.heldCmds = [] → Does .activateFirmware s (fun t => done t 0 ∧ t.active = s.stagedDigest ∧ t.activeSvn = s.staged ∧
        t.prev = (s.active, s.activeSvn) ∧ t.fused = max s.fused s.staged ∧ t.staged = 0 ∧ t.stagedDigest = [] ∧ t.fwHold = false)) ∧
      (3 ≤ s.lcs → ∀ ok, Does (.lifeCycleTransition area ok) s (fun t => t = ended 7)) ∧
      (s.lcs < 3 → Does (.lifeCycleTransition area false) s (fun t => t = ended 1)) ∧
      (s.lcs < 3 → s.parts ≠ [] → Does (.lifeCycleTransition area true) s (fun t => busyAll t .lifeCycle ∧ t.lcs = s.lcs)) ∧
      (s.lcs < 3 → s.parts = [] → s.heldCmds = [] → Does (.lifeCycleTransition area true) s (fun t =>
        t.km.status = 0 ∧ t.km.busy = false ∧ t.km.seq = 1 ∧ t.lcs = s.lcs + 1 ∧
        t.identity = (if s.lcs = 0 then true else if s.lcs = 2 then false else s.identity) ∧ ∀ l, l < 2 ^ 64 → t.byteAt l = 0))) ∧
    (∀ P, s.parts.look p = some P → P.session = true →
      (s.fwHold = false →
        (P.tdi = .unlocked → Does (.lockInterfaceRequest ⟨p, 0x10⟩) s (fun t => ∃ P', t.parts.look p = some P' ∧ P'.tdi = .locked)) ∧
        (P.tdi = .locked → Does (.startInterfaceRequest ⟨p, 0x10⟩) s (fun t => ∃ P', t.parts.look p = some P' ∧ P'.tdi = .run)) ∧
        (P.tdi = .error → Does (.stopInterfaceRequest ⟨p, 0x10⟩) s (fun t => ∃ P', t.parts.look p = some P' ∧ P'.tdi = .unlocked))) ∧
      (∀ dig, Does (.fwAck ⟨p, 0x13⟩ dig) s (fun t => ∃ P', t.parts.look p = some P' ∧ P'.fwAck = some dig)) ∧
      ∀ key, portsQuiet s p P (.ide key) = true → Does (.ideKmKeyProg ⟨p, 0x13⟩ key) s (fun t =>
        ∃ P', t.parts.look p = some P' ∧ P'.ideKey = some key)) ∧
    (∀ k, signKey s p = some k →
      Does (.keyExchange ⟨p, 0x13⟩) s (fun t => ∀ P, s.parts.look p = some P → ∃ P', t.parts.look p = some P' ∧ P'.session = true) ∧
      (∀ nonce, Does (.challenge ⟨p, 0x13⟩ nonce) s (fun t => ∃ b, t = { s with out := .bytes b :: s.out })) ∧
      ∀ i raw, (measured s p i).isSome = true → Does (.getMeasurements ⟨p, 0x13⟩ i raw) s (fun t => ∃ b, t = { s with out := .bytes b :: s.out })) ∧
    ∀ P w, s.parts.look p = some P → P.migWait = some w →
      Does (.migrationKeyMessage ⟨p, 0x13⟩ (some w.2.1)) s (fun t => done t 0 ∧ t.nextKey = s.nextKey + 1 ∧
        (w.1 = 0 → ∃ b, t.out = .bytes b :: s.out) ∧ ∃ P', t.parts.look p = some P' ∧
        P'.migWait = none ∧ P'.migKey = some (migNumber s w.1 w.2.2)) ∧
      ∀ peer, peer ≠ some w.2.1 → Does (.migrationKeyMessage ⟨p, 0x13⟩ peer) s (fun t => done t 1 ∧ t.keySlots = s.keySlots - 1 ∧
        ∃ P', t.parts.look p = some P' ∧ P' = { P with migWait := none })

/-- R410, R422, R423: a periodic record for each partition goes to its rings; a CI that stands in range frees the entries it passes,
and one out of range is ignored; the host reads a register, reads and writes its own memory, and the bytes of the module's memory at
home, where a reshape, an earlier request that waits, or what holds an access, holds it. R400, R401: so does an accepted request from another wafer. (Register
addresses: log 12.) -/
def Obligations.RingsAndHostAccesses : Prop :=
  (∀ (s : State) (p : Nat) (P : Part), s.parts.look p = some P →
    Does .usageRecordPeriodic s (fun t => t.groups = s.groups ∧ ∃ P', t.parts.look p = some P' ∧ P.useSeq < P'.useSeq ∧
      P' = { P with useSeq := P'.useSeq, usePrev := P'.usePrev, usagePf := P'.usagePf, usageVf := P'.usageVf }) ∧
    (s.parts = [(p, P)] → P.usagePf.en = true → P.usagePf.room = true → P.usagePf.held = [] → P.usageVf.en = false →
      let head := withLost (usageHead s p P 1 0) P.usagePf.lost
      Does .usageRecordPeriodic s (fun t =>
      t.readBytes (hostLoc (P.usagePf.base + 64 + 4096 * (P.usagePf.pi % P.usagePf.entries))) 3456 =
        padTo 3456 (signedUsage P.attKey (match P.usagePf.last with
          | some (n, d) => if n + 1 = P.useSeq % 2 ^ 64 then head.take 80 ++ d ++ head.drop 128 else head
          | none => head)) ∧
      ∃ P', t.parts.look p = some P' ∧ P'.usagePf.pi = (P.usagePf.pi + 1) % 2 ^ 32 ∧ P'.useSeq = P.useSeq + 1)) ∧
    ∀ ci : BitVec 32,
      let moved := fun (ring : RingId) (r : Ring) (f : Ring → Part) =>
        (diff32 r.pi r.ci < diff32 ci.toNat r.ci → Does (.ringCiWrite p ring ci) s (fun t => OnlyPart s t p P P)) ∧
        (diff32 ci.toNat r.ci ≤ diff32 r.pi r.ci → r.held = [] → r.lost = 0 → Does (.ringCiWrite p ring ci) s (fun t =>
          OnlyPart s t p P (f { r with ci := ci.toNat })))
      moved .usagePf P.usagePf (fun r => { P with usagePf := r }) ∧ moved .usageVf P.usageVf (fun r => { P with usageVf := r }) ∧
      moved .eventPf P.eventPf (fun r => { P with eventPf := r }) ∧ moved .eventVf P.eventVf (fun r => { P with eventVf := r })) ∧
  (∀ (s : State) (p : Nat) (ci : BitVec 32),
    (diff32 s.devRing.pi s.devRing.ci < diff32 ci.toNat s.devRing.ci → Does (.ringCiWrite p .device ci) s (fun t => t = s)) ∧
    (diff32 ci.toNat s.devRing.ci ≤ diff32 s.devRing.pi s.devRing.ci → s.devRing.held = [] → s.devRing.lost = 0 →
      Does (.ringCiWrite p .device ci) s (fun t => t = { s with devRing := { s.devRing with ci := ci.toNat } }))) ∧
  ∀ (s : State) (pa n : Nat),
    (2 ^ 47 ≤ pa → Does (.hostMemoryAccess pa none n) s (fun t => t = { s with out := (match regRead s (regOf pa).1 (regOf pa).2.1 (regOf pa).2.2 with
      | some v => .value v | none => .refusal) :: s.out })) ∧
    (spaceOf pa = 2 → ∀ w, Does (.hostMemoryAccess pa w n) s (fun t => t = { s with out := .refusal :: s.out })) ∧
    (spaceOf pa = 3 → Does (.hostMemoryAccess pa none n) s (fun t => t = { s with out := .bytes (s.readBytes (hostLoc (pa % 2 ^ 45)) n) :: s.out }) ∧
      ∀ bs, Does (.hostMemoryAccess pa (some bs) n) s (fun t => t = s.writeBytes (hostLoc (pa % 2 ^ 45)) bs)) ∧
    (spaceOf pa < 2 →
      let wrote := fun (t : State) (bs : List Byte) => s.still → (∀ j, j < bs.length → spaceOf (pa + j) < 2 ∧ mapped s (pa + j) = false) →
        (∀ j (q : j < bs.length), t.byteAt (pa + j) = bs[j]) ∧ ∀ l, l < pa ∨ pa + bs.length ≤ l → t.byteAt l = s.byteAt l
      let gave := fun (t : State) => s.still → (∀ j, j < n → spaceOf (pa + j) < 2 ∧ mapped s (pa + j) = false ∧ s.isPoisoned (pa + j) = false) →
        t.mem = s.mem ∧ t.out = .bytes ((List.range n).map (fun j => s.byteAt (pa + j))) :: s.out
      (ownerOf s pa = none → (∀ bs, Does (.hostMemoryAccess pa (some bs) n) s (fun t => wrote t bs)) ∧ Does (.hostMemoryAccess pa none n) s gave) ∧
      ∀ p P w, ownerOf s pa = some p → s.parts.look p = some P →
        (P.pend.any Cmd.isReshape = true ∨ hostBehind P (.host pa w n) = true → Does (.hostMemoryAccess pa w n) s (fun t => t = holdReq s p (.host pa w n))) ∧
        (P.pend.any Cmd.isReshape = false → hostBehind P (.host pa w n) = false → ∀ s1 go, claimRange s (.req (.host pa w n)) 1024 pa ((w.map List.length).getD n) w.isSome false = (s1, go) →
          Does (.hostMemoryAccess pa w n) s (fun t => (go = false → t = holdReq s1 p (.host pa w n)) ∧
            (go = true → (∀ bs, w = some bs → wrote t bs) ∧ (w = none → gave t))))) ∧
    ∀ part wafer sp h (off : BitVec 33) op s2 q, fabricLands s part wafer sp h off.toNat op q s2 → s2.still →
      (∀ j, j < fabSize op → spaceOf (q + j) < 2 ∧ mapped s2 (q + j) = false ∧ s2.isPoisoned (q + j) = false) →
      (∀ m, op = .read m → Does (.fabricRequest part wafer sp h off op) s (fun t => t.out.head? = some (.bytes ((List.range m).map (fun j => s2.byteAt (q + j)))))) ∧
      (∀ bs, op = .write bs → Does (.fabricRequest part wafer sp h off op) s (fun t => ∀ j (k : j < bs.length), t.byteAt (q + j) = bs[j]))

/-- R12, R408 and the register tables of 14 to 20: a write of a register that has no event of its own keeps the defined bits and
clamps what the spec clamps; a stage-2 command while one runs is dropped; a locked register in CONFIG_LOCKED or RUN moves the interface to ERROR; the block of an absent
partition ignores writes. R427, R8: an inlet above 45 °C or a junction above 110 °C trips the module, and so does power above the
limit at the lowest clock; the cause is recorded, and no step goes on until a reset. The clock moves only within its range. -/
def Obligations.RegisterWritesAndTrips : Prop :=
  (∀ (s : State) (p : Nat) (v : BitVec 64),
     let n := v.toNat
     Does (.registerWrite .dm p 0x1028 v) s (fun t => t = { s with pwrlim := max 10000 (min 28000 (n % 2 ^ 16)) }) ∧
     (s.frames = [] → Does (.registerWrite .dm p 0x1020 v) s (fun t => t = { s with mpool := n % 2 ^ 32 })) ∧
     (s.frames ≠ [] → Does (.registerWrite .dm p 0x1020 v) s (fun t => t = s)) ∧
     (s.parts.look p = none → ∀ off, Does (.registerWrite .pf p off v) s (fun t => t = s) ∧ Does (.registerWrite .vf p off v) s (fun t => t = s)) ∧
     ∀ P, s.parts.look p = some P →
       let only := fun (off : Nat) (P' : Part) => Does (.registerWrite .pf p off v) s (fun t => OnlyPart s t p P P')
       (regLocked P = true → ∀ off, lockedOff off = true → Does (.registerWrite .pf p off v) s (fun t =>
         ∃ P', t.parts.look p = some P' ∧ P'.tdi = .error ∧ P'.pcarve = P.pcarve ∧ P'.guar = P.guar ∧ P'.s2root = P.s2root ∧ P'.fwin = P.fwin)) ∧
       (regLocked P = false →
         (let c := (min 48 (bitsN n 23 16), min 88 (bitsN n 15 8), min 76 (bitsN n 7 0))
          Does (.registerWrite .pf p 0x040 v) s (fun t => t.groups = s.groups ∧ t.launches = s.launches ∧
            (∃ P', t.parts.look p = some P' ∧ P' = { P with pcarve := c, dirty := P'.dirty }) ∧
            ∀ k ∈ P.tiles, s.launches.any (fun e => e.2.slots.any (fun q => q.1 == k)) = false → (t.tileAt k).carve = c)) ∧
         only 0x060 { P with maxcls := bitsN n 9 8, wdlog := max 16 (min 31 (bitsN n 4 0)) } ∧
         only 0x080 { P with s2root := bitsN n 47 12 * 4096 } ∧
         only 0x120 { P with fwin := v &&& 0xE00000000001 }) ∧
       only 0x0A0 { P with fqbase := n / 4096 * 4096 } ∧
       only 0x0A8 { P with fqen := bitN n 4, fqsz := min 8 (bitsN n 3 0) } ∧
       only 0x0D0 { P with nqbase := n / 4096 * 4096 } ∧
       only 0x0F0 { P with acthr := n % 2 ^ 16 } ∧
       only 0x108 { P with weight := if n % 256 = 0 then 1 else n % 256 } ∧
       only 0xC08 { P with impseq := n } ∧
       (let w := v &&& 0xFFFFFFFF007F3F01
        fabricResident s p = false →
          (bitsN w.toNat 63 32 = bitsN P.fjob.toNat 63 32 → only 0x128 { P with fjob := w }) ∧
          (bitsN w.toNat 63 32 ≠ bitsN P.fjob.toNat 63 32 → only 0x128 { P with fjob := w, fabLaunches := 0, fabEnded := [], symbols := [] })) ∧
       (fabricResident s p = true → Does (.registerWrite .pf p 0x128 v) s (fun t => t = s)) ∧
       (P.usageVf.held = [] → Does (.registerWrite .vf p 0x500 v) s (fun t => OnlyPart s t p P { P with usageVf := { P.usageVf with base := n / 4096 * 4096 } })) ∧
       (p < 64 → P.s2busy = true → ∀ bs m, Does (.hostMemoryAccess (2 ^ 47 + 2 ^ 40 * (p / 16) + 0x100000 + 0x10000 * (p % 16) + 0x088) (some bs) m) s (fun t =>
         OnlyPart s t p P { P with s2drop := true })) ∧
       (regLocked P = false →
         Does (.tvecWrite p v) s (fun t => OnlyPart s t p P { P with tvec := n / 4 * 4 }) ∧
         ∀ h second, h < 64 → bitN (P.export h false) 0 = false → (second = false → v.getLsbD 0 = true → handleTaken s p h = false) →
           Does (.exportHandleWrite p h second v) s (fun t => ∃ P', OnlyPart s t p P P' ∧
             P'.exports.lookD 0 (2 * h + second.toNat) = v &&& (if second then 0x7F3F0003FFFF else 0xFFFFFFFF0007)))) ∧
  ((∀ (s : State) (c : Nat), c = 1 ∨ c = 2 → Does (.thermalTrip c) s (fun t => t = { s with trip := c, tripped := true, cur := none })) ∧
   (∀ s : State, s.mhz = 875 → Does .powerTripTimeout s (fun t => t = { s with trip := 3, tripped := true, cur := none })) ∧
   (∀ s : State, s.mhz ≠ 875 → Does .powerTripTimeout s (fun t => t = s)) ∧
   (∀ (s : State) (f : Nat), 875 ≤ f → f ≤ 1750 → Does (.clockThrottle f) s (fun t => t = { s with mhz := f })) ∧
   ∀ s : State, s.tripped = true → s.agenda.head? ≠ some (.event .moduleReset) → step s = .fault .heldInReset)
end

