-- ==== Sys2Proof/Laws/State.lean ====
section
/-!
SUPPORT. One equation per field of the state, of a group and of a lane under each of the plain updates of Machine/Ops.lean, so
that no proof unfolds a record update.
-/

namespace Sys2Proof.Machine

/-! ### A group set -/

@[simp] theorem State.setGroup_clock (x : State) (g : Nat) (G : Group) : (x.setGroup g G).clock = x.clock := rfl
@[simp] theorem State.setGroup_mem (x : State) (g : Nat) (G : Group) : (x.setGroup g G).mem = x.mem := rfl
@[simp] theorem State.setGroup_poison (x : State) (g : Nat) (G : Group) : (x.setGroup g G).poison = x.poison := rfl
@[simp] theorem State.setGroup_groups (x : State) (g : Nat) (G : Group) : (x.setGroup g G).groups = x.groups.setAt g G := rfl
@[simp] theorem State.setGroup_launches (x : State) (g : Nat) (G : Group) : (x.setGroup g G).launches = x.launches := rfl
@[simp] theorem State.setGroup_ops (x : State) (g : Nat) (G : Group) : (x.setGroup g G).ops = x.ops := rfl
@[simp] theorem State.setGroup_calls (x : State) (g : Nat) (G : Group) : (x.setGroup g G).calls = x.calls := rfl
@[simp] theorem State.setGroup_cores (x : State) (g : Nat) (G : Group) : (x.setGroup g G).cores = x.cores := rfl
@[simp] theorem State.setGroup_tiles (x : State) (g : Nat) (G : Group) : (x.setGroup g G).tiles = x.tiles := rfl
@[simp] theorem State.setGroup_parts (x : State) (g : Nat) (G : Group) : (x.setGroup g G).parts = x.parts := rfl
@[simp] theorem State.setGroup_classes (x : State) (g : Nat) (G : Group) : (x.setGroup g G).classes = x.classes := rfl
@[simp] theorem State.setGroup_dir (x : State) (g : Nat) (G : Group) : (x.setGroup g G).dir = x.dir := rfl
@[simp] theorem State.setGroup_ports (x : State) (g : Nat) (G : Group) : (x.setGroup g G).ports = x.ports := rfl
@[simp] theorem State.setGroup_routes (x : State) (g : Nat) (G : Group) : (x.setGroup g G).routes = x.routes := rfl
@[simp] theorem State.setGroup_waferid (x : State) (g : Nat) (G : Group) : (x.setGroup g G).waferid = x.waferid := rfl
@[simp] theorem State.setGroup_dm (x : State) (g : Nat) (G : Group) : (x.setGroup g G).dm = x.dm := rfl
@[simp] theorem State.setGroup_km (x : State) (g : Nat) (G : Group) : (x.setGroup g G).km = x.km := rfl
@[simp] theorem State.setGroup_staged (x : State) (g : Nat) (G : Group) : (x.setGroup g G).staged = x.staged := rfl
@[simp] theorem State.setGroup_stagedDigest (x : State) (g : Nat) (G : Group) : (x.setGroup g G).stagedDigest = x.stagedDigest := rfl
@[simp] theorem State.setGroup_fused (x : State) (g : Nat) (G : Group) : (x.setGroup g G).fused = x.fused := rfl
@[simp] theorem State.setGroup_active (x : State) (g : Nat) (G : Group) : (x.setGroup g G).active = x.active := rfl
@[simp] theorem State.setGroup_lcs (x : State) (g : Nat) (G : Group) : (x.setGroup g G).lcs = x.lcs := rfl
@[simp] theorem State.setGroup_identity (x : State) (g : Nat) (G : Group) : (x.setGroup g G).identity = x.identity := rfl
@[simp] theorem State.setGroup_mpool (x : State) (g : Nat) (G : Group) : (x.setGroup g G).mpool = x.mpool := rfl
@[simp] theorem State.setGroup_pwrlim (x : State) (g : Nat) (G : Group) : (x.setGroup g G).pwrlim = x.pwrlim := rfl
@[simp] theorem State.setGroup_trip (x : State) (g : Nat) (G : Group) : (x.setGroup g G).trip = x.trip := rfl
@[simp] theorem State.setGroup_tripped (x : State) (g : Nat) (G : Group) : (x.setGroup g G).tripped = x.tripped := rfl
@[simp] theorem State.setGroup_mhz (x : State) (g : Nat) (G : Group) : (x.setGroup g G).mhz = x.mhz := rfl
@[simp] theorem State.setGroup_keySlots (x : State) (g : Nat) (G : Group) : (x.setGroup g G).keySlots = x.keySlots := rfl
@[simp] theorem State.setGroup_nextKey (x : State) (g : Nat) (G : Group) : (x.setGroup g G).nextKey = x.nextKey := rfl
@[simp] theorem State.setGroup_frames (x : State) (g : Nat) (G : Group) : (x.setGroup g G).frames = x.frames := rfl
@[simp] theorem State.setGroup_images (x : State) (g : Nat) (G : Group) : (x.setGroup g G).images = x.images := rfl
@[simp] theorem State.setGroup_exportsOut (x : State) (g : Nat) (G : Group) : (x.setGroup g G).exportsOut = x.exportsOut := rfl
@[simp] theorem State.setGroup_devRing (x : State) (g : Nat) (G : Group) : (x.setGroup g G).devRing = x.devRing := rfl
@[simp] theorem State.setGroup_devSeq (x : State) (g : Nat) (G : Group) : (x.setGroup g G).devSeq = x.devSeq := rfl
@[simp] theorem State.setGroup_devLog (x : State) (g : Nat) (G : Group) : (x.setGroup g G).devLog = x.devLog := rfl
@[simp] theorem State.setGroup_damson (x : State) (g : Nat) (G : Group) : (x.setGroup g G).damson = x.damson := rfl
@[simp] theorem State.setGroup_edges (x : State) (g : Nat) (G : Group) : (x.setGroup g G).edges = x.edges := rfl
@[simp] theorem State.setGroup_fwHold (x : State) (g : Nat) (G : Group) : (x.setGroup g G).fwHold = x.fwHold := rfl
@[simp] theorem State.setGroup_heldCmds (x : State) (g : Nat) (G : Group) : (x.setGroup g G).heldCmds = x.heldCmds := rfl
@[simp] theorem State.setGroup_arrivals (x : State) (g : Nat) (G : Group) : (x.setGroup g G).arrivals = x.arrivals := rfl
@[simp] theorem State.setGroup_activeSvn (x : State) (g : Nat) (G : Group) : (x.setGroup g G).activeSvn = x.activeSvn := rfl
@[simp] theorem State.setGroup_prev (x : State) (g : Nat) (G : Group) : (x.setGroup g G).prev = x.prev := rfl
@[simp] theorem State.setGroup_out (x : State) (g : Nat) (G : Group) : (x.setGroup g G).out = x.out := rfl
@[simp] theorem State.setGroup_agenda (x : State) (g : Nat) (G : Group) : (x.setGroup g G).agenda = x.agenda := rfl
@[simp] theorem State.setGroup_cursor (x : State) (g : Nat) (G : Group) : (x.setGroup g G).cursor = x.cursor := rfl
@[simp] theorem State.setGroup_cur (x : State) (g : Nat) (G : Group) : (x.setGroup g G).cur = x.cur := rfl
@[simp] theorem State.setGroup_fresh (x : State) (g : Nat) (G : Group) : (x.setGroup g G).fresh = x.fresh := rfl
@[simp] theorem State.setGroup_nextId (x : State) (g : Nat) (G : Group) : (x.setGroup g G).nextId = x.nextId := rfl

/-! ### A tile set -/

@[simp] theorem State.setTile_clock (x : State) (t : Nat) (y : Tile) : (x.setTile t y).clock = x.clock := rfl
@[simp] theorem State.setTile_mem (x : State) (t : Nat) (y : Tile) : (x.setTile t y).mem = x.mem := rfl
@[simp] theorem State.setTile_poison (x : State) (t : Nat) (y : Tile) : (x.setTile t y).poison = x.poison := rfl
@[simp] theorem State.setTile_groups (x : State) (t : Nat) (y : Tile) : (x.setTile t y).groups = x.groups := rfl
@[simp] theorem State.setTile_launches (x : State) (t : Nat) (y : Tile) : (x.setTile t y).launches = x.launches := rfl
@[simp] theorem State.setTile_ops (x : State) (t : Nat) (y : Tile) : (x.setTile t y).ops = x.ops := rfl
@[simp] theorem State.setTile_calls (x : State) (t : Nat) (y : Tile) : (x.setTile t y).calls = x.calls := rfl
@[simp] theorem State.setTile_cores (x : State) (t : Nat) (y : Tile) : (x.setTile t y).cores = x.cores := rfl
@[simp] theorem State.setTile_tiles (x : State) (t : Nat) (y : Tile) : (x.setTile t y).tiles = x.tiles.setAt t y := rfl
@[simp] theorem State.setTile_parts (x : State) (t : Nat) (y : Tile) : (x.setTile t y).parts = x.parts := rfl
@[simp] theorem State.setTile_classes (x : State) (t : Nat) (y : Tile) : (x.setTile t y).classes = x.classes := rfl
@[simp] theorem State.setTile_dir (x : State) (t : Nat) (y : Tile) : (x.setTile t y).dir = x.dir := rfl
@[simp] theorem State.setTile_ports (x : State) (t : Nat) (y : Tile) : (x.setTile t y).ports = x.ports := rfl
@[simp] theorem State.setTile_routes (x : State) (t : Nat) (y : Tile) : (x.setTile t y).routes = x.routes := rfl
@[simp] theorem State.setTile_waferid (x : State) (t : Nat) (y : Tile) : (x.setTile t y).waferid = x.waferid := rfl
@[simp] theorem State.setTile_dm (x : State) (t : Nat) (y : Tile) : (x.setTile t y).dm = x.dm := rfl
@[simp] theorem State.setTile_km (x : State) (t : Nat) (y : Tile) : (x.setTile t y).km = x.km := rfl
@[simp] theorem State.setTile_staged (x : State) (t : Nat) (y : Tile) : (x.setTile t y).staged = x.staged := rfl
@[simp] theorem State.setTile_stagedDigest (x : State) (t : Nat) (y : Tile) : (x.setTile t y).stagedDigest = x.stagedDigest := rfl
@[simp] theorem State.setTile_fused (x : State) (t : Nat) (y : Tile) : (x.setTile t y).fused = x.fused := rfl
@[simp] theorem State.setTile_active (x : State) (t : Nat) (y : Tile) : (x.setTile t y).active = x.active := rfl
@[simp] theorem State.setTile_lcs (x : State) (t : Nat) (y : Tile) : (x.setTile t y).lcs = x.lcs := rfl
@[simp] theorem State.setTile_identity (x : State) (t : Nat) (y : Tile) : (x.setTile t y).identity = x.identity := rfl
@[simp] theorem State.setTile_mpool (x : State) (t : Nat) (y : Tile) : (x.setTile t y).mpool = x.mpool := rfl
@[simp] theorem State.setTile_pwrlim (x : State) (t : Nat) (y : Tile) : (x.setTile t y).pwrlim = x.pwrlim := rfl
@[simp] theorem State.setTile_trip (x : State) (t : Nat) (y : Tile) : (x.setTile t y).trip = x.trip := rfl
@[simp] theorem State.setTile_tripped (x : State) (t : Nat) (y : Tile) : (x.setTile t y).tripped = x.tripped := rfl
@[simp] theorem State.setTile_mhz (x : State) (t : Nat) (y : Tile) : (x.setTile t y).mhz = x.mhz := rfl
@[simp] theorem State.setTile_keySlots (x : State) (t : Nat) (y : Tile) : (x.setTile t y).keySlots = x.keySlots := rfl
@[simp] theorem State.setTile_nextKey (x : State) (t : Nat) (y : Tile) : (x.setTile t y).nextKey = x.nextKey := rfl
@[simp] theorem State.setTile_frames (x : State) (t : Nat) (y : Tile) : (x.setTile t y).frames = x.frames := rfl
@[simp] theorem State.setTile_images (x : State) (t : Nat) (y : Tile) : (x.setTile t y).images = x.images := rfl
@[simp] theorem State.setTile_exportsOut (x : State) (t : Nat) (y : Tile) : (x.setTile t y).exportsOut = x.exportsOut := rfl
@[simp] theorem State.setTile_devRing (x : State) (t : Nat) (y : Tile) : (x.setTile t y).devRing = x.devRing := rfl
@[simp] theorem State.setTile_devSeq (x : State) (t : Nat) (y : Tile) : (x.setTile t y).devSeq = x.devSeq := rfl
@[simp] theorem State.setTile_devLog (x : State) (t : Nat) (y : Tile) : (x.setTile t y).devLog = x.devLog := rfl
@[simp] theorem State.setTile_damson (x : State) (t : Nat) (y : Tile) : (x.setTile t y).damson = x.damson := rfl
@[simp] theorem State.setTile_edges (x : State) (t : Nat) (y : Tile) : (x.setTile t y).edges = x.edges := rfl
@[simp] theorem State.setTile_fwHold (x : State) (t : Nat) (y : Tile) : (x.setTile t y).fwHold = x.fwHold := rfl
@[simp] theorem State.setTile_heldCmds (x : State) (t : Nat) (y : Tile) : (x.setTile t y).heldCmds = x.heldCmds := rfl
@[simp] theorem State.setTile_arrivals (x : State) (t : Nat) (y : Tile) : (x.setTile t y).arrivals = x.arrivals := rfl
@[simp] theorem State.setTile_activeSvn (x : State) (t : Nat) (y : Tile) : (x.setTile t y).activeSvn = x.activeSvn := rfl
@[simp] theorem State.setTile_prev (x : State) (t : Nat) (y : Tile) : (x.setTile t y).prev = x.prev := rfl
@[simp] theorem State.setTile_out (x : State) (t : Nat) (y : Tile) : (x.setTile t y).out = x.out := rfl
@[simp] theorem State.setTile_agenda (x : State) (t : Nat) (y : Tile) : (x.setTile t y).agenda = x.agenda := rfl
@[simp] theorem State.setTile_cursor (x : State) (t : Nat) (y : Tile) : (x.setTile t y).cursor = x.cursor := rfl
@[simp] theorem State.setTile_cur (x : State) (t : Nat) (y : Tile) : (x.setTile t y).cur = x.cur := rfl
@[simp] theorem State.setTile_fresh (x : State) (t : Nat) (y : Tile) : (x.setTile t y).fresh = x.fresh := rfl
@[simp] theorem State.setTile_nextId (x : State) (t : Nat) (y : Tile) : (x.setTile t y).nextId = x.nextId := rfl

/-! ### A core set -/

@[simp] theorem State.setCore_clock (x : State) (t k : Nat) (c : Core) : (x.setCore t k c).clock = x.clock := rfl
@[simp] theorem State.setCore_mem (x : State) (t k : Nat) (c : Core) : (x.setCore t k c).mem = x.mem := rfl
@[simp] theorem State.setCore_poison (x : State) (t k : Nat) (c : Core) : (x.setCore t k c).poison = x.poison := rfl
@[simp] theorem State.setCore_groups (x : State) (t k : Nat) (c : Core) : (x.setCore t k c).groups = x.groups := rfl
@[simp] theorem State.setCore_launches (x : State) (t k : Nat) (c : Core) : (x.setCore t k c).launches = x.launches := rfl
@[simp] theorem State.setCore_ops (x : State) (t k : Nat) (c : Core) : (x.setCore t k c).ops = x.ops := rfl
@[simp] theorem State.setCore_calls (x : State) (t k : Nat) (c : Core) : (x.setCore t k c).calls = x.calls := rfl
@[simp] theorem State.setCore_cores (x : State) (t k : Nat) (c : Core) : (x.setCore t k c).cores = x.cores.setAt (4 * t + k) c := rfl
@[simp] theorem State.setCore_tiles (x : State) (t k : Nat) (c : Core) : (x.setCore t k c).tiles = x.tiles := rfl
@[simp] theorem State.setCore_parts (x : State) (t k : Nat) (c : Core) : (x.setCore t k c).parts = x.parts := rfl
@[simp] theorem State.setCore_classes (x : State) (t k : Nat) (c : Core) : (x.setCore t k c).classes = x.classes := rfl
@[simp] theorem State.setCore_dir (x : State) (t k : Nat) (c : Core) : (x.setCore t k c).dir = x.dir := rfl
@[simp] theorem State.setCore_ports (x : State) (t k : Nat) (c : Core) : (x.setCore t k c).ports = x.ports := rfl
@[simp] theorem State.setCore_routes (x : State) (t k : Nat) (c : Core) : (x.setCore t k c).routes = x.routes := rfl
@[simp] theorem State.setCore_waferid (x : State) (t k : Nat) (c : Core) : (x.setCore t k c).waferid = x.waferid := rfl
@[simp] theorem State.setCore_dm (x : State) (t k : Nat) (c : Core) : (x.setCore t k c).dm = x.dm := rfl
@[simp] theorem State.setCore_km (x : State) (t k : Nat) (c : Core) : (x.setCore t k c).km = x.km := rfl
@[simp] theorem State.setCore_staged (x : State) (t k : Nat) (c : Core) : (x.setCore t k c).staged = x.staged := rfl
@[simp] theorem State.setCore_stagedDigest (x : State) (t k : Nat) (c : Core) : (x.setCore t k c).stagedDigest = x.stagedDigest := rfl
@[simp] theorem State.setCore_fused (x : State) (t k : Nat) (c : Core) : (x.setCore t k c).fused = x.fused := rfl
@[simp] theorem State.setCore_active (x : State) (t k : Nat) (c : Core) : (x.setCore t k c).active = x.active := rfl
@[simp] theorem State.setCore_lcs (x : State) (t k : Nat) (c : Core) : (x.setCore t k c).lcs = x.lcs := rfl
@[simp] theorem State.setCore_identity (x : State) (t k : Nat) (c : Core) : (x.setCore t k c).identity = x.identity := rfl
@[simp] theorem State.setCore_mpool (x : State) (t k : Nat) (c : Core) : (x.setCore t k c).mpool = x.mpool := rfl
@[simp] theorem State.setCore_pwrlim (x : State) (t k : Nat) (c : Core) : (x.setCore t k c).pwrlim = x.pwrlim := rfl
@[simp] theorem State.setCore_trip (x : State) (t k : Nat) (c : Core) : (x.setCore t k c).trip = x.trip := rfl
@[simp] theorem State.setCore_tripped (x : State) (t k : Nat) (c : Core) : (x.setCore t k c).tripped = x.tripped := rfl
@[simp] theorem State.setCore_mhz (x : State) (t k : Nat) (c : Core) : (x.setCore t k c).mhz = x.mhz := rfl
@[simp] theorem State.setCore_keySlots (x : State) (t k : Nat) (c : Core) : (x.setCore t k c).keySlots = x.keySlots := rfl
@[simp] theorem State.setCore_nextKey (x : State) (t k : Nat) (c : Core) : (x.setCore t k c).nextKey = x.nextKey := rfl
@[simp] theorem State.setCore_frames (x : State) (t k : Nat) (c : Core) : (x.setCore t k c).frames = x.frames := rfl
@[simp] theorem State.setCore_images (x : State) (t k : Nat) (c : Core) : (x.setCore t k c).images = x.images := rfl
@[simp] theorem State.setCore_exportsOut (x : State) (t k : Nat) (c : Core) : (x.setCore t k c).exportsOut = x.exportsOut := rfl
@[simp] theorem State.setCore_devRing (x : State) (t k : Nat) (c : Core) : (x.setCore t k c).devRing = x.devRing := rfl
@[simp] theorem State.setCore_devSeq (x : State) (t k : Nat) (c : Core) : (x.setCore t k c).devSeq = x.devSeq := rfl
@[simp] theorem State.setCore_devLog (x : State) (t k : Nat) (c : Core) : (x.setCore t k c).devLog = x.devLog := rfl
@[simp] theorem State.setCore_damson (x : State) (t k : Nat) (c : Core) : (x.setCore t k c).damson = x.damson := rfl
@[simp] theorem State.setCore_edges (x : State) (t k : Nat) (c : Core) : (x.setCore t k c).edges = x.edges := rfl
@[simp] theorem State.setCore_fwHold (x : State) (t k : Nat) (c : Core) : (x.setCore t k c).fwHold = x.fwHold := rfl
@[simp] theorem State.setCore_heldCmds (x : State) (t k : Nat) (c : Core) : (x.setCore t k c).heldCmds = x.heldCmds := rfl
@[simp] theorem State.setCore_arrivals (x : State) (t k : Nat) (c : Core) : (x.setCore t k c).arrivals = x.arrivals := rfl
@[simp] theorem State.setCore_activeSvn (x : State) (t k : Nat) (c : Core) : (x.setCore t k c).activeSvn = x.activeSvn := rfl
@[simp] theorem State.setCore_prev (x : State) (t k : Nat) (c : Core) : (x.setCore t k c).prev = x.prev := rfl
@[simp] theorem State.setCore_out (x : State) (t k : Nat) (c : Core) : (x.setCore t k c).out = x.out := rfl
@[simp] theorem State.setCore_agenda (x : State) (t k : Nat) (c : Core) : (x.setCore t k c).agenda = x.agenda := rfl
@[simp] theorem State.setCore_cursor (x : State) (t k : Nat) (c : Core) : (x.setCore t k c).cursor = x.cursor := rfl
@[simp] theorem State.setCore_cur (x : State) (t k : Nat) (c : Core) : (x.setCore t k c).cur = x.cur := rfl
@[simp] theorem State.setCore_fresh (x : State) (t k : Nat) (c : Core) : (x.setCore t k c).fresh = x.fresh := rfl
@[simp] theorem State.setCore_nextId (x : State) (t k : Nat) (c : Core) : (x.setCore t k c).nextId = x.nextId := rfl

/-! ### A byte set -/

@[simp] theorem State.setByte_clock (x : State) (l : Nat) (b : Byte) : (x.setByte l b).clock = x.clock := rfl
@[simp] theorem State.setByte_mem (x : State) (l : Nat) (b : Byte) : (x.setByte l b).mem = FMap.putD x.mem 0 l b := rfl
@[simp] theorem State.setByte_poison (x : State) (l : Nat) (b : Byte) : (x.setByte l b).poison = x.poison := rfl
@[simp] theorem State.setByte_groups (x : State) (l : Nat) (b : Byte) : (x.setByte l b).groups = x.groups := rfl
@[simp] theorem State.setByte_launches (x : State) (l : Nat) (b : Byte) : (x.setByte l b).launches = x.launches := rfl
@[simp] theorem State.setByte_ops (x : State) (l : Nat) (b : Byte) : (x.setByte l b).ops = x.ops := rfl
@[simp] theorem State.setByte_calls (x : State) (l : Nat) (b : Byte) : (x.setByte l b).calls = x.calls := rfl
@[simp] theorem State.setByte_cores (x : State) (l : Nat) (b : Byte) : (x.setByte l b).cores = x.cores := rfl
@[simp] theorem State.setByte_tiles (x : State) (l : Nat) (b : Byte) : (x.setByte l b).tiles = x.tiles := rfl
@[simp] theorem State.setByte_parts (x : State) (l : Nat) (b : Byte) : (x.setByte l b).parts = x.parts := rfl
@[simp] theorem State.setByte_classes (x : State) (l : Nat) (b : Byte) : (x.setByte l b).classes = x.classes := rfl
@[simp] theorem State.setByte_dir (x : State) (l : Nat) (b : Byte) : (x.setByte l b).dir = x.dir := rfl
@[simp] theorem State.setByte_ports (x : State) (l : Nat) (b : Byte) : (x.setByte l b).ports = x.ports := rfl
@[simp] theorem State.setByte_routes (x : State) (l : Nat) (b : Byte) : (x.setByte l b).routes = x.routes := rfl
@[simp] theorem State.setByte_waferid (x : State) (l : Nat) (b : Byte) : (x.setByte l b).waferid = x.waferid := rfl
@[simp] theorem State.setByte_dm (x : State) (l : Nat) (b : Byte) : (x.setByte l b).dm = x.dm := rfl
@[simp] theorem State.setByte_km (x : State) (l : Nat) (b : Byte) : (x.setByte l b).km = x.km := rfl
@[simp] theorem State.setByte_staged (x : State) (l : Nat) (b : Byte) : (x.setByte l b).staged = x.staged := rfl
@[simp] theorem State.setByte_stagedDigest (x : State) (l : Nat) (b : Byte) : (x.setByte l b).stagedDigest = x.stagedDigest := rfl
@[simp] theorem State.setByte_fused (x : State) (l : Nat) (b : Byte) : (x.setByte l b).fused = x.fused := rfl
@[simp] theorem State.setByte_active (x : State) (l : Nat) (b : Byte) : (x.setByte l b).active = x.active := rfl
@[simp] theorem State.setByte_lcs (x : State) (l : Nat) (b : Byte) : (x.setByte l b).lcs = x.lcs := rfl
@[simp] theorem State.setByte_identity (x : State) (l : Nat) (b : Byte) : (x.setByte l b).identity = x.identity := rfl
@[simp] theorem State.setByte_mpool (x : State) (l : Nat) (b : Byte) : (x.setByte l b).mpool = x.mpool := rfl
@[simp] theorem State.setByte_pwrlim (x : State) (l : Nat) (b : Byte) : (x.setByte l b).pwrlim = x.pwrlim := rfl
@[simp] theorem State.setByte_trip (x : State) (l : Nat) (b : Byte) : (x.setByte l b).trip = x.trip := rfl
@[simp] theorem State.setByte_tripped (x : State) (l : Nat) (b : Byte) : (x.setByte l b).tripped = x.tripped := rfl
@[simp] theorem State.setByte_mhz (x : State) (l : Nat) (b : Byte) : (x.setByte l b).mhz = x.mhz := rfl
@[simp] theorem State.setByte_keySlots (x : State) (l : Nat) (b : Byte) : (x.setByte l b).keySlots = x.keySlots := rfl
@[simp] theorem State.setByte_nextKey (x : State) (l : Nat) (b : Byte) : (x.setByte l b).nextKey = x.nextKey := rfl
@[simp] theorem State.setByte_frames (x : State) (l : Nat) (b : Byte) : (x.setByte l b).frames = x.frames := rfl
@[simp] theorem State.setByte_images (x : State) (l : Nat) (b : Byte) : (x.setByte l b).images = x.images := rfl
@[simp] theorem State.setByte_exportsOut (x : State) (l : Nat) (b : Byte) : (x.setByte l b).exportsOut = x.exportsOut := rfl
@[simp] theorem State.setByte_devRing (x : State) (l : Nat) (b : Byte) : (x.setByte l b).devRing = x.devRing := rfl
@[simp] theorem State.setByte_devSeq (x : State) (l : Nat) (b : Byte) : (x.setByte l b).devSeq = x.devSeq := rfl
@[simp] theorem State.setByte_devLog (x : State) (l : Nat) (b : Byte) : (x.setByte l b).devLog = x.devLog := rfl
@[simp] theorem State.setByte_damson (x : State) (l : Nat) (b : Byte) : (x.setByte l b).damson = x.damson := rfl
@[simp] theorem State.setByte_edges (x : State) (l : Nat) (b : Byte) : (x.setByte l b).edges = x.edges := rfl
@[simp] theorem State.setByte_fwHold (x : State) (l : Nat) (b : Byte) : (x.setByte l b).fwHold = x.fwHold := rfl
@[simp] theorem State.setByte_heldCmds (x : State) (l : Nat) (b : Byte) : (x.setByte l b).heldCmds = x.heldCmds := rfl
@[simp] theorem State.setByte_arrivals (x : State) (l : Nat) (b : Byte) : (x.setByte l b).arrivals = x.arrivals := rfl
@[simp] theorem State.setByte_activeSvn (x : State) (l : Nat) (b : Byte) : (x.setByte l b).activeSvn = x.activeSvn := rfl
@[simp] theorem State.setByte_prev (x : State) (l : Nat) (b : Byte) : (x.setByte l b).prev = x.prev := rfl
@[simp] theorem State.setByte_out (x : State) (l : Nat) (b : Byte) : (x.setByte l b).out = x.out := rfl
@[simp] theorem State.setByte_agenda (x : State) (l : Nat) (b : Byte) : (x.setByte l b).agenda = x.agenda := rfl
@[simp] theorem State.setByte_cursor (x : State) (l : Nat) (b : Byte) : (x.setByte l b).cursor = x.cursor := rfl
@[simp] theorem State.setByte_cur (x : State) (l : Nat) (b : Byte) : (x.setByte l b).cur = x.cur := rfl
@[simp] theorem State.setByte_fresh (x : State) (l : Nat) (b : Byte) : (x.setByte l b).fresh = x.fresh := rfl
@[simp] theorem State.setByte_nextId (x : State) (l : Nat) (b : Byte) : (x.setByte l b).nextId = x.nextId := rfl

/-! ### A line poisoned -/

@[simp] theorem State.setPoison_clock (x : State) (l : Nat) : (x.setPoison l).clock = x.clock := rfl
@[simp] theorem State.setPoison_mem (x : State) (l : Nat) : (x.setPoison l).mem = x.mem := rfl
@[simp] theorem State.setPoison_poison (x : State) (l : Nat) : (x.setPoison l).poison = setAdd x.poison l := rfl
@[simp] theorem State.setPoison_groups (x : State) (l : Nat) : (x.setPoison l).groups = x.groups := rfl
@[simp] theorem State.setPoison_launches (x : State) (l : Nat) : (x.setPoison l).launches = x.launches := rfl
@[simp] theorem State.setPoison_ops (x : State) (l : Nat) : (x.setPoison l).ops = x.ops := rfl
@[simp] theorem State.setPoison_calls (x : State) (l : Nat) : (x.setPoison l).calls = x.calls := rfl
@[simp] theorem State.setPoison_cores (x : State) (l : Nat) : (x.setPoison l).cores = x.cores := rfl
@[simp] theorem State.setPoison_tiles (x : State) (l : Nat) : (x.setPoison l).tiles = x.tiles := rfl
@[simp] theorem State.setPoison_parts (x : State) (l : Nat) : (x.setPoison l).parts = x.parts := rfl
@[simp] theorem State.setPoison_classes (x : State) (l : Nat) : (x.setPoison l).classes = x.classes := rfl
@[simp] theorem State.setPoison_dir (x : State) (l : Nat) : (x.setPoison l).dir = x.dir := rfl
@[simp] theorem State.setPoison_ports (x : State) (l : Nat) : (x.setPoison l).ports = x.ports := rfl
@[simp] theorem State.setPoison_routes (x : State) (l : Nat) : (x.setPoison l).routes = x.routes := rfl
@[simp] theorem State.setPoison_waferid (x : State) (l : Nat) : (x.setPoison l).waferid = x.waferid := rfl
@[simp] theorem State.setPoison_dm (x : State) (l : Nat) : (x.setPoison l).dm = x.dm := rfl
@[simp] theorem State.setPoison_km (x : State) (l : Nat) : (x.setPoison l).km = x.km := rfl
@[simp] theorem State.setPoison_staged (x : State) (l : Nat) : (x.setPoison l).staged = x.staged := rfl
@[simp] theorem State.setPoison_stagedDigest (x : State) (l : Nat) : (x.setPoison l).stagedDigest = x.stagedDigest := rfl
@[simp] theorem State.setPoison_fused (x : State) (l : Nat) : (x.setPoison l).fused = x.fused := rfl
@[simp] theorem State.setPoison_active (x : State) (l : Nat) : (x.setPoison l).active = x.active := rfl
@[simp] theorem State.setPoison_lcs (x : State) (l : Nat) : (x.setPoison l).lcs = x.lcs := rfl
@[simp] theorem State.setPoison_identity (x : State) (l : Nat) : (x.setPoison l).identity = x.identity := rfl
@[simp] theorem State.setPoison_mpool (x : State) (l : Nat) : (x.setPoison l).mpool = x.mpool := rfl
@[simp] theorem State.setPoison_pwrlim (x : State) (l : Nat) : (x.setPoison l).pwrlim = x.pwrlim := rfl
@[simp] theorem State.setPoison_trip (x : State) (l : Nat) : (x.setPoison l).trip = x.trip := rfl
@[simp] theorem State.setPoison_tripped (x : State) (l : Nat) : (x.setPoison l).tripped = x.tripped := rfl
@[simp] theorem State.setPoison_mhz (x : State) (l : Nat) : (x.setPoison l).mhz = x.mhz := rfl
@[simp] theorem State.setPoison_keySlots (x : State) (l : Nat) : (x.setPoison l).keySlots = x.keySlots := rfl
@[simp] theorem State.setPoison_nextKey (x : State) (l : Nat) : (x.setPoison l).nextKey = x.nextKey := rfl
@[simp] theorem State.setPoison_frames (x : State) (l : Nat) : (x.setPoison l).frames = x.frames := rfl
@[simp] theorem State.setPoison_images (x : State) (l : Nat) : (x.setPoison l).images = x.images := rfl
@[simp] theorem State.setPoison_exportsOut (x : State) (l : Nat) : (x.setPoison l).exportsOut = x.exportsOut := rfl
@[simp] theorem State.setPoison_devRing (x : State) (l : Nat) : (x.setPoison l).devRing = x.devRing := rfl
@[simp] theorem State.setPoison_devSeq (x : State) (l : Nat) : (x.setPoison l).devSeq = x.devSeq := rfl
@[simp] theorem State.setPoison_devLog (x : State) (l : Nat) : (x.setPoison l).devLog = x.devLog := rfl
@[simp] theorem State.setPoison_damson (x : State) (l : Nat) : (x.setPoison l).damson = x.damson := rfl
@[simp] theorem State.setPoison_edges (x : State) (l : Nat) : (x.setPoison l).edges = x.edges := rfl
@[simp] theorem State.setPoison_fwHold (x : State) (l : Nat) : (x.setPoison l).fwHold = x.fwHold := rfl
@[simp] theorem State.setPoison_heldCmds (x : State) (l : Nat) : (x.setPoison l).heldCmds = x.heldCmds := rfl
@[simp] theorem State.setPoison_arrivals (x : State) (l : Nat) : (x.setPoison l).arrivals = x.arrivals := rfl
@[simp] theorem State.setPoison_activeSvn (x : State) (l : Nat) : (x.setPoison l).activeSvn = x.activeSvn := rfl
@[simp] theorem State.setPoison_prev (x : State) (l : Nat) : (x.setPoison l).prev = x.prev := rfl
@[simp] theorem State.setPoison_out (x : State) (l : Nat) : (x.setPoison l).out = x.out := rfl
@[simp] theorem State.setPoison_agenda (x : State) (l : Nat) : (x.setPoison l).agenda = x.agenda := rfl
@[simp] theorem State.setPoison_cursor (x : State) (l : Nat) : (x.setPoison l).cursor = x.cursor := rfl
@[simp] theorem State.setPoison_cur (x : State) (l : Nat) : (x.setPoison l).cur = x.cur := rfl
@[simp] theorem State.setPoison_fresh (x : State) (l : Nat) : (x.setPoison l).fresh = x.fresh := rfl
@[simp] theorem State.setPoison_nextId (x : State) (l : Nat) : (x.setPoison l).nextId = x.nextId := rfl

/-! ### A line cleared of poison -/

@[simp] theorem State.clearPoison_clock (x : State) (l : Nat) : (x.clearPoison l).clock = x.clock := rfl
@[simp] theorem State.clearPoison_mem (x : State) (l : Nat) : (x.clearPoison l).mem = x.mem := rfl
@[simp] theorem State.clearPoison_poison (x : State) (l : Nat) : (x.clearPoison l).poison = x.poison.filter (· != l) := rfl
@[simp] theorem State.clearPoison_groups (x : State) (l : Nat) : (x.clearPoison l).groups = x.groups := rfl
@[simp] theorem State.clearPoison_launches (x : State) (l : Nat) : (x.clearPoison l).launches = x.launches := rfl
@[simp] theorem State.clearPoison_ops (x : State) (l : Nat) : (x.clearPoison l).ops = x.ops := rfl
@[simp] theorem State.clearPoison_calls (x : State) (l : Nat) : (x.clearPoison l).calls = x.calls := rfl
@[simp] theorem State.clearPoison_cores (x : State) (l : Nat) : (x.clearPoison l).cores = x.cores := rfl
@[simp] theorem State.clearPoison_tiles (x : State) (l : Nat) : (x.clearPoison l).tiles = x.tiles := rfl
@[simp] theorem State.clearPoison_parts (x : State) (l : Nat) : (x.clearPoison l).parts = x.parts := rfl
@[simp] theorem State.clearPoison_classes (x : State) (l : Nat) : (x.clearPoison l).classes = x.classes := rfl
@[simp] theorem State.clearPoison_dir (x : State) (l : Nat) : (x.clearPoison l).dir = x.dir := rfl
@[simp] theorem State.clearPoison_ports (x : State) (l : Nat) : (x.clearPoison l).ports = x.ports := rfl
@[simp] theorem State.clearPoison_routes (x : State) (l : Nat) : (x.clearPoison l).routes = x.routes := rfl
@[simp] theorem State.clearPoison_waferid (x : State) (l : Nat) : (x.clearPoison l).waferid = x.waferid := rfl
@[simp] theorem State.clearPoison_dm (x : State) (l : Nat) : (x.clearPoison l).dm = x.dm := rfl
@[simp] theorem State.clearPoison_km (x : State) (l : Nat) : (x.clearPoison l).km = x.km := rfl
@[simp] theorem State.clearPoison_staged (x : State) (l : Nat) : (x.clearPoison l).staged = x.staged := rfl
@[simp] theorem State.clearPoison_stagedDigest (x : State) (l : Nat) : (x.clearPoison l).stagedDigest = x.stagedDigest := rfl
@[simp] theorem State.clearPoison_fused (x : State) (l : Nat) : (x.clearPoison l).fused = x.fused := rfl
@[simp] theorem State.clearPoison_active (x : State) (l : Nat) : (x.clearPoison l).active = x.active := rfl
@[simp] theorem State.clearPoison_lcs (x : State) (l : Nat) : (x.clearPoison l).lcs = x.lcs := rfl
@[simp] theorem State.clearPoison_identity (x : State) (l : Nat) : (x.clearPoison l).identity = x.identity := rfl
@[simp] theorem State.clearPoison_mpool (x : State) (l : Nat) : (x.clearPoison l).mpool = x.mpool := rfl
@[simp] theorem State.clearPoison_pwrlim (x : State) (l : Nat) : (x.clearPoison l).pwrlim = x.pwrlim := rfl
@[simp] theorem State.clearPoison_trip (x : State) (l : Nat) : (x.clearPoison l).trip = x.trip := rfl
@[simp] theorem State.clearPoison_tripped (x : State) (l : Nat) : (x.clearPoison l).tripped = x.tripped := rfl
@[simp] theorem State.clearPoison_mhz (x : State) (l : Nat) : (x.clearPoison l).mhz = x.mhz := rfl
@[simp] theorem State.clearPoison_keySlots (x : State) (l : Nat) : (x.clearPoison l).keySlots = x.keySlots := rfl
@[simp] theorem State.clearPoison_nextKey (x : State) (l : Nat) : (x.clearPoison l).nextKey = x.nextKey := rfl
@[simp] theorem State.clearPoison_frames (x : State) (l : Nat) : (x.clearPoison l).frames = x.frames := rfl
@[simp] theorem State.clearPoison_images (x : State) (l : Nat) : (x.clearPoison l).images = x.images := rfl
@[simp] theorem State.clearPoison_exportsOut (x : State) (l : Nat) : (x.clearPoison l).exportsOut = x.exportsOut := rfl
@[simp] theorem State.clearPoison_devRing (x : State) (l : Nat) : (x.clearPoison l).devRing = x.devRing := rfl
@[simp] theorem State.clearPoison_devSeq (x : State) (l : Nat) : (x.clearPoison l).devSeq = x.devSeq := rfl
@[simp] theorem State.clearPoison_devLog (x : State) (l : Nat) : (x.clearPoison l).devLog = x.devLog := rfl
@[simp] theorem State.clearPoison_damson (x : State) (l : Nat) : (x.clearPoison l).damson = x.damson := rfl
@[simp] theorem State.clearPoison_edges (x : State) (l : Nat) : (x.clearPoison l).edges = x.edges := rfl
@[simp] theorem State.clearPoison_fwHold (x : State) (l : Nat) : (x.clearPoison l).fwHold = x.fwHold := rfl
@[simp] theorem State.clearPoison_heldCmds (x : State) (l : Nat) : (x.clearPoison l).heldCmds = x.heldCmds := rfl
@[simp] theorem State.clearPoison_arrivals (x : State) (l : Nat) : (x.clearPoison l).arrivals = x.arrivals := rfl
@[simp] theorem State.clearPoison_activeSvn (x : State) (l : Nat) : (x.clearPoison l).activeSvn = x.activeSvn := rfl
@[simp] theorem State.clearPoison_prev (x : State) (l : Nat) : (x.clearPoison l).prev = x.prev := rfl
@[simp] theorem State.clearPoison_out (x : State) (l : Nat) : (x.clearPoison l).out = x.out := rfl
@[simp] theorem State.clearPoison_agenda (x : State) (l : Nat) : (x.clearPoison l).agenda = x.agenda := rfl
@[simp] theorem State.clearPoison_cursor (x : State) (l : Nat) : (x.clearPoison l).cursor = x.cursor := rfl
@[simp] theorem State.clearPoison_cur (x : State) (l : Nat) : (x.clearPoison l).cur = x.cur := rfl
@[simp] theorem State.clearPoison_fresh (x : State) (l : Nat) : (x.clearPoison l).fresh = x.fresh := rfl
@[simp] theorem State.clearPoison_nextId (x : State) (l : Nat) : (x.clearPoison l).nextId = x.nextId := rfl

/-! ### Lanes of a list changed -/

@[simp] theorem Group.updLanes_launch (x : Group) (ls : List Nat) (f : Nat → Lane → Lane) : (x.updLanes ls f).launch = x.launch := rfl
@[simp] theorem Group.updLanes_tile (x : Group) (ls : List Nat) (f : Nat → Lane → Lane) : (x.updLanes ls f).tile = x.tile := rfl
@[simp] theorem Group.updLanes_core (x : Group) (ls : List Nat) (f : Nat → Lane → Lane) : (x.updLanes ls f).core = x.core := rfl
@[simp] theorem Group.updLanes_slot (x : Group) (ls : List Nat) (f : Nat → Lane → Lane) : (x.updLanes ls f).slot = x.slot := rfl
@[simp] theorem Group.updLanes_pos (x : Group) (ls : List Nat) (f : Nat → Lane → Lane) : (x.updLanes ls f).pos = x.pos := rfl
@[simp] theorem Group.updLanes_w (x : Group) (ls : List Nat) (f : Nat → Lane → Lane) : (x.updLanes ls f).w = x.w := rfl
@[simp] theorem Group.updLanes_v (x : Group) (ls : List Nat) (f : Nat → Lane → Lane) : (x.updLanes ls f).v = x.v := rfl
@[simp] theorem Group.updLanes_t (x : Group) (ls : List Nat) (f : Nat → Lane → Lane) : (x.updLanes ls f).t = x.t := rfl
@[simp] theorem Group.updLanes_lin (x : Group) (ls : List Nat) (f : Nat → Lane → Lane) : (x.updLanes ls f).lin = x.lin := rfl
@[simp] theorem Group.updLanes_age (x : Group) (ls : List Nat) (f : Nat → Lane → Lane) : (x.updLanes ls f).age = x.age := rfl
@[simp] theorem Group.updLanes_win (x : Group) (ls : List Nat) (f : Nat → Lane → Lane) : (x.updLanes ls f).win = x.win := rfl
@[simp] theorem Group.updLanes_lanes (x : Group) (ls : List Nat) (f : Nat → Lane → Lane) : (x.updLanes ls f).lanes = x.lanes.mapIdx (fun i l => if ls.contains i then f i l else l) := rfl
@[simp] theorem Group.updLanes_s (x : Group) (ls : List Nat) (f : Nat → Lane → Lane) : (x.updLanes ls f).s = x.s := rfl
@[simp] theorem Group.updLanes_sPsn (x : Group) (ls : List Nat) (f : Nat → Lane → Lane) : (x.updLanes ls f).sPsn = x.sPsn := rfl
@[simp] theorem Group.updLanes_srseed (x : Group) (ls : List Nat) (f : Nat → Lane → Lane) : (x.updLanes ls f).srseed = x.srseed := rfl
@[simp] theorem Group.updLanes_arstat (x : Group) (ls : List Nat) (f : Nat → Lane → Lane) : (x.updLanes ls f).arstat = x.arstat := rfl
@[simp] theorem Group.updLanes_region (x : Group) (ls : List Nat) (f : Nat → Lane → Lane) : (x.updLanes ls f).region = x.region := rfl
@[simp] theorem Group.updLanes_sb (x : Group) (ls : List Nat) (f : Nat → Lane → Lane) : (x.updLanes ls f).sb = x.sb := rfl
@[simp] theorem Group.updLanes_cnt (x : Group) (ls : List Nat) (f : Nat → Lane → Lane) : (x.updLanes ls f).cnt = x.cnt := rfl
@[simp] theorem Group.updLanes_issued (x : Group) (ls : List Nat) (f : Nat → Lane → Lane) : (x.updLanes ls f).issued = x.issued := rfl
@[simp] theorem Group.updLanes_errs (x : Group) (ls : List Nat) (f : Nat → Lane → Lane) : (x.updLanes ls f).errs = x.errs := rfl
@[simp] theorem Group.updLanes_stall (x : Group) (ls : List Nat) (f : Nat → Lane → Lane) : (x.updLanes ls f).stall = x.stall := rfl
@[simp] theorem Group.updLanes_ra (x : Group) (ls : List Nat) (f : Nat → Lane → Lane) : (x.updLanes ls f).ra = x.ra := rfl
@[simp] theorem Group.updLanes_priv (x : Group) (ls : List Nat) (f : Nat → Lane → Lane) : (x.updLanes ls f).priv = x.priv := rfl
@[simp] theorem Group.updLanes_epc (x : Group) (ls : List Nat) (f : Nat → Lane → Lane) : (x.updLanes ls f).epc = x.epc := rfl
@[simp] theorem Group.updLanes_ecause (x : Group) (ls : List Nat) (f : Nat → Lane → Lane) : (x.updLanes ls f).ecause = x.ecause := rfl
@[simp] theorem Group.updLanes_eaddr (x : Group) (ls : List Nat) (f : Nat → Lane → Lane) : (x.updLanes ls f).eaddr = x.eaddr := rfl
@[simp] theorem Group.updLanes_emask (x : Group) (ls : List Nat) (f : Nat → Lane → Lane) : (x.updLanes ls f).emask = x.emask := rfl
@[simp] theorem Group.updLanes_einsl (x : Group) (ls : List Nat) (f : Nat → Lane → Lane) : (x.updLanes ls f).einsl = x.einsl := rfl
@[simp] theorem Group.updLanes_einsh (x : Group) (ls : List Nat) (f : Nat → Lane → Lane) : (x.updLanes ls f).einsh = x.einsh := rfl
@[simp] theorem Group.updLanes_escr0 (x : Group) (ls : List Nat) (f : Nat → Lane → Lane) : (x.updLanes ls f).escr0 = x.escr0 := rfl
@[simp] theorem Group.updLanes_escr1 (x : Group) (ls : List Nat) (f : Nat → Lane → Lane) : (x.updLanes ls f).escr1 = x.escr1 := rfl
@[simp] theorem Group.updLanes_acc (x : Group) (ls : List Nat) (f : Nat → Lane → Lane) : (x.updLanes ls f).acc = x.acc := rfl
@[simp] theorem Group.updLanes_alatch (x : Group) (ls : List Nat) (f : Nat → Lane → Lane) : (x.updLanes ls f).alatch = x.alatch := rfl
@[simp] theorem Group.updLanes_grow (x : Group) (ls : List Nat) (f : Nat → Lane → Lane) : (x.updLanes ls f).grow = x.grow := rfl
@[simp] theorem Group.updLanes_shrnk (x : Group) (ls : List Nat) (f : Nat → Lane → Lane) : (x.updLanes ls f).shrnk = x.shrnk := rfl
@[simp] theorem Group.updLanes_enq (x : Group) (ls : List Nat) (f : Nat → Lane → Lane) : (x.updLanes ls f).enq = x.enq := rfl
@[simp] theorem Group.updLanes_mreset (x : Group) (ls : List Nat) (f : Nat → Lane → Lane) : (x.updLanes ls f).mreset = x.mreset := rfl
@[simp] theorem Group.updLanes_frozen (x : Group) (ls : List Nat) (f : Nat → Lane → Lane) : (x.updLanes ls f).frozen = x.frozen := rfl
@[simp] theorem Group.updLanes_fabLost (x : Group) (ls : List Nat) (f : Nat → Lane → Lane) : (x.updLanes ls f).fabLost = x.fabLost := rfl

/-! ### One lane changed -/

@[simp] theorem Group.updLane_launch (x : Group) (i : Nat) (f : Lane → Lane) : (x.updLane i f).launch = x.launch := rfl
@[simp] theorem Group.updLane_tile (x : Group) (i : Nat) (f : Lane → Lane) : (x.updLane i f).tile = x.tile := rfl
@[simp] theorem Group.updLane_core (x : Group) (i : Nat) (f : Lane → Lane) : (x.updLane i f).core = x.core := rfl
@[simp] theorem Group.updLane_slot (x : Group) (i : Nat) (f : Lane → Lane) : (x.updLane i f).slot = x.slot := rfl
@[simp] theorem Group.updLane_pos (x : Group) (i : Nat) (f : Lane → Lane) : (x.updLane i f).pos = x.pos := rfl
@[simp] theorem Group.updLane_w (x : Group) (i : Nat) (f : Lane → Lane) : (x.updLane i f).w = x.w := rfl
@[simp] theorem Group.updLane_v (x : Group) (i : Nat) (f : Lane → Lane) : (x.updLane i f).v = x.v := rfl
@[simp] theorem Group.updLane_t (x : Group) (i : Nat) (f : Lane → Lane) : (x.updLane i f).t = x.t := rfl
@[simp] theorem Group.updLane_lin (x : Group) (i : Nat) (f : Lane → Lane) : (x.updLane i f).lin = x.lin := rfl
@[simp] theorem Group.updLane_age (x : Group) (i : Nat) (f : Lane → Lane) : (x.updLane i f).age = x.age := rfl
@[simp] theorem Group.updLane_win (x : Group) (i : Nat) (f : Lane → Lane) : (x.updLane i f).win = x.win := rfl
@[simp] theorem Group.updLane_lanes (x : Group) (i : Nat) (f : Lane → Lane) : (x.updLane i f).lanes = x.lanes.modify i f := rfl
@[simp] theorem Group.updLane_s (x : Group) (i : Nat) (f : Lane → Lane) : (x.updLane i f).s = x.s := rfl
@[simp] theorem Group.updLane_sPsn (x : Group) (i : Nat) (f : Lane → Lane) : (x.updLane i f).sPsn = x.sPsn := rfl
@[simp] theorem Group.updLane_srseed (x : Group) (i : Nat) (f : Lane → Lane) : (x.updLane i f).srseed = x.srseed := rfl
@[simp] theorem Group.updLane_arstat (x : Group) (i : Nat) (f : Lane → Lane) : (x.updLane i f).arstat = x.arstat := rfl
@[simp] theorem Group.updLane_region (x : Group) (i : Nat) (f : Lane → Lane) : (x.updLane i f).region = x.region := rfl
@[simp] theorem Group.updLane_sb (x : Group) (i : Nat) (f : Lane → Lane) : (x.updLane i f).sb = x.sb := rfl
@[simp] theorem Group.updLane_cnt (x : Group) (i : Nat) (f : Lane → Lane) : (x.updLane i f).cnt = x.cnt := rfl
@[simp] theorem Group.updLane_issued (x : Group) (i : Nat) (f : Lane → Lane) : (x.updLane i f).issued = x.issued := rfl
@[simp] theorem Group.updLane_errs (x : Group) (i : Nat) (f : Lane → Lane) : (x.updLane i f).errs = x.errs := rfl
@[simp] theorem Group.updLane_stall (x : Group) (i : Nat) (f : Lane → Lane) : (x.updLane i f).stall = x.stall := rfl
@[simp] theorem Group.updLane_ra (x : Group) (i : Nat) (f : Lane → Lane) : (x.updLane i f).ra = x.ra := rfl
@[simp] theorem Group.updLane_priv (x : Group) (i : Nat) (f : Lane → Lane) : (x.updLane i f).priv = x.priv := rfl
@[simp] theorem Group.updLane_epc (x : Group) (i : Nat) (f : Lane → Lane) : (x.updLane i f).epc = x.epc := rfl
@[simp] theorem Group.updLane_ecause (x : Group) (i : Nat) (f : Lane → Lane) : (x.updLane i f).ecause = x.ecause := rfl
@[simp] theorem Group.updLane_eaddr (x : Group) (i : Nat) (f : Lane → Lane) : (x.updLane i f).eaddr = x.eaddr := rfl
@[simp] theorem Group.updLane_emask (x : Group) (i : Nat) (f : Lane → Lane) : (x.updLane i f).emask = x.emask := rfl
@[simp] theorem Group.updLane_einsl (x : Group) (i : Nat) (f : Lane → Lane) : (x.updLane i f).einsl = x.einsl := rfl
@[simp] theorem Group.updLane_einsh (x : Group) (i : Nat) (f : Lane → Lane) : (x.updLane i f).einsh = x.einsh := rfl
@[simp] theorem Group.updLane_escr0 (x : Group) (i : Nat) (f : Lane → Lane) : (x.updLane i f).escr0 = x.escr0 := rfl
@[simp] theorem Group.updLane_escr1 (x : Group) (i : Nat) (f : Lane → Lane) : (x.updLane i f).escr1 = x.escr1 := rfl
@[simp] theorem Group.updLane_acc (x : Group) (i : Nat) (f : Lane → Lane) : (x.updLane i f).acc = x.acc := rfl
@[simp] theorem Group.updLane_alatch (x : Group) (i : Nat) (f : Lane → Lane) : (x.updLane i f).alatch = x.alatch := rfl
@[simp] theorem Group.updLane_grow (x : Group) (i : Nat) (f : Lane → Lane) : (x.updLane i f).grow = x.grow := rfl
@[simp] theorem Group.updLane_shrnk (x : Group) (i : Nat) (f : Lane → Lane) : (x.updLane i f).shrnk = x.shrnk := rfl
@[simp] theorem Group.updLane_enq (x : Group) (i : Nat) (f : Lane → Lane) : (x.updLane i f).enq = x.enq := rfl
@[simp] theorem Group.updLane_mreset (x : Group) (i : Nat) (f : Lane → Lane) : (x.updLane i f).mreset = x.mreset := rfl
@[simp] theorem Group.updLane_frozen (x : Group) (i : Nat) (f : Lane → Lane) : (x.updLane i f).frozen = x.frozen := rfl
@[simp] theorem Group.updLane_fabLost (x : Group) (i : Nat) (f : Lane → Lane) : (x.updLane i f).fabLost = x.fabLost := rfl

/-! ### Latches shifted -/

@[simp] theorem Lane.shift_pc (x : Lane) (v : DWord) (p : Bool) : (x.shift v p).pc = x.pc := rfl
@[simp] theorem Lane.shift_v (x : Lane) (v : DWord) (p : Bool) : (x.shift v p).v = x.v := rfl
@[simp] theorem Lane.shift_vPsn (x : Lane) (v : DWord) (p : Bool) : (x.shift v p).vPsn = x.vPsn := rfl
@[simp] theorem Lane.shift_p (x : Lane) (v : DWord) (p : Bool) : (x.shift v p).p = x.p := rfl
@[simp] theorem Lane.shift_lat (x : Lane) (v : DWord) (p : Bool) : (x.shift v p).lat = { l0 := ⟨v, true, p, false⟩, l1 := x.lat.l0, l2 := x.lat.l1, l3 := x.lat.l2 } := rfl
@[simp] theorem Lane.shift_fflags (x : Lane) (v : DWord) (p : Bool) : (x.shift v p).fflags = x.fflags := rfl
@[simp] theorem Lane.shift_srctr (x : Lane) (v : DWord) (p : Bool) : (x.shift v p).srctr = x.srctr := rfl
@[simp] theorem Lane.shift_exited (x : Lane) (v : DWord) (p : Bool) : (x.shift v p).exited = x.exited := rfl
@[simp] theorem Lane.shift_block (x : Lane) (v : DWord) (p : Bool) : (x.shift v p).block = x.block := rfl
@[simp] theorem Lane.shift_held (x : Lane) (v : DWord) (p : Bool) : (x.shift v p).held = x.held := rfl
@[simp] theorem Lane.shift_heldWord (x : Lane) (v : DWord) (p : Bool) : (x.shift v p).heldWord = x.heldWord := rfl
@[simp] theorem Lane.shift_yielded (x : Lane) (v : DWord) (p : Bool) : (x.shift v p).yielded = x.yielded := rfl
@[simp] theorem Lane.shift_chain (x : Lane) (v : DWord) (p : Bool) : (x.shift v p).chain = x.chain := rfl
@[simp] theorem Lane.shift_chainPc (x : Lane) (v : DWord) (p : Bool) : (x.shift v p).chainPc = x.chainPc := rfl
@[simp] theorem Lane.shift_wd (x : Lane) (v : DWord) (p : Bool) : (x.shift v p).wd = x.wd := rfl
@[simp] theorem Lane.shift_wdDue (x : Lane) (v : DWord) (p : Bool) : (x.shift v p).wdDue = x.wdDue := rfl
@[simp] theorem Lane.shift_arr (x : Lane) (v : DWord) (p : Bool) : (x.shift v p).arr = x.arr := rfl
@[simp] theorem Lane.shift_slg (x : Lane) (v : DWord) (p : Bool) : (x.shift v p).slg = x.slg := rfl
@[simp] theorem Lane.shift_deny (x : Lane) (v : DWord) (p : Bool) : (x.shift v p).deny = x.deny := rfl

/-! ### Latch marks cleared -/

@[simp] theorem Lane.clearMarks_pc (x : Lane)  : (x.clearMarks).pc = x.pc := rfl
@[simp] theorem Lane.clearMarks_v (x : Lane)  : (x.clearMarks).v = x.v := rfl
@[simp] theorem Lane.clearMarks_vPsn (x : Lane)  : (x.clearMarks).vPsn = x.vPsn := rfl
@[simp] theorem Lane.clearMarks_p (x : Lane)  : (x.clearMarks).p = x.p := rfl
@[simp] theorem Lane.clearMarks_fflags (x : Lane)  : (x.clearMarks).fflags = x.fflags := rfl
@[simp] theorem Lane.clearMarks_srctr (x : Lane)  : (x.clearMarks).srctr = x.srctr := rfl
@[simp] theorem Lane.clearMarks_exited (x : Lane)  : (x.clearMarks).exited = x.exited := rfl
@[simp] theorem Lane.clearMarks_block (x : Lane)  : (x.clearMarks).block = x.block := rfl
@[simp] theorem Lane.clearMarks_held (x : Lane)  : (x.clearMarks).held = x.held := rfl
@[simp] theorem Lane.clearMarks_heldWord (x : Lane)  : (x.clearMarks).heldWord = x.heldWord := rfl
@[simp] theorem Lane.clearMarks_yielded (x : Lane)  : (x.clearMarks).yielded = x.yielded := rfl
@[simp] theorem Lane.clearMarks_chain (x : Lane)  : (x.clearMarks).chain = x.chain := rfl
@[simp] theorem Lane.clearMarks_chainPc (x : Lane)  : (x.clearMarks).chainPc = x.chainPc := rfl
@[simp] theorem Lane.clearMarks_wd (x : Lane)  : (x.clearMarks).wd = x.wd := rfl
@[simp] theorem Lane.clearMarks_wdDue (x : Lane)  : (x.clearMarks).wdDue = x.wdDue := rfl
@[simp] theorem Lane.clearMarks_arr (x : Lane)  : (x.clearMarks).arr = x.arr := rfl
@[simp] theorem Lane.clearMarks_slg (x : Lane)  : (x.clearMarks).slg = x.slg := rfl
@[simp] theorem Lane.clearMarks_deny (x : Lane)  : (x.clearMarks).deny = x.deny := rfl

/-! ### A vector register set -/

@[simp] theorem Lane.setV_pc (x : Lane) (n : Nat) (y : Word) (p : Bool) : (x.setV n y p).pc = x.pc := rfl
@[simp] theorem Lane.setV_v (x : Lane) (n : Nat) (y : Word) (p : Bool) : (x.setV n y p).v = x.v.putD 0 n y := rfl
@[simp] theorem Lane.setV_p (x : Lane) (n : Nat) (y : Word) (p : Bool) : (x.setV n y p).p = x.p := rfl
@[simp] theorem Lane.setV_lat (x : Lane) (n : Nat) (y : Word) (p : Bool) : (x.setV n y p).lat = x.lat := rfl
@[simp] theorem Lane.setV_fflags (x : Lane) (n : Nat) (y : Word) (p : Bool) : (x.setV n y p).fflags = x.fflags := rfl
@[simp] theorem Lane.setV_srctr (x : Lane) (n : Nat) (y : Word) (p : Bool) : (x.setV n y p).srctr = x.srctr := rfl
@[simp] theorem Lane.setV_exited (x : Lane) (n : Nat) (y : Word) (p : Bool) : (x.setV n y p).exited = x.exited := rfl
@[simp] theorem Lane.setV_block (x : Lane) (n : Nat) (y : Word) (p : Bool) : (x.setV n y p).block = x.block := rfl
@[simp] theorem Lane.setV_held (x : Lane) (n : Nat) (y : Word) (p : Bool) : (x.setV n y p).held = x.held := rfl
@[simp] theorem Lane.setV_heldWord (x : Lane) (n : Nat) (y : Word) (p : Bool) : (x.setV n y p).heldWord = x.heldWord := rfl
@[simp] theorem Lane.setV_yielded (x : Lane) (n : Nat) (y : Word) (p : Bool) : (x.setV n y p).yielded = x.yielded := rfl
@[simp] theorem Lane.setV_chain (x : Lane) (n : Nat) (y : Word) (p : Bool) : (x.setV n y p).chain = x.chain := rfl
@[simp] theorem Lane.setV_chainPc (x : Lane) (n : Nat) (y : Word) (p : Bool) : (x.setV n y p).chainPc = x.chainPc := rfl
@[simp] theorem Lane.setV_wd (x : Lane) (n : Nat) (y : Word) (p : Bool) : (x.setV n y p).wd = x.wd := rfl
@[simp] theorem Lane.setV_wdDue (x : Lane) (n : Nat) (y : Word) (p : Bool) : (x.setV n y p).wdDue = x.wdDue := rfl
@[simp] theorem Lane.setV_arr (x : Lane) (n : Nat) (y : Word) (p : Bool) : (x.setV n y p).arr = x.arr := rfl
@[simp] theorem Lane.setV_slg (x : Lane) (n : Nat) (y : Word) (p : Bool) : (x.setV n y p).slg = x.slg := rfl
@[simp] theorem Lane.setV_deny (x : Lane) (n : Nat) (y : Word) (p : Bool) : (x.setV n y p).deny = x.deny := rfl

end Sys2Proof.Machine
end

