-- ==== Sys2Proof/Laws/Tables.lean ====
section
/-!
SUPPORT. What the table operations of Machine/Ops.lean do: an entry read after a table has changed, and rising keys kept.
-/

namespace Sys2Proof.Machine

/-! ### Reading an entry -/

@[simp] theorem FMap.look_nil {α : Type} (k : Nat) : FMap.look ([] : FMap α) k = none := rfl

theorem FMap.look_cons {α : Type} (e : Nat × α) (m : FMap α) (k : Nat) :
    FMap.look (e :: m) k = if e.1 = k then some e.2 else FMap.look m k := rfl

theorem FMap.look_remove {α : Type} (m : FMap α) (k j : Nat) :
    (m.remove k).look j = if j = k then none else m.look j := by
  induction m with
  | nil => simp [FMap.remove]
  | cons e m ih =>
    obtain ⟨i, a⟩ := e
    by_cases h : i = k
    · subst h
      simp only [FMap.remove, if_true, ih, FMap.look_cons]
      by_cases hj : j = i
      · simp [hj]
      · simp [hj, Ne.symm hj]
    · simp only [FMap.remove, if_neg h, FMap.look_cons, ih]
      by_cases hj : i = j
      · subst hj; simp [h]
      · simp [hj]

theorem FMap.look_insert' {α : Type} (m : FMap α) (k : Nat) (a : α) (j : Nat) (h : m.look k = none) :
    (m.insert' k a).look j = if j = k then some a else m.look j := by
  induction m with
  | nil => simp [FMap.insert', FMap.look_cons, eq_comm]
  | cons e m ih =>
    obtain ⟨i, b⟩ := e
    rw [FMap.look_cons] at h
    by_cases hi : i = k
    · simp [hi] at h
    · simp only [hi, if_false] at h
      unfold FMap.insert'
      split
      · simp only [FMap.look_cons]
        by_cases hj : j = k
        · simp [hj]
        · simp [hj, Ne.symm hj]
      · simp only [FMap.look_cons, ih h]
        by_cases hj : i = j
        · subst hj; simp [hi]
        · simp [hj]

/-- An entry read after entry k was set. -/
@[simp] theorem FMap.look_setAt {α : Type} (m : FMap α) (k : Nat) (a : α) (j : Nat) :
    (m.setAt k a).look j = if j = k then some a else m.look j := by
  unfold FMap.setAt
  rw [FMap.look_insert' _ _ _ _ (by simp [FMap.look_remove]), FMap.look_remove]
  by_cases hj : j = k <;> simp [hj]

theorem FMap.lookD_setAt {α : Type} (m : FMap α) (d : α) (k : Nat) (a : α) (j : Nat) :
    (m.setAt k a).lookD d j = if j = k then a else m.lookD d j := by
  unfold FMap.lookD
  rw [FMap.look_setAt]
  by_cases hj : j = k <;> simp [hj]

/-- An entry read after entry k of a table with default d was set. -/
@[simp] theorem FMap.lookD_putD {α : Type} [DecidableEq α] (m : FMap α) (d : α) (k : Nat) (a : α) (j : Nat) :
    (m.putD d k a).lookD d j = if j = k then a else m.lookD d j := by
  unfold FMap.putD
  split
  · subst_vars
    unfold FMap.lookD
    rw [FMap.look_remove]
    by_cases hj : j = k <;> simp [hj]
  · exact FMap.lookD_setAt m d k a j

@[simp] theorem FMap.look_mapV {α β : Type} (m : FMap α) (f : Nat → α → β) (k : Nat) :
    (m.mapV f).look k = (m.look k).map (f k) := by
  induction m with
  | nil => rfl
  | cons e m ih =>
    show FMap.look ((e.1, f e.1 e.2) :: FMap.mapV m f) k = _
    rw [FMap.look_cons, FMap.look_cons, ih]
    by_cases h : e.1 = k
    · simp [h]
    · simp [h]

/-! ### Rising keys -/

/-- Every key of a table lies above k. -/
def FMap.above {α : Type} (m : FMap α) (k : Nat) : Prop := ∀ e ∈ m, k < e.1

theorem FMap.sorted_cons {α : Type} (e : Nat × α) (m : FMap α) :
    FMap.sorted (e :: m) = true ↔ FMap.above m e.1 ∧ FMap.sorted m = true := by
  induction m generalizing e with
  | nil => simp [FMap.sorted, FMap.above]
  | cons f m ih =>
    simp only [FMap.sorted, Bool.and_eq_true, decide_eq_true_eq]
    constructor
    · rintro ⟨h1, h2⟩
      refine ⟨?_, h2⟩
      intro q hq
      rcases List.mem_cons.1 hq with rfl | hq
      · exact h1
      · exact lt_trans h1 (((ih f).1 h2).1 q hq)
    · rintro ⟨h1, h2⟩
      exact ⟨h1 f (by simp), h2⟩

theorem FMap.mem_remove {α : Type} (m : FMap α) (k : Nat) : ∀ e ∈ m.remove k, e ∈ m ∧ e.1 ≠ k := by
  induction m with
  | nil => simp [FMap.remove]
  | cons f m ih =>
    obtain ⟨i, a⟩ := f
    intro e he
    by_cases h : i = k
    · simp only [FMap.remove, if_pos h] at he
      exact ⟨List.mem_cons_of_mem _ (ih e he).1, (ih e he).2⟩
    · simp only [FMap.remove, if_neg h] at he
      rcases List.mem_cons.1 he with rfl | he
      · exact ⟨by simp, h⟩
      · exact ⟨List.mem_cons_of_mem _ (ih e he).1, (ih e he).2⟩

theorem FMap.sorted_remove {α : Type} (m : FMap α) (k : Nat) (h : FMap.sorted m = true) :
    FMap.sorted (m.remove k) = true := by
  induction m with
  | nil => rfl
  | cons f m ih =>
    obtain ⟨i, a⟩ := f
    obtain ⟨h1, h2⟩ := (FMap.sorted_cons _ _).1 h
    by_cases hk : i = k
    · simp only [FMap.remove, if_pos hk]; exact ih h2
    · simp only [FMap.remove, if_neg hk]
      exact (FMap.sorted_cons _ _).2 ⟨fun e he => h1 e (FMap.mem_remove m k e he).1, ih h2⟩

theorem FMap.mem_insert' {α : Type} (m : FMap α) (k : Nat) (a : α) : ∀ e ∈ m.insert' k a, e = (k, a) ∨ e ∈ m := by
  induction m with
  | nil => simp [FMap.insert']
  | cons f m ih =>
    obtain ⟨i, b⟩ := f
    intro e he
    unfold FMap.insert' at he
    split at he
    · simpa using he
    · rcases List.mem_cons.1 he with rfl | he
      · simp
      · rcases ih e he with h | h
        · exact Or.inl h
        · exact Or.inr (List.mem_cons_of_mem _ h)

theorem FMap.sorted_insert' {α : Type} (m : FMap α) (k : Nat) (a : α) (h : FMap.sorted m = true) (hk : ∀ e ∈ m, e.1 ≠ k) :
    FMap.sorted (m.insert' k a) = true := by
  induction m with
  | nil => rfl
  | cons f m ih =>
    obtain ⟨i, b⟩ := f
    obtain ⟨h1, h2⟩ := (FMap.sorted_cons _ _).1 h
    have hik : i ≠ k := hk (i, b) (by simp)
    unfold FMap.insert'
    split
    · refine (FMap.sorted_cons _ _).2 ⟨?_, h⟩
      intro e he
      rcases List.mem_cons.1 he with rfl | he
      · assumption
      · exact lt_trans (by assumption) (h1 e he)
    · refine (FMap.sorted_cons _ _).2 ⟨?_, ih h2 (fun e he => hk e (List.mem_cons_of_mem _ he))⟩
      intro e he
      rcases FMap.mem_insert' m k a e he with rfl | he
      · show i < k; omega
      · exact h1 e he

theorem FMap.sorted_setAt {α : Type} (m : FMap α) (k : Nat) (a : α) (h : FMap.sorted m = true) :
    FMap.sorted (m.setAt k a) = true :=
  FMap.sorted_insert' _ _ _ (FMap.sorted_remove m k h) (fun e he => (FMap.mem_remove m k e he).2)

theorem FMap.sorted_putD {α : Type} [DecidableEq α] (m : FMap α) (d : α) (k : Nat) (a : α) (h : FMap.sorted m = true) :
    FMap.sorted (m.putD d k a) = true := by
  unfold FMap.putD
  split
  · exact FMap.sorted_remove m k h
  · exact FMap.sorted_setAt m k a h

theorem FMap.sorted_filter {α : Type} (m : FMap α) (f : Nat × α → Bool) (h : FMap.sorted m = true) :
    FMap.sorted (m.filter f : FMap α) = true := by
  induction m with
  | nil => rfl
  | cons e m ih =>
    obtain ⟨h1, h2⟩ := (FMap.sorted_cons _ _).1 h
    rw [List.filter_cons]
    split
    · exact (FMap.sorted_cons _ _).2 ⟨fun q hq => h1 q (List.mem_of_mem_filter hq), ih h2⟩
    · exact ih h2

/-! ### Sets of numbers -/

@[simp] theorem mem_setAdd (m : List Nat) (n k : Nat) : k ∈ setAdd m n ↔ k = n ∨ k ∈ m := by
  induction m with
  | nil => simp [setAdd]
  | cons j m ih =>
    unfold setAdd
    split
    · simp
    · split
      · rename_i h
        subst h
        simp
      · simp only [List.mem_cons, ih]
        tauto

end Sys2Proof.Machine
end

