-- ==== Sys2Proof/Laws/Issue.lean ====
section
/-!
SUPPORT. A word that finds its group ready (Safety.lean): what issue does with it, and what its lanes are like after it.
-/

namespace Sys2Proof.Machine

/-! ### Lanes of a group -/

@[simp] theorem Group.lane?_updLanes (G : Group) (ls : List Nat) (f : Nat → Lane → Lane) (i : Nat) :
    (G.updLanes ls f).lane? i = (G.lane? i).map (fun l => if ls.contains i then f i l else l) := by
  simp [Group.updLanes, Group.lane?, List.getElem?_mapIdx]

theorem Group.laneTest_true (G : Group) (i : Nat) (f : Lane → Bool) (h : G.laneTest i f = true) :
    ∃ l, G.lane? i = some l ∧ f l = true := by
  unfold Group.laneTest at h
  split at h
  · exact ⟨_, by assumption, h⟩
  · simp at h

@[simp] theorem State.look_setGroup (s : State) (g : Nat) (G : Group) (h : Nat) :
    (s.setGroup g G).groups.look h = if h = g then some G else s.groups.look h := by
  simp [State.setGroup_groups]

/-! ### Issue -/

/-- A word whose group is ready takes its own effect, which `settle` carries into the state. -/
theorem issueWord_ready {c : Ctl} {m : Meta} {s s1 : State} {x : Ctx} (h : ready c m s = some (x, s1))
    (body : Ctx → State → Res) : issueWord c m s body = .next (settle x c s1 (body x s1)) := by
  unfold ready at h
  unfold issueWord
  cases hu : s.cur with
  | none => simp only [hu, reduceCtorEq] at h
  | some u =>
    simp only [hu] at h ⊢
    cases hG : s.groups.look u.g with
    | none => simp only [hG, reduceCtorEq] at h
    | some G0 =>
      simp only [hG] at h ⊢
      split at h
      · cases h
      · rename_i hc
        simp only [Bool.or_eq_true, not_or, Bool.not_eq_true] at hc
        obtain ⟨⟨⟨⟨⟨⟨h1, h2⟩, h3⟩, h4⟩, h5⟩, h6⟩, h7⟩ := hc
        obtain ⟨rfl, rfl⟩ : _ ∧ _ := by simpa using h
        rw [Option.isSome_eq_false_iff, Option.isNone_iff_eq_none] at h2 h3 h5 h6
        simp only [h1, h2, h3, h4, h5, h6, h7, Bool.false_eq_true, if_false]

/-- What a ready word sees and acts on. -/
structure Seen (c : Ctl) (s : State) (x : Ctx) (s1 : State) (G0 : Group) : Prop where
  cur : s.cur = some x.u
  before : s.groups.look x.g = some G0
  group : x.G = countRegion (beginLanes G0 x.iss)
  state : s1 = s.setGroup x.g x.G
  iss : x.iss = issuing s x.g G0 x.u
  act : x.act = passing (beginLanes G0 x.iss) x.iss c.guard
  some_act : x.act ≠ []

theorem ready_seen {c : Ctl} {m : Meta} {s s1 : State} {x : Ctx} (h : ready c m s = some (x, s1)) :
    ∃ G0, Seen c s x s1 G0 := by
  unfold ready at h
  split at h
  · cases h
  · rename_i u hu
    split at h
    · cases h
    · rename_i G0 hG
      dsimp only at h
      split at h
      · cases h
      · rename_i hc
        obtain ⟨rfl, rfl⟩ : _ ∧ _ := by simpa using h
        refine ⟨G0, hu, hG, rfl, rfl, rfl, rfl, ?_⟩
        simp only [Bool.or_eq_true, not_or, Bool.not_eq_true] at hc
        simpa using hc.1.1.1.2

theorem Seen.act_sub {c : Ctl} {s s1 : State} {x : Ctx} {G0 : Group} (h : Seen c s x s1 G0) {i : Nat} (hi : i ∈ x.act) :
    i ∈ x.iss := by
  rw [h.act] at hi
  exact List.mem_of_mem_filter hi

/-- A lane of the issuing set exists, has not exited, and stands at the word. -/
theorem Seen.lane {c : Ctl} {s s1 : State} {x : Ctx} {G0 : Group} (h : Seen c s x s1 G0) {i : Nat} (hi : i ∈ x.iss) :
    ∃ l, G0.lane? i = some l ∧ l.exited = false ∧ l.pc = x.u.pc := by
  rw [h.iss] at hi
  unfold issuing at hi
  rw [List.mem_filter, Bool.and_eq_true] at hi
  obtain ⟨l, hl, hp⟩ := Group.laneTest_true _ _ _ hi.2.2
  have h1 := hi.2.1
  unfold laneReady at h1
  simp only [Bool.and_eq_true] at h1
  obtain ⟨l2, hl2, he⟩ := Group.laneTest_true _ _ _ h1.1.1.2
  have : l2 = l := by
    have hl2' : G0.lane? i = some l2 := hl2
    rw [hl] at hl2'
    exact (Option.some.inj hl2').symm
  subst this
  refine ⟨l2, hl, ?_, by simpa using hp⟩
  simp only [Bool.and_eq_true, Bool.not_eq_true'] at he
  exact he.1.1

/-- A lane that begins a word: not blocked, not yielded, its latch marks cleared at a chain's first word (01 R32, R44). -/
def begun (l : Lane) : Lane :=
  let l1 := { l with block := .free, yielded := none }
  if l1.chain = 0 then { (l1.clearMarks) with chainPc := l1.pc } else l1

theorem beginLanes_eq (G : Group) (iss : List Nat) : beginLanes G iss = G.updLanes iss (fun _ l => begun l) := rfl

theorem countRegion_none (G : Group) (h : G.region = none) : countRegion G = G := by rw [countRegion, h]

theorem countRegion_some (G : Group) (r : Region) (h : G.region = some r) :
    countRegion G = { G with arstat := G.arstat + BitVec.ofNat 64 (2 ^ 39) } := by rw [countRegion, h]

@[simp] theorem countRegion_lanes (G : Group) : (countRegion G).lanes = G.lanes := by
  cases h : G.region with
  | none => rw [countRegion_none G h]
  | some r => rw [countRegion_some G r h]

@[simp] theorem countRegion_lane? (G : Group) (i : Nat) : (countRegion G).lane? i = G.lane? i := by
  unfold Group.lane?
  rw [countRegion_lanes]

theorem Seen.lane_group {c : Ctl} {s s1 : State} {x : Ctx} {G0 : Group} (h : Seen c s x s1 G0) (i : Nat) :
    x.G.lane? i = (G0.lane? i).map (fun l => if x.iss.contains i then begun l else l) := by
  rw [h.group, countRegion_lane?, beginLanes_eq, Group.lane?_updLanes]

theorem Seen.look {c : Ctl} {s s1 : State} {x : Ctx} {G0 : Group} (h : Seen c s x s1 G0) (g : Nat) :
    s1.groups.look g = if g = x.g then some x.G else s.groups.look g := by
  rw [h.state, State.look_setGroup]

/-- The state that a ready word acts on differs from the state before in its group alone. -/
theorem Seen.rest {c : Ctl} {s s1 : State} {x : Ctx} {G0 : Group} (h : Seen c s x s1 G0) :
    s1 = { s with groups := s1.groups } := by
  rw [h.state]; rfl

theorem begun_regs (l : Lane) : (begun l).v = l.v ∧ (begun l).vPsn = l.vPsn ∧ (begun l).p = l.p ∧ (begun l).fflags = l.fflags ∧
    (begun l).srctr = l.srctr := by
  unfold begun
  dsimp only
  split <;> exact ⟨rfl, rfl, rfl, rfl, rfl⟩

theorem begun_lats (l : Lane) : (begun l).lat.l0.val = l.lat.l0.val ∧ (begun l).lat.l1.val = l.lat.l1.val ∧
    (begun l).lat.l2.val = l.lat.l2.val := by
  unfold begun
  dsimp only
  split <;> exact ⟨rfl, rfl, rfl⟩

end Sys2Proof.Machine
end

