-- ==== Sys2Proof/Laws/Memory.lean ====
section
/-!
SUPPORT. Memory: a byte read after a write, and the canonical form that every memory operation keeps.
-/

namespace Sys2Proof.Machine

/-! ### Read after write -/

@[simp] theorem State.byteAt_setByte (s : State) (l : Nat) (b : Byte) (a : Nat) :
    (s.setByte l b).byteAt a = if a = l then b else s.byteAt a := FMap.lookD_putD s.mem 0 l b a

/-- Bytes outside the n bytes written keep their values. -/
theorem State.byteAt_writeN_of_outside (s : State) (l n v a : Nat) (h : a < l ∨ l + n ≤ a) :
    (s.writeN l n v).byteAt a = s.byteAt a := by
  induction n generalizing s l v with
  | zero => rfl
  | succ n ih =>
    rw [State.writeN, ih _ _ _ (by omega), State.byteAt_setByte, if_neg (by omega)]

/-- Byte k of the n bytes written is byte k of the value. -/
theorem State.byteAt_writeN_of_inside (s : State) (l n v k : Nat) (h : k < n) :
    (s.writeN l n v).byteAt (l + k) = BitVec.ofNat 8 (v / 256 ^ k) := by
  induction n generalizing s l v k with
  | zero => omega
  | succ n ih =>
    rw [State.writeN]
    cases k with
    | zero => rw [State.byteAt_writeN_of_outside _ _ _ _ _ (by omega), State.byteAt_setByte]; simp
    | succ k =>
      have := ih (s.setByte l (BitVec.ofNat 8 v)) (l + 1) (v / 256) k (by omega)
      rw [show l + (k + 1) = l + 1 + k by omega, this, Nat.div_div_eq_div_mul, pow_succ, Nat.mul_comm]

theorem State.byteAt_writeBytes_of_outside (s : State) (l : Nat) (bs : List Byte) (a : Nat) (h : a < l ∨ l + bs.length ≤ a) :
    (s.writeBytes l bs).byteAt a = s.byteAt a := by
  induction bs generalizing s l with
  | nil => rfl
  | cons b bs ih =>
    rw [List.length_cons] at h
    rw [State.writeBytes, ih _ _ (by omega), State.byteAt_setByte, if_neg (by omega)]

theorem State.byteAt_writeBytes_of_inside (s : State) (l : Nat) (bs : List Byte) (k : Nat) (h : k < bs.length) :
    (s.writeBytes l bs).byteAt (l + k) = bs[k] := by
  induction bs generalizing s l k with
  | nil => simp at h
  | cons b bs ih =>
    rw [State.writeBytes]
    cases k with
    | zero => rw [State.byteAt_writeBytes_of_outside _ _ _ _ (by omega), State.byteAt_setByte]; simp
    | succ k =>
      have := ih (s.setByte l b) (l + 1) k (by simpa using h)
      rw [show l + (k + 1) = l + 1 + k by omega, this]
      simp

/-! ### The canonical form -/

theorem Memory.wf_nil : Memory.wf [] := ⟨rfl, rfl⟩

theorem Memory.wf_putD (m : Memory) (l : Nat) (b : Byte) (h : Memory.wf m) : Memory.wf (FMap.putD m 0 l b) := by
  refine ⟨FMap.sorted_putD m 0 l b h.1, ?_⟩
  have hz := List.all_eq_true.1 h.2
  rw [List.all_eq_true]
  intro e he
  unfold FMap.putD at he
  split at he
  · exact hz e (FMap.mem_remove m l e he).1
  · rcases FMap.mem_insert' _ _ _ e he with rfl | he
    · simpa using by assumption
    · exact hz e (FMap.mem_remove m l e he).1

theorem Memory.wf_filter (m : Memory) (f : Host.Cell → Bool) (h : Memory.wf m) : Memory.wf (m.filter f) := by
  refine ⟨FMap.sorted_filter m f h.1, ?_⟩
  have hz := List.all_eq_true.1 h.2
  rw [List.all_eq_true]
  exact fun e he => hz e (List.mem_of_mem_filter he)

theorem State.setByte_wf (s : State) (l : Nat) (b : Byte) (h : Memory.wf s.mem) : Memory.wf (s.setByte l b).mem :=
  Memory.wf_putD s.mem l b h

theorem State.writeN_wf (s : State) (l n v : Nat) (h : Memory.wf s.mem) : Memory.wf (s.writeN l n v).mem := by
  induction n generalizing s l v with
  | zero => exact h
  | succ n ih => exact ih _ _ _ (State.setByte_wf s l _ h)

theorem State.writeBytes_wf (s : State) (l : Nat) (bs : List Byte) (h : Memory.wf s.mem) :
    Memory.wf (s.writeBytes l bs).mem := by
  induction bs generalizing s l with
  | nil => exact h
  | cons b bs ih => exact ih _ _ (State.setByte_wf s l b h)

theorem State.zeroRange_wf (s : State) (l n : Nat) (h : Memory.wf s.mem) : Memory.wf (s.zeroRange l n).mem :=
  Memory.wf_filter s.mem _ h

theorem foldl_setByte_wf (es : List Host.Cell) (f : Nat → Nat) (s : State) (h : Memory.wf s.mem) :
    Memory.wf (es.foldl (fun t e => t.setByte (f e.1) e.2) s).mem := by
  induction es generalizing s with
  | nil => exact h
  | cons e es ih => exact ih _ (State.setByte_wf s _ _ h)

theorem foldl_setPoison_mem (ls : List Nat) (f : Nat → Nat) (s : State) :
    (ls.foldl (fun t l => t.setPoison (f l)) s).mem = s.mem := by
  induction ls generalizing s with
  | nil => rfl
  | cons l ls ih => rw [List.foldl_cons, ih]; rfl

theorem State.moveRange_wf (s : State) (a b n : Nat) (h : Memory.wf s.mem) : Memory.wf (s.moveRange a b n).mem := by
  unfold State.moveRange
  simp only []
  rw [foldl_setPoison_mem _ (fun l => lineOf (b + (l * lineBytes - a)))]
  exact foldl_setByte_wf _ (fun x => b + (x - a)) _ (State.zeroRange_wf s b n h)

theorem State.reset_mem_wf : Memory.wf State.reset.mem := Memory.wf_nil

end Sys2Proof.Machine
end

