-- ==== Sys2Proof/Laws/Result.lean ====
section
/-!
SUPPORT. What the end of a word leaves: the destination written, the latches shifted, the lanes past the word, nothing else.
-/

namespace Sys2Proof.Machine

/-- A lane past a word at pc (02 R47; 01 R32). -/
def retired (pc : BitVec 64) (chn : Bool) (l : Lane) : Lane :=
  let l1 := { l with pc }
  if chn && decide (l1.chain < 7) then { l1 with chain := l1.chain + 1 } else { l1 with chain := 0 }

theorem retired_stays (pc : BitVec 64) (chn : Bool) (l : Lane) :
    retired pc chn l = { l with pc := pc, chain := (retired pc chn l).chain } := by
  unfold retired
  dsimp only
  split <;> rfl

theorem begun_stays (l : Lane) :
    begun l = { l with chainPc := (begun l).chainPc, block := .free, yielded := none, lat := (begun l).lat } := by
  unfold begun
  dsimp only
  split <;> rfl

theorem retireLanes_eq (G : Group) (ls : List Nat) (pc : BitVec 64) (chn : Bool) (npc : FMap (BitVec 64)) :
    retireLanes G ls pc chn npc = G.updLanes ls (fun i l => retired (npc.lookD (pc + 12) i) chn l) := rfl

theorem hints_lane? (G : Group) (t : Nat) (c : Ctl) (i : Nat) : (hints G t c).lane? i = G.lane? i := rfl

/-- The state after a word that is done, in its group. -/
theorem settle_done {x : Ctx} {c : Ctl} {s s' : State} {G : Group} (npc : FMap (BitVec 64))
    (h : s'.groups.look x.g = some G) :
    settle x c s (.done s' npc) =
      s'.setGroup x.g (hints (G.updLanes x.iss (fun i l => retired (npc.lookD (x.u.pc + 12) i) c.chn l)) s'.clock c) := by
  show s'.updGroup x.g _ = _
  unfold State.updGroup
  rw [h]
  rfl

/-! ### A destination written -/

/-- What a destination does in an active lane: the register, and l0. -/
def put (d : Dst) (wide : Bool) (y : Nat) (p : Bool) (l : Lane) : Lane :=
  match d with
  | .vec nw n =>
    let z := y % 2 ^ (if wide then 64 else 32)
    let l1 := if nw then l else l.setV n.toNat (BitVec.ofNat 32 z) p
    let l2 := if nw || !wide then l1 else l1.setV (n.toNat + 1) (BitVec.ofNat 32 (z / 2 ^ 32)) p
    l2.shift (BitVec.ofNat 64 z) p
  | .sca _ _ => l.shift (BitVec.ofNat 64 y) p
  | .pred nw n => (if nw then l else l.setPred n.toNat (y != 0)).shift (if y != 0 then 1 else 0) false
  | .acc _ => l

/-- A lane that did not execute takes a shift of its latches, or none. -/
def Shifted (l l' : Lane) : Prop := ∃ y p, l' = l.shift y p ∨ l' = l

theorem shiftLanes_lane? (G : Group) (ls : List Nat) (d : Dst) (wide : Bool) (i : Nat) :
    ∃ f : Lane → Lane, (∀ l, Shifted l (f l)) ∧
      (shiftLanes G ls d wide).lane? i = (G.lane? i).map (fun l => if ls.contains i then f l else l) := by
  refine ⟨fun l => match (ls.map (fun i => (i, dstContents G d wide i))).find? (fun e => e.1 == i) with
    | some (_, x, p) => l.shift x p
    | none => l, ?_, ?_⟩
  · intro l
    dsimp only
    split
    · exact ⟨_, _, Or.inl rfl⟩
    · exact ⟨0, false, Or.inr rfl⟩
  · exact Group.lane?_updLanes _ _ _ _

theorem shiftTags_lane? (G : Group) (t : Option Tag) (i : Nat) : (shiftTags G t).lane? i = G.lane? i := rfl

theorem setS_lane? (G : Group) (n : Nat) (y : DWord) (p : Bool) (i : Nat) : (G.setS n y p).lane? i = G.lane? i := by
  unfold Group.setS
  split <;> rfl

theorem setTag_lane? (G : Group) (n : Nat) (t : Option Tag) (i : Nat) : (G.setTag n t).lane? i = G.lane? i := rfl

theorem putDst_lane? (x : Ctx) (G : Group) (d : Dst) (wide : Bool) (val : Nat → Nat) (psn : Nat → Bool) (tag : Option Tag)
    (i : Nat) :
    ∃ f : Lane → Lane, (∀ l, Shifted l (f l)) ∧
      (putDst x G d wide val psn tag).lane? i = (G.lane? i).map (fun l =>
        if x.act.contains i then put d wide (val (x.src d i)) (psn (x.src d i)) l
        else if x.iss.contains i then f l else l) := by
  have key : ∀ (G1 : Group) (g : Nat → Lane → Lane),
      (∀ j, G1.lane? j = (G.lane? j).map (fun l => if x.act.contains j then g j l else l)) →
      ∃ f : Lane → Lane, (∀ l, Shifted l (f l)) ∧
        (shiftLanes G1 (x.iss.filter (fun i => !x.act.contains i)) d wide).lane? i = (G.lane? i).map (fun l : Lane =>
          if x.act.contains i then g i l else if x.iss.contains i then f l else l) := by
    intro G1 g h1
    obtain ⟨f, hf, h2⟩ := shiftLanes_lane? G1 (x.iss.filter (fun i => !x.act.contains i)) d wide i
    refine ⟨f, hf, ?_⟩
    rw [h2, h1, Option.map_map]
    congr 1
    funext l
    simp only [Function.comp_apply, List.contains_iff_mem, List.mem_filter, Bool.not_eq_true', ← Bool.not_eq_true]
    by_cases ha : i ∈ x.act <;> by_cases hi : i ∈ x.iss <;> simp [ha, hi]
  cases d with
  | vec nw n =>
    exact key (G.updLanes x.act (fun j l => put (.vec nw n) wide (val j) (psn j) l))
      (fun j l => put (.vec nw n) wide (val j) (psn j) l) (fun j => Group.lane?_updLanes _ _ _ _)
  | sca nw n =>
    exact key ((if nw then G else (G.setS n.toNat (BitVec.ofNat 64 (val x.low)) (psn x.low)).setTag n.toNat
        (if n = 0 then none else tag)).updLanes x.act (fun _ l => l.shift (BitVec.ofNat 64 (val x.low)) (psn x.low)))
      (fun j l => put (.sca nw n) wide (val x.low) (psn x.low) l) (fun j => by
        rw [Group.lane?_updLanes]
        cases nw
        · simp only [Bool.false_eq_true, if_false, setTag_lane?, setS_lane?]; rfl
        · rfl)
  | pred nw n =>
    exact key (G.updLanes x.act (fun j l => put (.pred nw n) wide (val j) (psn j) l))
      (fun j l => put (.pred nw n) wide (val j) (psn j) l) (fun j => Group.lane?_updLanes _ _ _ _)
  | acc n =>
    refine ⟨id, fun l => ⟨0, false, Or.inr rfl⟩, ?_⟩
    show G.lane? i = _
    rw [show (fun l => if x.act.contains i then put (.acc n) wide (val (x.src (.acc n) i)) (psn (x.src (.acc n) i)) l
      else if x.iss.contains i then id l else l) = (fun l : Lane => l) by funext l; simp [put]]
    simp

/-! ### The group around the lanes -/

theorem setS_stays (G : Group) (n : Nat) (y : DWord) (p : Bool) : GroupStays G (G.setS n y p) := by
  unfold GroupStays Group.setS
  split <;> rfl

theorem GroupStays.refl (G : Group) : GroupStays G G := rfl

theorem GroupStays.trans {A B C : Group} (h : GroupStays A B) (k : GroupStays B C) : GroupStays A C := by
  unfold GroupStays at *
  rw [h] at k
  rw [k]

theorem GroupStays.updLanes (G : Group) (ls : List Nat) (f : Nat → Lane → Lane) : GroupStays G (G.updLanes ls f) := rfl
theorem GroupStays.shiftTags (G : Group) (t : Option Tag) : GroupStays G (shiftTags G t) := rfl
theorem GroupStays.setTag (G : Group) (n : Nat) (t : Option Tag) : GroupStays G (G.setTag n t) := rfl
theorem GroupStays.hints (G : Group) (t : Nat) (c : Ctl) : GroupStays G (hints G t c) := rfl
theorem GroupStays.shiftLanes (G : Group) (ls : List Nat) (d : Dst) (wide : Bool) : GroupStays G (shiftLanes G ls d wide) :=
  GroupStays.updLanes G ls _

theorem putDst_stays (x : Ctx) (G : Group) (d : Dst) (wide : Bool) (val : Nat → Nat) (psn : Nat → Bool) (tag : Option Tag) :
    GroupStays G (putDst x G d wide val psn tag) := by
  cases d with
  | vec nw n =>
    unfold putDst
    exact (GroupStays.updLanes _ _ _).trans (GroupStays.shiftLanes _ _ _ _)
  | sca nw n =>
    unfold putDst
    refine GroupStays.trans ?_ (GroupStays.shiftTags _ _)
    refine GroupStays.trans ?_ (GroupStays.shiftLanes _ _ _ _)
    refine GroupStays.trans ?_ (GroupStays.updLanes _ _ _)
    cases nw
    · exact (setS_stays G n.toNat _ _).trans (GroupStays.setTag _ _ _)
    · exact GroupStays.refl G
  | pred nw n =>
    unfold putDst
    exact ((GroupStays.updLanes _ _ _).trans (GroupStays.shiftLanes _ _ _ _)).trans (GroupStays.shiftTags _ _)
  | acc n =>
    unfold putDst
    exact GroupStays.refl G

theorem sreg_updLanes (G : Group) (ls : List Nat) (f : Nat → Lane → Lane) (k : Nat) : (G.updLanes ls f).sreg k = G.sreg k := rfl
theorem sreg_shiftTags (G : Group) (t : Option Tag) (k : Nat) : (shiftTags G t).sreg k = G.sreg k := rfl
theorem sreg_setTag (G : Group) (n : Nat) (t : Option Tag) (k : Nat) : (G.setTag n t).sreg k = G.sreg k := rfl
theorem sreg_hints (G : Group) (t : Nat) (c : Ctl) (k : Nat) : (hints G t c).sreg k = G.sreg k := rfl
theorem sreg_shiftLanes (G : Group) (ls : List Nat) (d : Dst) (wide : Bool) (k : Nat) :
    (shiftLanes G ls d wide).sreg k = G.sreg k := sreg_updLanes G ls _ k

theorem sreg_setS (G : Group) (n : Nat) (y : DWord) (p : Bool) (k : Nat) :
    (G.setS n y p).sreg k = if k = n ∧ k ≠ 0 then y else G.sreg k := by
  unfold Group.setS Group.sreg
  by_cases hn : n = 0
  · by_cases hk : k = 0 <;> simp [hn, hk]
  · by_cases hk : k = 0
    · simp [hk]
    · by_cases hkn : k = n <;> simp [hn, hk, hkn]

/-- Scalar registers after a destination is written (02 R50). -/
theorem putDst_sreg (x : Ctx) (G : Group) (d : Dst) (wide : Bool) (val : Nat → Nat) (psn : Nat → Bool) (tag : Option Tag)
    (k : Nat) :
    (putDst x G d wide val psn tag).sreg k = if d.hasS k then BitVec.ofNat 64 (val x.low) else G.sreg k := by
  cases d with
  | vec nw n =>
    unfold putDst
    rw [sreg_shiftLanes, sreg_updLanes]
    simp [Sys2Proof.Dst.hasS]
  | pred nw n =>
    unfold putDst
    rw [sreg_shiftTags, sreg_shiftLanes, sreg_updLanes]
    simp [Sys2Proof.Dst.hasS]
  | acc n =>
    unfold putDst
    simp [Sys2Proof.Dst.hasS]
  | sca nw n =>
    unfold putDst
    rw [sreg_shiftTags, sreg_shiftLanes, sreg_updLanes]
    cases nw
    · simp only [Bool.false_eq_true, if_false, sreg_setTag, sreg_setS, Sys2Proof.Dst.hasS, Bool.not_false, Bool.true_and,
        Bool.and_eq_true, beq_iff_eq, bne_iff_ne, ne_eq]
    · simp [Sys2Proof.Dst.hasS]

/-! ### A lane that executed -/

theorem setV_stays (l : Lane) (n : Nat) (y : Word) (p : Bool) :
    l.setV n y p = { l with v := (l.setV n y p).v, vPsn := (l.setV n y p).vPsn } := rfl

theorem setPred_stays (l : Lane) (n : Nat) (b : Bool) : l.setPred n b = { l with p := (l.setPred n b).p } := by
  unfold Lane.setPred
  split <;> rfl

theorem LaneStays.refl (l : Lane) : LaneStays l l := rfl

theorem LaneStays.trans {a b c : Lane} (h : LaneStays a b) (k : LaneStays b c) : LaneStays a c := by
  unfold LaneStays at *
  rw [h] at k
  rw [k]

theorem LaneStays.shift (l : Lane) (y : DWord) (p : Bool) : LaneStays l (l.shift y p) := rfl
theorem LaneStays.setV (l : Lane) (n : Nat) (y : Word) (p : Bool) : LaneStays l (l.setV n y p) := rfl
theorem LaneStays.setPred (l : Lane) (n : Nat) (b : Bool) : LaneStays l (l.setPred n b) := by
  unfold LaneStays Lane.setPred
  split <;> rfl
theorem LaneStays.settleF (l : Lane) (v : FEnv) : LaneStays l (l.settleF v) := rfl
theorem LaneStays.begun (l : Lane) : LaneStays l (begun l) := by
  unfold LaneStays Sys2Proof.Machine.begun
  dsimp only
  split <;> rfl
theorem LaneStays.retired (l : Lane) (pc : BitVec 64) (chn : Bool) : LaneStays l (retired pc chn l) := by
  unfold LaneStays Sys2Proof.Machine.retired
  dsimp only
  split <;> rfl

theorem LaneStays.put (l : Lane) (d : Dst) (wide : Bool) (y : Nat) (p : Bool) : LaneStays l (put d wide y p l) := by
  cases d with
  | vec nw n => cases nw <;> cases wide <;> rfl
  | sca nw n => rfl
  | pred nw n =>
    cases nw
    · exact (LaneStays.setPred l n.toNat (y != 0)).trans rfl
    · rfl
  | acc n => rfl

theorem retired_regs (l : Lane) (pc : BitVec 64) (chn : Bool) : (retired pc chn l).v = l.v ∧ (retired pc chn l).vPsn = l.vPsn ∧
    (retired pc chn l).p = l.p ∧ (retired pc chn l).fflags = l.fflags ∧ (retired pc chn l).srctr = l.srctr ∧
    (retired pc chn l).lat = l.lat ∧ (retired pc chn l).pc = pc := by
  unfold retired
  dsimp only
  split <;> exact ⟨rfl, rfl, rfl, rfl, rfl, rfl, rfl⟩

@[simp] theorem Lane.vreg_setV (l : Lane) (n : Nat) (y : Word) (p : Bool) (k : Nat) :
    (l.setV n y p).vreg k = if k = n then y else l.vreg k := FMap.lookD_putD l.v 0 n y k

@[simp] theorem Lane.vreg_shift (l : Lane) (y : DWord) (p : Bool) (k : Nat) : (l.shift y p).vreg k = l.vreg k := rfl

theorem Lane.pred_setPred (l : Lane) (n : Nat) (b : Bool) (k : Nat) (hn : n < 16) :
    (l.setPred n b).pred k = if k = n ∧ k ≠ 15 then b else l.pred k := by
  unfold Lane.setPred
  by_cases h15 : n = 15
  · subst h15
    by_cases hk : k = 15 <;> simp [hk, Lane.pred]
  · simp only [beq_iff_eq, h15, if_false]
    unfold Lane.pred
    by_cases hk : k = 15
    · simp [hk]
    · have hkb : (k == 15) = false := by simpa using hk
      simp only [hkb, Bool.false_or]
      cases b
      · by_cases hkn : k = n
        · subst hkn
          simp [hk, hn]
        · simp [hk, hkn]
          by_cases hk16 : k < 16
          · simp [hk16]; intro _; omega
          · simp [BitVec.getLsbD_of_ge _ _ (Nat.le_of_not_lt hk16)]
      · by_cases hkn : k = n
        · subst hkn
          simp [hk, hn]
        · simp [hk, hkn]
          intro _; omega

theorem put_vreg (d : Dst) (wide : Bool) (y : Nat) (p : Bool) (l : Lane) (k : Nat) (h : d.hasV wide k = false) :
    (put d wide y p l).vreg k = l.vreg k := by
  cases d with
  | vec nw n =>
    cases nw <;> cases wide <;> simp_all [put, Sys2Proof.Dst.hasV]
  | sca nw n => rfl
  | pred nw n =>
    cases nw
    · show (l.setPred n.toNat (y != 0)).vreg k = _
      unfold Lane.vreg
      rw [setPred_stays]
    · rfl
  | acc n => rfl

theorem put_pred (d : Dst) (wide : Bool) (y : Nat) (p : Bool) (l : Lane) (k : Nat) (h : d.hasP k = false) :
    (put d wide y p l).pred k = l.pred k := by
  cases d with
  | vec nw n => cases nw <;> cases wide <;> rfl
  | sca nw n => rfl
  | pred nw n =>
    cases nw
    · show (l.setPred n.toNat (y != 0)).pred k = _
      rw [Lane.pred_setPred _ _ _ _ (by omega)]
      simp only [Sys2Proof.Dst.hasP, Bool.not_false, Bool.true_and, Bool.and_eq_false_iff, beq_eq_false_iff_ne, ne_eq,
        bne_eq_false_iff_eq] at h
      rw [if_neg]
      rintro ⟨h1, h2⟩
      exact h.elim (fun h => h h1) h2
    · rfl
  | acc n => rfl

/-! ### The whole word -/

theorem GroupStays.beginLanes (G : Group) (ls : List Nat) : GroupStays G (beginLanes G ls) := GroupStays.updLanes G ls _

theorem GroupStays.countRegion (G : Group) : GroupStays G (countRegion G) := by
  cases h : G.region with
  | none => rw [countRegion_none G h]; exact GroupStays.refl G
  | some r => rw [countRegion_some G r h]; unfold GroupStays; rfl

theorem countRegion_sreg (G : Group) (k : Nat) : (countRegion G).sreg k = G.sreg k := by
  cases h : G.region with
  | none => rw [countRegion_none G h]
  | some r => rw [countRegion_some G r h]; unfold Group.sreg; rfl

theorem Seen.stays {c : Ctl} {s s1 : State} {x : Ctx} {G0 : Group} (h : Seen c s x s1 G0) : GroupStays G0 x.G := by
  rw [h.group]
  exact (GroupStays.beginLanes _ _).trans (GroupStays.countRegion _)

theorem Seen.sreg {c : Ctl} {s s1 : State} {x : Ctx} {G0 : Group} (h : Seen c s x s1 G0) (k : Nat) :
    x.G.sreg k = G0.sreg k := by
  rw [h.group, countRegion_sreg]
  exact sreg_updLanes _ _ _ _

theorem Shifted.regs {l l' : Lane} (h : Shifted l l') : LaneStays l l' ∧ l'.v = l.v ∧ l'.vPsn = l.vPsn ∧ l'.p = l.p ∧
    l'.fflags = l.fflags ∧ l'.srctr = l.srctr := by
  obtain ⟨y, p, rfl | rfl⟩ := h
  · exact ⟨LaneStays.shift l y p, rfl, rfl, rfl, rfl, rfl⟩
  · exact ⟨LaneStays.refl _, rfl, rfl, rfl, rfl, rfl⟩

end Sys2Proof.Machine
end

