-- ==== Sys2Proof/Laws/Wrote.lean ====
section
/-!
SUPPORT. A word that writes one destination of its group leaves what Safety.lean's Wrote says.
-/

namespace Sys2Proof.Machine

/-! ### Poison marks of scalar registers (07 R179) -/

theorem spsn_setS (G : Group) (n : Nat) (y : DWord) (p : Bool) (k : Nat) :
    (G.setS n y p).spsn k = if k = n ∧ k ≠ 0 then p else G.spsn k := by
  unfold Group.setS Group.spsn
  by_cases hn : n = 0
  · by_cases hk : k = 0 <;> simp [hn, hk]
  · by_cases hk : k = 0
    · simp [hk]
    · by_cases hkn : k = n <;> cases p <;> simp [hn, hk, hkn]

theorem spsn_updLanes (G : Group) (ls : List Nat) (f : Nat → Lane → Lane) (k : Nat) : (G.updLanes ls f).spsn k = G.spsn k := rfl
theorem spsn_shiftTags (G : Group) (t : Option Tag) (k : Nat) : (shiftTags G t).spsn k = G.spsn k := rfl
theorem spsn_setTag (G : Group) (n : Nat) (t : Option Tag) (k : Nat) : (G.setTag n t).spsn k = G.spsn k := rfl
theorem spsn_hints (G : Group) (t : Nat) (c : Ctl) (k : Nat) : (hints G t c).spsn k = G.spsn k := rfl
theorem spsn_shiftLanes (G : Group) (ls : List Nat) (d : Dst) (wide : Bool) (k : Nat) :
    (shiftLanes G ls d wide).spsn k = G.spsn k := spsn_updLanes G ls _ k

theorem putDst_spsn (x : Ctx) (G : Group) (d : Dst) (wide : Bool) (val : Nat → Nat) (psn : Nat → Bool) (tag : Option Tag)
    (k : Nat) : (putDst x G d wide val psn tag).spsn k = if d.hasS k then psn x.low else G.spsn k := by
  cases d with
  | vec nw n =>
    unfold putDst
    rw [spsn_shiftLanes, spsn_updLanes]
    simp [Dst.hasS]
  | pred nw n =>
    unfold putDst
    rw [spsn_shiftTags, spsn_shiftLanes, spsn_updLanes]
    simp [Dst.hasS]
  | acc n =>
    unfold putDst
    simp [Dst.hasS]
  | sca nw n =>
    unfold putDst
    rw [spsn_shiftTags, spsn_shiftLanes, spsn_updLanes]
    cases nw
    · simp only [Bool.false_eq_true, if_false, spsn_setTag, spsn_setS, Dst.hasS, Bool.not_false, Bool.true_and,
        Bool.and_eq_true, beq_iff_eq, bne_iff_ne, ne_eq]
    · simp [Dst.hasS]

/-! ### An active lane -/

theorem Lane.vpsn_setV (l : Lane) (n : Nat) (y : Word) (p : Bool) (k : Nat) :
    (l.setV n y p).vpsn k = if k = n then p else l.vpsn k := by
  unfold Lane.setV Lane.vpsn
  by_cases hkn : k = n <;> cases p <;> simp [hkn]

@[simp] theorem Lane.vpsn_shift (l : Lane) (y : DWord) (p : Bool) (k : Nat) : (l.shift y p).vpsn k = l.vpsn k := rfl
@[simp] theorem Lane.pred_shift (l : Lane) (y : DWord) (p : Bool) (k : Nat) : (l.shift y p).pred k = l.pred k := rfl
@[simp] theorem Lane.lat_setV (l : Lane) (n : Nat) (y : Word) (p : Bool) : (l.setV n y p).lat = l.lat := rfl
@[simp] theorem Lane.lat_setPred (l : Lane) (n : Nat) (b : Bool) : (l.setPred n b).lat = l.lat := by
  rw [setPred_stays]

theorem ofNat_mod_lo (y : Nat) (wide : Bool) :
    BitVec.ofNat 32 (y % 2 ^ (if wide then 64 else 32)) = BitVec.ofNat 32 y := by
  apply BitVec.eq_of_toNat_eq
  cases wide <;> simp

theorem ofNat_mod_hi (y : Nat) : BitVec.ofNat 32 (y % 2 ^ 64 / 2 ^ 32) = BitVec.ofNat 32 (y / 2 ^ 32) := by
  apply BitVec.eq_of_toNat_eq
  simp only [BitVec.toNat_ofNat]
  omega

/-- An active lane takes the result. -/
theorem put_takes (d : Dst) (wide : Bool) (y : Nat) (p : Bool) (l0 l : Lane)
    (hl : l.lat.l0.val = l0.lat.l0.val ∧ l.lat.l1.val = l0.lat.l1.val ∧ l.lat.l2.val = l0.lat.l2.val) :
    LaneTakes l0 (put d wide y p l) d wide y p := by
  obtain ⟨h0, h1, h2⟩ := hl
  cases d with
  | vec nw n =>
    refine ⟨?_, ?_, ?_, ?_⟩
    · rintro m hm
      cases hm
      constructor
      · rw [← ofNat_mod_lo y wide]
        cases wide <;> simp [put]
      · cases wide <;> simp [put, Lane.vpsn_setV]
    · rintro m hm rfl
      cases hm
      constructor
      · rw [← ofNat_mod_hi y]
        simp [put]
      · simp [put, Lane.vpsn_setV]
    · rintro m hm
      cases hm
    · intro _
      cases nw <;> cases wide <;> exact ⟨by simp [put, Lane.shift, Dst.latched, Dst.isPred], h0, h1, h2⟩
  | sca nw n =>
    refine ⟨by (rintro m hm; cases hm), by (rintro m hm; cases hm), by (rintro m hm; cases hm), fun _ => ?_⟩
    exact ⟨by simp [put, Lane.shift, Dst.latched, Dst.isPred], h0, h1, h2⟩
  | pred nw n =>
    refine ⟨by (rintro m hm; cases hm), by (rintro m hm; cases hm), ?_, fun _ => ?_⟩
    · rintro m hm hne
      cases hm
      have h16 : n.toNat < 16 := by omega
      have h15 : n.toNat ≠ 15 := fun h => hne (BitVec.eq_of_toNat_eq h)
      simp [put, Lane.pred_setPred _ _ _ _ h16, h15]
    · cases nw
      · refine ⟨?_, ?_, ?_, ?_⟩ <;> simp [put, Lane.shift, Dst.latched, Dst.isPred, h0, h1, h2]
      · exact ⟨by simp [put, Lane.shift, Dst.latched, Dst.isPred], h0, h1, h2⟩
  | acc n =>
    exact ⟨by (rintro m hm; cases hm), by (rintro m hm; cases hm), by (rintro m hm; cases hm), fun h => absurd rfl (h n)⟩

/-! ### The whole word -/

/-- B is A but for its lanes and the record of an open region. -/
structure Touched (A B : Group) : Prop where
  eq : B = { A with lanes := B.lanes, region := B.region }
  region : B.region.isSome = A.region.isSome

theorem Touched.refl (G : Group) : Touched G G := ⟨rfl, rfl⟩

theorem Touched.trans {A B C : Group} (h : Touched A B) (k : Touched B C) : Touched A C := by
  refine ⟨?_, k.region.trans h.region⟩
  have h1 := h.eq
  have h2 := k.eq
  rw [h1] at h2
  rw [h2]

theorem Touched.stays {A B : Group} (h : Touched A B) : GroupStays A B := by
  unfold GroupStays
  rw [h.eq]

theorem Touched.sreg {A B : Group} (h : Touched A B) (k : Nat) : B.sreg k = A.sreg k := by
  rw [h.eq]; rfl

theorem Touched.spsn {A B : Group} (h : Touched A B) (k : Nat) : B.spsn k = A.spsn k := by
  rw [h.eq]; rfl

/-- The hints, the count and the open region's presence after a destination is written. -/
structure Same (A B : Group) : Prop where
  stall : B.stall = A.stall
  sb : B.sb = A.sb
  region : B.region.isSome = A.region.isSome
  arstat : B.arstat = A.arstat

theorem Same.refl (G : Group) : Same G G := ⟨rfl, rfl, rfl, rfl⟩
theorem Same.trans {A B C : Group} (h : Same A B) (k : Same B C) : Same A C :=
  ⟨k.stall.trans h.stall, k.sb.trans h.sb, k.region.trans h.region, k.arstat.trans h.arstat⟩
theorem Touched.same {A B : Group} (h : Touched A B) : Same A B :=
  ⟨by rw [h.eq], by rw [h.eq], h.region, by rw [h.eq]⟩

theorem Same.updLanes (G : Group) (ls : List Nat) (f : Nat → Lane → Lane) : Same G (G.updLanes ls f) := ⟨rfl, rfl, rfl, rfl⟩
theorem Same.shiftLanes (G : Group) (ls : List Nat) (d : Dst) (wide : Bool) : Same G (shiftLanes G ls d wide) := Same.updLanes G ls _
theorem Same.shiftTags (G : Group) (t : Option Tag) : Same G (shiftTags G t) := ⟨rfl, rfl, by simp [Machine.shiftTags], rfl⟩
theorem Same.setTag (G : Group) (n : Nat) (t : Option Tag) : Same G (G.setTag n t) := ⟨rfl, rfl, by simp [Group.setTag], rfl⟩
theorem Same.setS (G : Group) (n : Nat) (y : DWord) (p : Bool) : Same G (G.setS n y p) := by
  unfold Group.setS
  split <;> exact ⟨rfl, rfl, rfl, rfl⟩

theorem putDst_same (x : Ctx) (G : Group) (d : Dst) (wide : Bool) (val : Nat → Nat) (psn : Nat → Bool) (tag : Option Tag) :
    Same G (putDst x G d wide val psn tag) := by
  cases d with
  | vec nw n =>
    unfold putDst
    exact (Same.updLanes _ _ _).trans (Same.shiftLanes _ _ _ _)
  | sca nw n =>
    unfold putDst
    refine Same.trans ?_ (Same.shiftTags _ _)
    refine Same.trans ?_ (Same.shiftLanes _ _ _ _)
    refine Same.trans ?_ (Same.updLanes _ _ _)
    cases nw
    · exact (Same.setS G n.toNat _ _).trans (Same.setTag _ _ _)
    · exact Same.refl G
  | pred nw n =>
    unfold putDst
    exact ((Same.updLanes _ _ _).trans (Same.shiftLanes _ _ _ _)).trans (Same.shiftTags _ _)
  | acc n =>
    unfold putDst
    exact Same.refl G

/-- A group as a word's effect finds it: the count of an open region has risen, and nothing else that hints touch. -/
theorem Seen.counted {c : Ctl} {s s1 : State} {x : Ctx} {G0 : Group} (h : Seen c s x s1 G0) :
    x.G.stall = G0.stall ∧ x.G.sb = G0.sb ∧ x.G.region.isSome = G0.region.isSome ∧
      x.G.arstat = if G0.region.isSome then G0.arstat + BitVec.ofNat 64 (2 ^ 39) else G0.arstat := by
  rw [h.group]
  cases hr : G0.region with
  | none => rw [countRegion_none _ (by exact hr)]; exact ⟨rfl, rfl, by rw [← hr]; rfl, rfl⟩
  | some r => rw [countRegion_some _ r (by exact hr)]; exact ⟨rfl, rfl, by rw [← hr]; rfl, rfl⟩

theorem hints_taken {c : Ctl} {s s1 : State} {x : Ctx} {G0 : Group} (h : Seen c s x s1 G0) {B : Group} (hb : Same x.G B)
    (t : Nat) : HintsTaken c t G0 (hints B t c) := by
  obtain ⟨h1, h2, h3, h4⟩ := h.counted
  refine ⟨?_, ?_, ?_, ?_⟩
  · show (if stallDelay c.stall = 0 then B.stall else _) = _
    rw [hb.stall, h1]
  · intro k
    show (if c.ssb = 0 then B.sb else B.sb.putD 0 c.ssb.toNat (B.sb.lookD 0 c.ssb.toNat + 1)).lookD 0 k = _
    rw [hb.sb, h2]
    by_cases hz : c.ssb = 0
    · simp [hz]
    · simp only [hz, if_false, FMap.lookD_putD, ne_eq, not_false_eq_true, true_and]
      by_cases hk : k = c.ssb.toNat
      · simp [hk]
      · simp [hk]
  · exact hb.region.trans h3
  · exact hb.arstat.trans h4

theorem countRegion_spsn (G : Group) (k : Nat) : (countRegion G).spsn k = G.spsn k := by
  cases h : G.region with
  | none => rw [countRegion_none G h]
  | some r => rw [countRegion_some G r h]; unfold Group.spsn; rfl

theorem put_flags (d : Dst) (wide : Bool) (y : Nat) (p : Bool) (l : Lane) :
    (put d wide y p l).fflags = l.fflags ∧ (put d wide y p l).srctr = l.srctr := by
  cases d with
  | vec nw n => cases nw <;> cases wide <;> exact ⟨rfl, rfl⟩
  | sca nw n => exact ⟨rfl, rfl⟩
  | pred nw n =>
    cases nw
    · show (l.setPred n.toNat (y != 0)).fflags = _ ∧ (l.setPred n.toNat (y != 0)).srctr = _
      rw [setPred_stays]
      exact ⟨rfl, rfl⟩
    · exact ⟨rfl, rfl⟩
  | acc n => exact ⟨rfl, rfl⟩

/-- What a word that writes a destination in its own group leaves: `G1` is the group before the destination is written, in
which active lanes have changed by `pre` in their flags and counters at most; `sX` is the state that the word's own part leaves
outside its group. -/
theorem done_wrote {c : Ctl} {s s1 : State} {x : Ctx} {G0 : Group} (h : Seen c s x s1 G0) (sX : State)
    (hX : sX.groups = s1.groups) (G1 : Group)
    (hst : Touched x.G G1) (pre : Nat → Lane → Lane)
    (hl : ∀ i, G1.lane? i = (x.G.lane? i).map (fun l => if x.act.contains i then pre i l else l))
    (hpre : ∀ i l, pre i l = { l with fflags := (pre i l).fflags, srctr := (pre i l).srctr })
    (d : Dst) (wide : Bool) (res : Nat → FEnv × Nat) (psn : Nat → Bool) (tag : Option Tag) (npc : FMap (BitVec 64))
    (hfl : ∀ i ∈ x.act, ∀ l, G0.lane? i = some l → (pre i (begun l)).fflags = l.fflags ||| (res i).1.fl ∧
      (pre i (begun l)).srctr = (res i).1.ctr) :
    Wrote c x { sX with groups := s.groups } (settle x c s1 (.done (sX.setGroup x.g (putDst x G1 d wide (fun i => (res i).2) psn tag)) npc)) d wide res psn
      (fun i => npc.lookD (x.u.pc + 12) i) := by
  have hpre1 : ∀ i l, LaneStays l (pre i l) := fun i l => by rw [hpre]; exact rfl
  have hpre2 : ∀ i l, (pre i l).v = l.v ∧ (pre i l).vPsn = l.vPsn ∧ (pre i l).p = l.p ∧ (pre i l).lat = l.lat := fun i l => by
    rw [hpre]; exact ⟨rfl, rfl, rfl, rfl⟩
  have hg : (sX.setGroup x.g (putDst x G1 d wide (fun i => (res i).2) psn tag)).groups.look x.g =
      some (putDst x G1 d wide (fun i => (res i).2) psn tag) := by
    rw [State.look_setGroup, if_pos rfl]
  rw [settle_done npc hg]
  have hclk : (sX.setGroup x.g (putDst x G1 d wide (fun i => (res i).2) psn tag)).clock = sX.clock := rfl
  rw [hclk]
  set G := hints ((putDst x G1 d wide (fun i => (res i).2) psn tag).updLanes x.iss
    (fun i l => retired (npc.lookD (x.u.pc + 12) i) c.chn l)) sX.clock c with hG
  have hlane : ∀ i, ∃ f : Lane → Lane, (∀ l, Shifted l (f l)) ∧ G.lane? i = (G0.lane? i).map (fun l =>
      if x.act.contains i then retired (npc.lookD (x.u.pc + 12) i) c.chn
        (put d wide (res (x.src d i)).2 (psn (x.src d i)) (pre i (begun l)))
      else if x.iss.contains i then retired (npc.lookD (x.u.pc + 12) i) c.chn (f (begun l)) else l) := by
    intro i
    obtain ⟨f, hf, hp⟩ := putDst_lane? x G1 d wide (fun i => (res i).2) psn tag i
    refine ⟨f, hf, ?_⟩
    rw [hG, hints_lane?, Group.lane?_updLanes, hp, hl, h.lane_group, Option.map_map, Option.map_map, Option.map_map]
    congr 1
    funext l
    simp only [Function.comp_apply]
    by_cases ha : i ∈ x.act
    · have hi := h.act_sub ha
      simp [ha, hi]
    · by_cases hi : i ∈ x.iss <;> simp [ha, hi]
  have hsub : ∀ i, i ∈ x.act → i ∈ x.iss := fun i hi => h.act_sub hi
  have hsame : Same x.G ((putDst x G1 d wide (fun i => (res i).2) psn tag).updLanes x.iss
      (fun i l => retired (npc.lookD (x.u.pc + 12) i) c.chn l)) :=
    hst.same.trans ((putDst_same x G1 d wide (fun i => (res i).2) psn tag).trans (Same.updLanes _ _ _))
  refine ⟨G0, G, ⟨h.before, ?_, ?_, ?_⟩, ?_, hints_taken h hsame _, ⟨?_, ?_, ?_, ?_⟩, ?_, ?_, ?_⟩
  · rw [State.look_setGroup, if_pos rfl]
  · rfl
  · intro g hne
    rw [State.look_setGroup, if_neg hne, State.look_setGroup, if_neg hne, hX, h.look, if_neg hne]
  · exact (h.stays.trans hst.stays).trans ((putDst_stays x G1 d wide (fun i => (res i).2) psn tag).trans
      ((GroupStays.updLanes _ _ _).trans (GroupStays.hints _ _ _)))
  · intro i hi
    obtain ⟨f, _, hf⟩ := hlane i
    have ha : i ∉ x.act := fun ha => hi (hsub i ha)
    rw [hf]
    simp [ha, hi]
  · intro i hi
    obtain ⟨l, hl0, -, -⟩ := h.lane hi
    obtain ⟨f, hf1, hf⟩ := hlane i
    rw [hl0] at hf
    by_cases ha : i ∈ x.act
    · simp only [Option.map_some, List.contains_iff_mem, ha, if_true] at hf
      refine ⟨l, _, hl0, hf, ?_, ?_⟩
      · exact (retired_regs _ _ _).2.2.2.2.2.2
      · exact ((LaneStays.begun l).trans (hpre1 i _)).trans ((LaneStays.put _ _ _ _ _).trans (LaneStays.retired _ _ _))
    · simp only [Option.map_some, List.contains_iff_mem, ha, hi, if_true, if_false] at hf
      refine ⟨l, _, hl0, hf, ?_, ?_⟩
      · exact (retired_regs _ _ _).2.2.2.2.2.2
      · exact (LaneStays.begun l).trans ((hf1 _).regs.1.trans (LaneStays.retired _ _ _))
  · intro i hi ha l l' hl0 hl'
    obtain ⟨f, hf1, hf⟩ := hlane i
    rw [hl', hl0] at hf
    simp only [Option.map_some, List.contains_iff_mem, ha, hi, if_true, if_false, Option.some.injEq] at hf
    subst hf
    have h1 := retired_regs (f (begun l)) (npc.lookD (x.u.pc + 12) i) c.chn
    have h2 := (hf1 (begun l)).regs.2
    have h3 := begun_regs l
    exact ⟨by rw [h1.1, h2.1, h3.1], by rw [h1.2.1, h2.2.1, h3.2.1], by rw [h1.2.2.1, h2.2.2.1, h3.2.2.1],
      by rw [h1.2.2.2.1, h2.2.2.2.1, h3.2.2.2.1], by rw [h1.2.2.2.2.1, h2.2.2.2.2, h3.2.2.2.2]⟩
  · intro i ha l l' hl0 hl'
    obtain ⟨f, _, hf⟩ := hlane i
    rw [hl', hl0] at hf
    simp only [Option.map_some, List.contains_iff_mem, ha, if_true, Option.some.injEq] at hf
    subst hf
    have h1 := retired_regs (put d wide (res (x.src d i)).2 (psn (x.src d i)) (pre i (begun l))) (npc.lookD (x.u.pc + 12) i) c.chn
    have h2 := hpre2 i (begun l)
    have h3 := begun_regs l
    constructor
    · intro k hk
      unfold Lane.vreg
      rw [h1.1]
      have := put_vreg d wide (res (x.src d i)).2 (psn (x.src d i)) (pre i (begun l)) k hk
      unfold Lane.vreg at this
      rw [this, h2.1, h3.1]
    · intro k hk
      unfold Lane.pred
      rw [h1.2.2.1]
      have := put_pred d wide (res (x.src d i)).2 (psn (x.src d i)) (pre i (begun l)) k hk
      unfold Lane.pred at this
      rw [this, h2.2.2.1, h3.2.2.1]
  · intro k
    rw [hG, sreg_hints, sreg_updLanes, putDst_sreg, hst.sreg, h.sreg]
  · intro k
    rw [hG, spsn_hints, spsn_updLanes, putDst_spsn, hst.spsn, h.group, countRegion_spsn]
    rfl
  · intro i ha l l' hl0 hl'
    obtain ⟨f, _, hf⟩ := hlane i
    rw [hl', hl0] at hf
    simp only [Option.map_some, List.contains_iff_mem, ha, if_true, Option.some.injEq] at hf
    subst hf
    have h1 := retired_regs (put d wide (res (x.src d i)).2 (psn (x.src d i)) (pre i (begun l))) (npc.lookD (x.u.pc + 12) i) c.chn
    have h2 := put_flags d wide (res (x.src d i)).2 (psn (x.src d i)) (pre i (begun l))
    have h3 := hfl i ha l hl0
    have h4 := begun_lats l
    refine ⟨?_, ?_, ?_⟩
    · have ht := put_takes d wide (res (x.src d i)).2 (psn (x.src d i)) l (pre i (begun l))
        (by rw [(hpre2 i (begun l)).2.2.2]; exact h4)
      generalize put d wide (res (x.src d i)).2 (psn (x.src d i)) (pre i (begun l)) = q at ht h1
      refine ⟨?_, ?_, ?_, ?_⟩
      · intro n hn
        have := ht.vec n hn
        unfold Lane.vreg Lane.vpsn at *
        rw [h1.1, h1.2.1]
        exact this
      · intro n hn hw
        have := ht.pair n hn hw
        unfold Lane.vreg Lane.vpsn at *
        rw [h1.1, h1.2.1]
        exact this
      · intro n hn hne
        have := ht.pred n hn hne
        unfold Lane.pred at *
        rw [h1.2.2.1]
        exact this
      · intro hne
        have := ht.latch hne
        unfold LatchesShift at *
        rw [h1.2.2.2.2.2.1]
        exact this
    · rw [h1.2.2.2.1, h2.1, h3.1]
    · rw [h1.2.2.2.2.1, h2.2, h3.2]

end Sys2Proof.Machine
end

