-- ==== Sys2Proof/Laws/Shapes.lean ====
section
/-!
SUPPORT. The shapes that most instructions have: what a scalar form, a lane form and a word of one plain destination do when
their group is ready.
-/

namespace Sys2Proof.Machine

theorem look_mapped {α : Type} (ls : List Nat) (f : Nat → α) (i : Nat) :
    FMap.look (ls.map (fun i => (i, f i))) i = if i ∈ ls then some (f i) else none := by
  induction ls with
  | nil => rfl
  | cons j ls ih =>
    simp only [List.map_cons, FMap.look, List.mem_cons]
    by_cases hj : j = i
    · subst hj; simp
    · have : i ≠ j := fun h => hj h.symm
      simp [hj, this, ih]

/-! ### Pins of an open region touch nothing else (09 R214) -/

theorem Touched.region_map (G : Group) (f : Region → Region) : Touched G { G with region := G.region.map f } :=
  ⟨rfl, by simp⟩

theorem pin_touched (G : Group) (k : Nat) : Touched G (G.pin k) := Touched.region_map G _

theorem pin_lane? (G : Group) (k i : Nat) : (G.pin k).lane? i = G.lane? i := rfl

theorem pinAll_touched (G : Group) (srcs : List Src) : Touched G (pinAll G srcs) := by
  unfold pinAll
  induction srcs generalizing G with
  | nil => exact Touched.refl G
  | cons a srcs ih =>
    simp only [List.foldl_cons]
    refine Touched.trans ?_ (ih _)
    split
    · exact pin_touched G _
    · exact Touched.refl G

theorem pinAll_lanes (G : Group) (srcs : List Src) : (pinAll G srcs).lanes = G.lanes := by
  unfold pinAll
  induction srcs generalizing G with
  | nil => rfl
  | cons a srcs ih =>
    simp only [List.foldl_cons]
    rw [ih]
    split <;> rfl

/-! ### A lane as a ready word finds it -/

theorem Seen.env {c : Ctl} {s s1 : State} {x : Ctx} {G0 : Group} (h : Seen c s x s1 G0) {i : Nat} (hi : i ∈ x.iss) {l : Lane}
    (hl : G0.lane? i = some l) : x.G.lane? i = some (begun l) := by
  rw [h.lane_group, hl]
  simp [hi]

theorem Seen.env_ctr {c : Ctl} {s s1 : State} {x : Ctx} {G0 : Group} (h : Seen c s x s1 G0) {i : Nat} (hi : i ∈ x.iss) {l : Lane}
    (hl : G0.lane? i = some l) : (x.env i).ctr = l.srctr ∧ (x.env i).fl = 0 := by
  unfold Ctx.env
  rw [h.env hi hl]
  exact ⟨(begun_regs l).2.2.2.2, rfl⟩

/-- The lowest-numbered active lane is active. -/
theorem Seen.low_mem {c : Ctl} {s s1 : State} {x : Ctx} {G0 : Group} (h : Seen c s x s1 G0) : x.low ∈ x.act := by
  unfold Ctx.low
  have := h.some_act
  cases ha : x.act with
  | nil => exact absurd ha this
  | cons a as => simp

theorem Seen.under {c : Ctl} {s s1 : State} {x : Ctx} {G0 : Group} (h : Seen c s x s1 G0) :
    ({ s1 with groups := s.groups } : State) = s := by
  rw [h.state]; rfl

/-- A word whose own part writes one destination, without flags or draws, into a group that differs from the one it found in an
open region's record at most; `sX` is the state that it leaves outside its group. -/
theorem plain_wrote_in {c : Ctl} {m : Meta} {s s1 : State} {x : Ctx} (h : ready c m s = some (x, s1)) (sX : State)
    (hX : sX.groups = s1.groups) (d : Dst) (wide : Bool) (G1 : Group) (hst : Touched x.G G1) (hl : G1.lanes = x.G.lanes)
    (val : Nat → Nat) (psn : Nat → Bool) (tag : Option Tag) (npc : FMap (BitVec 64)) :
    Wrote c x { sX with groups := s.groups } (settle x c s1 (.done (sX.setGroup x.g (putDst x G1 d wide val psn tag)) npc)) d wide
      (fun i => (x.env i, val i)) psn (fun i => npc.lookD (x.u.pc + 12) i) := by
  obtain ⟨G0, hs⟩ := ready_seen h
  refine done_wrote hs sX hX G1 hst (fun _ l => l) ?_ (fun _ _ => rfl) d wide (fun i => (x.env i, val i)) psn tag npc ?_
  · intro i
    unfold Group.lane?
    rw [hl]
    simp
  · intro i hi l hl0
    obtain ⟨h1, h2⟩ := hs.env_ctr (hs.act_sub hi) hl0
    rw [h1, h2]
    exact ⟨by rw [(begun_regs l).2.2.2.1]; simp, (begun_regs l).2.2.2.2⟩

/-- The same where nothing outside the group changes. -/
theorem plain_wrote {c : Ctl} {m : Meta} {s s1 : State} {x : Ctx} (h : ready c m s = some (x, s1)) (d : Dst) (wide : Bool)
    (G1 : Group) (hst : Touched x.G G1) (hl : G1.lanes = x.G.lanes) (val : Nat → Nat) (psn : Nat → Bool) (tag : Option Tag) :
    Wrote c x s (settle x c s1 (.done (s1.setGroup x.g (putDst x G1 d wide val psn tag)) [])) d wide
      (fun i => (x.env i, val i)) psn x.next := by
  obtain ⟨G0, hs⟩ := ready_seen h
  have := plain_wrote_in h s1 rfl d wide G1 hst hl val psn tag []
  rw [hs.under] at this
  exact this

/-- A scalar form (04 R98). -/
theorem scalarOp_wrote {c : Ctl} {d : Dst} {srcs : List Src} {s s1 : State} {x : Ctx} (f : Ctx → Nat)
    (h : ready c { (({} : Meta).reads false (srcs.map (fun a => (a, false)))).write d false with allow := .yes } s = some (x, s1)) :
    ∃ t, scalarOp c d srcs s f = .next t ∧ Wrote c x s t d false (fun i => (x.env i, f x)) (fun _ => false) x.next :=
  ⟨_, issueWord_ready h _, plain_wrote h d false _ (pinAll_touched _ _) (pinAll_lanes _ _) _ _ _⟩

/-- Flags raised and draws made by lanes, then their values written (05 R121). -/
theorem lanes_wrote {c : Ctl} {m : Meta} {s s1 : State} {x : Ctx} (h : ready c m s = some (x, s1)) (d : Dst) (wide : Bool)
    (res : FMap (FEnv × Nat)) (r : Nat → FEnv × Nat) (hr : ∀ i ∈ x.act, res.look i = some (r i)) :
    Wrote c x s (settle x c s1 (.done (s1.setGroup x.g (putLanes x x.G d wide res)) [])) d wide r (fun _ => false) x.next := by
  obtain ⟨G0, hs⟩ := ready_seen h
  have h2 := done_wrote hs s1 rfl (x.G.updLanes x.act (fun i l => match res.look i with | some r => l.settleF r.1 | none => l))
    ⟨rfl, rfl⟩ (fun i l => match res.look i with | some r => l.settleF r.1 | none => l)
    (fun i => Group.lane?_updLanes _ _ _ _) (fun i l => by split <;> rfl) d wide
    (fun i => match res.look i with | some q => q | none => ((r i).1, 0)) (fun _ => false) none []
    (fun i hi l hl0 => by
      simp only [hr i hi]
      exact ⟨by show (begun l).fflags ||| _ = _; rw [(begun_regs l).2.2.2.1], rfl⟩)
  rw [hs.under] at h2
  obtain ⟨G0', G, a1, a2, a3, a4, a5, a6, a7⟩ := h2
  refine ⟨G0', G, ?_, a2, a3, a4, ?_, ?_, ?_⟩
  · convert a1 using 6
    unfold putLanes putPlain
    refine congrArg (fun v => putDst x _ d wide v _ none) (funext fun i => ?_)
    cases res.look i <;> rfl
  · intro k
    rw [a5]
    simp only [hr x.low hs.low_mem]
  · intro k
    rw [a6]
  · intro i hi l l' hl hl'
    have hx : x.src d i ∈ x.act := by cases d <;> first | exact hi | exact hs.low_mem
    simpa only [hr i hi, hr _ hx] using a7 i hi l l' hl hl'

/-- A lane form (05 R121). -/
theorem laneOp_wrote {c : Ctl} {d : Dst} {wide : Bool} {srcs : List (Src × Bool)} {s s1 : State} {x : Ctx}
    (f : Ctx → Nat → FEnv → FEnv × Nat) (h : ready c ((({} : Meta).reads true srcs).write d wide) s = some (x, s1)) :
    ∃ t, laneOp c d wide srcs s f = .next t ∧ Wrote c x s t d wide (fun i => f x i (x.env i)) (fun _ => false) x.next := by
  refine ⟨_, issueWord_ready h _, lanes_wrote h d wide _ (fun i => f x i (x.env i)) ?_⟩
  intro i hi
  obtain ⟨G0, hs⟩ := ready_seen h
  obtain ⟨l, hl, -, -⟩ := hs.lane (hs.act_sub hi)
  rw [look_mapped, if_pos hi]
  unfold Ctx.env
  rw [hs.env (hs.act_sub hi) hl]

end Sys2Proof.Machine
end

