-- ==== Sys2Proof/Tests/Slice0.lean ====
section
/-!
SUPPORT. Tests of the model and witnesses of its statements. A test's expected value stands in the spec at the rule that its comment
names, or follows from that rule by hand; a witness shows a state and operands that meet the hypotheses of a statement.
-/

namespace Sys2Proof.Tests

set_option Elab.async false

open Sys2Proof.Machine

/-! ### Helpers -/

/-- A word from its three parcels (02 R47). -/
def word (p0 p1 p2 : Nat) : Nat := p0 + 2 ^ 32 * p1 + 2 ^ 64 * p2

/-- No hints, the guard that always passes. -/
def ctl : Ctl := ⟨15, 0, false, 0, 0, false⟩
def opA (dst : Dst) (a b c : Src) (ty : Ty) : OpA := ⟨dst, a, b, c, ty, .rne, false, false, false, false, false, false, false, 0⟩
def opE (a b : Src) (imm : BitVec 32) : OpE := ⟨.vec false 0, a, b, imm⟩
def opM (dst : Dst) (base : Src) (off : BitVec 24) : OpM := ⟨dst, base, .vreg 0, 0, 0, 0, off⟩
def opT (dst : Dst) (base b c : Src) (ty : Ty) : OpT := ⟨dst, base, b, c, ty, 0, 0, 0⟩
def v0 : Src := .vreg 0

def enc (i : Instr) : Nat := (encode i).elim 0 BitVec.toNat

/-- An instruction in place, and the same with its word being issued (log 1). -/
def placed (i : Instr) : State := State.reset.withFetchWord 96 (enc i)
def turn (i : Instr) : State := coreTurn { placed i with agenda := [] } 0 0
/-- The state before an event: the group stands at a TRAP and issues nothing. -/
def idle : State := { placed (.trap ctl (opE v0 v0 0)) with agenda := [] }

def inGroup (f : Group → Group) (s : State) : State := s.updGroup 1 f
def inLanes (f : Lane → Lane) (s : State) : State := inGroup (fun G => { G with lanes := G.lanes.map f }) s
def inPart (f : Part → Part) (s : State) : State := s.updPart 0 f
def inLaunch (f : Launch → Launch) (s : State) : State := s.updLaunch 0 f
def inCore (f : Core → Core) (s : State) : State := s.updCore 0 0 f
def inTile (f : Tile → Tile) (s : State) : State := s.updTile 0 f

def goes (o : Host.Outcome State Fault Refusal) : Bool := match o with | .next _ => true | _ => false

/-- What an instruction leaves of group 1, of its lane 0, and of partition 0. -/
def after (i : Instr) (s : State) (p : State → Bool) : Bool := match exec i s with | .next t => p t | _ => false
def groupIs (p : Group → Bool) (t : State) : Bool := (t.groups.look 1).any p
def laneIs (p : Lane → Bool) (t : State) : Bool := groupIs (fun G => (G.lane? 0).any p) t
def partIs (p : Part → Bool) (t : State) : Bool := (t.parts.look 0).any p

/-- Is a word ready, and what then holds of what it sees? -/
def readyFor (c : Ctl) (m : Meta) (s : State) (p : Ctx → State → Bool) : Bool := match ready c m s with | some q => p q.1 q.2 | none => false
/-- Does an access prepared by a word go, and what then holds? -/
def goesFor (x : Ctx) (s : State) (how : How) (posted whole : Bool) (n : Nat) (accs : List (Nat × Nat)) (p : State → List LaneAcc → Bool) : Bool :=
  match prepare x s how posted whole n accs with | .go t ps _ => p t ps | _ => false

/-! ### Decoding and forms -/

/-- Words of the spec's own examples: FFMA (02 R62). -/
theorem test_decode_ffma : decodeTableWord 96 (word 0x00085000 0x08050000 0x40318080) =
    some (.ffma { ctl with guard := 3, stall := 2, chn := true } (opA (.vec false 4) (.vreg 1) (.vreg 2) (.vreg 4) .f32)) := by decide +kernel
/-- The pair word of 02 R62. -/
theorem test_decode_pair : (match decodeTableWord 96 (word 0x20410002 0x000A2100 0xFA500A28) with
    | some (.pairWord p) => p.guard == 18 && p.i && p.sop == 0 && p.sd == 5 && p.sa == 5 && p.sb == 1 && p.vop == 17 && p.vd == 8 &&
        p.va == 1 && p.vb == 2 && p.vc == 8 && p.stall == 1 && !p.chn
    | _ => false) = true := by decide +kernel
/-- SEXT (04 R104). -/
theorem test_decode_sext : decodeTableWord 96 (word 0x98000000 0x1E186000 0x0137A0E8) =
    some (.sext ctl { opA (.sca false 7) (.sreg 3) (.imm 12) v0 .i64 with aux := 19 }) := by decide +kernel
/-- CVTF8, quarter 0 and the addend's half kept in v6 (05). -/
theorem test_decode_cvtf8 : decodeTableWord 96 (word 0x000C0000 0x08056204 0x603780C0) =
    some (.cvtf8 ctl { opA (.vec false 6) (.vreg 1) (.vreg 2) (.vreg 6) .e4m3 with sat := true, aux := 0x80 }) := by decide +kernel
/-- ST.n32 with an index, release at partition scope and an offset of 64 (07). -/
theorem test_decode_st : decodeTableWord 96 (word 0x00800000 0x10032600 0x842780A8) =
    some (.st ctl 2 ⟨.vec false 5, .sreg 2, .vreg 1, 2, 2, 3, 0x40⟩) := by decide +kernel
/-- BRA back by 48 under p1 (08). -/
theorem test_decode_bra : decodeTableWord 96 (word 0xFFA00000 0x0001FFFF 0xE0008000) =
    some (.bra { ctl with guard := 1 } (opE v0 v0 0xFFFFFFD0)) := by decide +kernel
/-- MMA with RU (11), ERET (12), TRAP 42 (12). -/
theorem test_decode_mma : decodeTableWord 96 (word 0x800 0x10000000 0xD0078008) = some (.mma ctl true (opE (.sreg 2) v0 0)) := by decide +kernel
theorem test_decode_eret : decodeTableWord 96 (word 0 0 0xF4278000) = some (.eret ctl (opE v0 v0 0)) := by decide +kernel
theorem test_decode_trap : decodeTableWord 96 (word 0x00540000 0 0xF4078000) = some (.trap ctl (opE v0 v0 42)) := by decide +kernel
/-- ARB.ser with its fallback (09), BAR.p (08), the exact CPY (10), COLL.lossy (10), STN.n (07), NMO.cas2 (10): their instructions. -/
theorem test_decode_names : ([word 0x00C20000 0 0xF0078000, word 0 0x5000 0xE4078000, word 0x020C0000 0x220A8000 0xC0078008,
      word 0 0x20000000 0xC2478008, word 0 0 0x912100A8, word 0 0x52000D80 0xB4078008].map (fun w =>
    match decodeTableWord 96 w with
    | some (.arb _ _) => 1 | some (.bar _ _) => 2 | some (.cpy _ _) => 3 | some (.collLossy _ _) => 4 | some (.stn _ _ _ _) => 5
    | some (.nmoCas2 _ _) => 6 | _ => 0)) = [1, 2, 3, 4, 5, 6] := by decide +kernel
/-- GREDM, MSCL, RND, VSEL, SST, SLEEP, ACCST, CBWAIT.full (06, 04, 03, 05, 07, 08, 11, 10): their instructions. -/
theorem test_decode_more : ([word 0x08000000 0x08050000 0x70778080, word 0x0A0C0000 0x10070000 0x70878080,
      word 0 0x282CC000 0x605782C8, word 0x10000000 0x3C404000 0x21378220,
      word 0 0x38002800 0x88A7A108, word 0x0D400000 3 0xE0810000, word 0x020C0000 0x220A6800 0xD0478008, word 0 0 0xC417A180].map (fun w =>
    match decodeTableWord 96 w with
    | some (.gredm _ _) => 1 | some (.mscl _ _) => 2 | some (.rnd _ _) => 3 | some (.vsel _ _) => 4 | some (.sst _ _ _) => 5
    | some (.sleep _ _) => 6 | some (.accst _ _) => 7 | some (.cbwaitFull _ _) => 8 | _ => 0)) = [1, 2, 3, 4, 5, 6, 7, 8] := by decide +kernel
/-- An unassigned major opcode, an unassigned function code, and a word with one of bits 3:0 set are refused (02 R59, R62). -/
theorem test_decode_refuses : ([word 0 0 (0x02 * 2 ^ 26 + 15 * 2 ^ 15), word 0 0 (0x3D * 2 ^ 26 + 7 * 2 ^ 20 + 15 * 2 ^ 15), word 1 0 0xF4278000,
    word 0 0 (0x3D * 2 ^ 26 + 2 * 2 ^ 20 + 31 * 2 ^ 15)].map (decodeTableWord 96)) = [none, none, none, none] := by decide +kernel

/-- One ill-formed term for each check of the forms: the reserved guard; a type, a destination, a modifier, an auxiliary field, a
source kind or an unused field that the instruction does not take; an ordering, a scope, a count, a barrier's domain; a pair field. -/
theorem test_wf_refuses : ([
    .sadd { ctl with guard := 31 } (opA (.sca false 1) (.sreg 1) (.sreg 2) v0 .i64), .sadd ctl (opA (.sca false 1) (.sreg 1) (.sreg 2) v0 .f32),
    .sadd ctl (opA (.vec false 1) (.sreg 1) (.sreg 2) v0 .i64), .sadd ctl { opA (.sca false 1) (.sreg 1) (.sreg 2) v0 .i64 with nga := true },
    .sadd ctl { opA (.sca false 1) (.sreg 1) (.sreg 2) v0 .i64 with aux := 1 }, .sadd ctl (opA (.sca false 1) (.vreg 3) (.sreg 2) v0 .i64),
    .sadd ctl (opA (.sca false 1) (.sreg 1) (.sreg 2) (.sreg 1) .i64), .sshr ctl (opA (.sca false 1) (.sreg 1) (.sreg 2) v0 .i32),
    .scmp ctl { opA (.pred false 1) (.sreg 1) (.sreg 2) v0 .i64 with aux := 6 }, .vadd ctl (opA (.vec false 1) (.vreg 2) (.vreg 4) v0 .i64),
    .vmul ctl { opA (.vec false 1) (.vreg 2) (.vreg 4) v0 .i32 with sat := true }, .vshl ctl { opA (.vec false 1) (.vreg 2) (.vreg 4) v0 .i32 with rm := .rtz },
    .fadd ctl { opA (.vec false 1) (.vreg 2) (.vreg 4) v0 .f32 with sat := true }, .fadd ctl (opA (.vec false 1) (.vreg 2) (.vreg 4) v0 .e4m3),
    .cvt ctl { opA (.vec false 1) (.vreg 2) v0 v0 .i8 with aux := 0x80 }, .cvtf8 ctl { opA (.vec false 1) (.vreg 2) v0 v0 .f32 with aux := 0xB4 },
    .gred ctl (opA (.vec false 1) (.sreg 2) v0 v0 .i32), .shfl ctl { opA (.vec false 1) (.vreg 2) (.vreg 3) v0 .i32 with sat := true },
    .ld ctl 6 (opM (.vec false 1) (.sreg 2) 0), .ld ctl 3 (opM (.vec false 1) (.sreg 2) 0), .st ctl 2 (opM (.pred false 1) (.sreg 2) 0),
    .ld ctl 2 { opM (.vec false 1) (.sreg 2) 0 with sc := 1 }, .ld ctl 2 { opM (.vec false 1) (.sreg 2) 0 with ord := 2, sc := 1 },
    .atmAdd ctl (opT (.vec false 1) (.sreg 2) (.vreg 3) (.vreg 4) .n32), .redAdd ctl { opT (.vec false 0) (.sreg 2) (.vreg 3) v0 .n32 with ord := 1 },
    .bar ctl (opE v0 v0 0), .bra ctl (opE v0 v0 2), .grow ctl { (opE v0 v0 0) with dst := .pred false 1 }, .trap ctl (opE v0 v0 256),
    .cpy ctl (opE (.imm 1) (.sreg 2) 0), .nmoCas2 ctl (opE (.vreg 1) (.sreg 2) 0), .srd ctl { (opE v0 v0 0x00A) with dst := .sca false 1 },
    .swr ctl (opE (.sreg 1) v0 0x033), .plop ctl (opA (.pred false 1) (.vreg 16) v0 v0 .i8),
    .pairWord ⟨15, true, 16, 1, 1, 0, 22, 0, 0, 0, 0, 0, false⟩, .pairWord ⟨31, true, 0, 1, 1, 0, 22, 0, 0, 0, 0, 0, false⟩,
    .pairWord ⟨15, true, 0, 1, 1, 0, 24, 0, 0, 0, 0, 0, false⟩] : List Instr).all (fun i => !i.wf) = true := by decide +kernel
/-- Well-formed neighbours of these. -/
theorem test_wf_accepts : ([
    .sadd ctl (opA (.sca false 1) (.sreg 1) (.sreg 2) v0 .i64), .vadd ctl (opA (.vec false 2) (.vreg 2) (.vreg 4) v0 .i64),
    .scmp ctl { opA (.pred false 1) (.sreg 1) (.sreg 2) v0 .i64 with aux := 5 }, .ld ctl 3 (opM (.vec false 2) (.sreg 2) 0),
    .ld ctl 2 { opM (.vec false 1) (.sreg 2) 0 with ord := 1, sc := 1 }, .grow ctl { (opE v0 v0 (8 * 2 ^ 23)) with dst := .pred false 1 },
    .groupEnd 1] : List Instr).all Instr.wf = true := by decide +kernel

/-! ### Single steps -/

/-- A word's turn in a group whose scalar registers, and whose lanes' vector registers, hold these. -/
def withS (rs : List (Nat × Nat)) : State → State := inGroup (fun G => { G with s := rs.map (fun r => (r.1, BitVec.ofNat 64 r.2)) })
def withV (rs : List (Nat × Nat)) : State → State := inLanes (fun l => { l with v := rs.map (fun r => (r.1, BitVec.ofNat 32 r.2)) })
def sIs (n y : Nat) : State → Bool := groupIs (fun G => (G.sreg n).toNat == y)
def vIs (n y : Nat) : State → Bool := laneIs (fun l => (l.vreg n).toNat == y)
def flIs (y : Nat) : State → Bool := laneIs (fun l => l.fflags.toNat == y)
def does (i : Instr) (f : State → State) (p : State → Bool) : Bool := after i (f (turn i)) p

def s2 (t : Ty) : OpA := opA (.sca false 1) (.sreg 2) (.sreg 3) v0 t
def v2 (t : Ty) : OpA := opA (.vec false 2) (.vreg 4) (.vreg 6) v0 t

/-- 04 R104: SEXT.i64 s7, s3, 12, 20 gives 0xFFFF_FFFF_FFF8_7654 for s3 = 0x8765_4321. -/
theorem test_sext : does (.sext ctl { opA (.sca false 7) (.sreg 3) (.imm 12) v0 .i64 with aux := 19 }) (withS [(3, 0x87654321)])
    (sIs 7 0xFFFFFFFFFFF87654) = true := by decide +kernel
/-- 04 R97, R101: the low 32 bits of the sum, sign-extended. -/
theorem test_sadd : does (.sadd ctl (s2 .i32)) (withS [(2, 0x7FFFFFFF), (3, 1)]) (sIs 1 0xFFFFFFFF80000000) = true := by decide +kernel
/-- 04 R102: division by zero, and the least value by minus one. -/
theorem test_sdiv : (does (.sdiv ctl (s2 .n32)) (withS [(2, 7)]) (sIs 1 0xFFFFFFFF) && does (.sdiv ctl (s2 .i32)) (withS [(2, 7)]) (sIs 1 (2 ^ 64 - 1)) &&
    does (.sdiv ctl (s2 .i64)) (withS [(2, 2 ^ 63), (3, 2 ^ 64 - 1)]) (sIs 1 (2 ^ 63)) &&
    does (.srem ctl (s2 .i64)) (withS [(2, 2 ^ 63), (3, 2 ^ 64 - 1)]) (sIs 1 0) && does (.srem ctl (s2 .i64)) (withS [(2, 7)]) (sIs 1 7)) = true := by
  decide +kernel
/-- 01 R35, 04 R98: a scalar destination s0 discards. -/
theorem test_s0 : does (.sadd ctl { s2 .i64 with dst := .sca false 0 }) (withS [(2, 5), (3, 6)]) (sIs 0 0) = true := by decide +kernel
/-- 05 R124: the saturating sum, and the shift amount modulo 32. -/
theorem test_vadd_sat : (does (.vadd ctl { v2 .i32 with sat := true }) (withV [(4, 0x7FFFFFFF), (6, 1)]) (vIs 2 0x7FFFFFFF) &&
    does (.vshl ctl (v2 .i32)) (withV [(4, 3), (6, 33)]) (vIs 2 6)) = true := by decide +kernel
/-- 05 R121: a 64-bit operation in register pairs carries into the second register. -/
theorem test_vadd_pair : does (.vadd ctl (v2 .i64)) (withV [(4, 0xFFFFFFFF), (5, 1), (6, 1)]) (fun t => vIs 2 0 t && vIs 3 2 t) = true := by decide +kernel
/-- 03 R90, R84: 1 + 2^-24 rounds to 1 and is inexact; 1 / 0 is +∞ with DZ; 0 / 0 the default NaN with INV. -/
theorem test_fadd : does (.fadd ctl (v2 .f32)) (withV [(4, 0x3F800000), (6, 0x33800000)]) (fun t => vIs 2 0x3F800000 t && flIs 1 t) = true := by
  decide +kernel
theorem test_fdiv : (does (.fdiv ctl (v2 .f32)) (withV [(4, 0x3F800000)]) (fun t => vIs 2 0x7F800000 t && flIs 8 t) &&
    does (.fdiv ctl (v2 .f32)) id (fun t => vIs 2 0x7FC00000 t && flIs 16 t)) = true := by decide +kernel
/-- 05 R132: minimumNumber of a quiet NaN and 1 is 1. -/
theorem test_fmin : does (.fmin ctl (v2 .f32)) (withV [(4, 0x7FC00000), (6, 0x3F800000)]) (fun t => vIs 2 0x3F800000 t && flIs 0 t) = true := by
  decide +kernel
/-- 04 R106: a compare writes the predicate of each active lane; 01 R31: l0 takes it. -/
theorem test_scmp : does (.scmp ctl { opA (.pred false 3) (.sreg 2) (.sreg 3) v0 .i32 with aux := 2 }) (withS [(2, 2 ^ 32 - 1), (3, 0)])
    (laneIs (fun l => l.pred 3 && l.lat.l0.valid && l.lat.l0.val == 1)) = true := by decide +kernel
/-- 06 R152: the sum over eight lanes, in every one of them. -/
theorem test_gred : does (.gred ctl (opA (.vec false 2) (.vreg 4) v0 v0 .n32)) (withV [(4, 5)]) (vIs 2 40) = true := by decide +kernel
/-- 04 R110, 01 R38: sr.laneid differs by lane. -/
theorem test_srd : does (.srd ctl { opE v0 v0 0 with dst := .vec false 9 }) id (groupIs (fun G => G.lanes.map (fun l => (l.vreg 9).toNat) == List.range 8)) = true := by
  decide +kernel
/-- 08 R185: a branch adds the displacement to the address of its own word; a call's link is the address of the next. -/
theorem test_bra : does (.bra ctl (opE v0 v0 (BitVec.ofNat 32 (2 ^ 32 - 48)))) id (laneIs (fun l => l.pc == 0x1000 - 48)) = true := by decide +kernel
theorem test_call : does (.call ctl { opE v0 v0 0x40 with dst := .sca false 2 }) id (fun t => sIs 2 0x100C t && laneIs (fun l => l.pc == 0x1040) t) = true := by
  decide +kernel
/-- 02 R47: lanes that fail the guard go on with their registers. -/
theorem test_guard : does (.vmovi { ctl with guard := 1 } { opE v0 v0 7 with dst := .vec false 2 }) (inLanes (fun l => l.setPred 0 true))
    (fun t => vIs 2 0 t && laneIs (fun l => l.pc == 0x100C) t) = true := by decide +kernel
/-- 07 R164, 01 R11: STS writes little-endian bytes; the highest-numbered lane's stand. -/
theorem test_sts : does (.sts ctl 2 (opM (.vec false 5) (.sreg 0) 0x10)) (fun s => inLanes (fun l => l.setV 5 0x11223344 false) s)
    (fun t => (t.byteAt (2 ^ 48 + 1179648 + 0x10)).toNat == 0x44 && (t.byteAt (2 ^ 48 + 1179648 + 0x13)).toNat == 0x11) = true := by decide +kernel
/-- 07 R161: LDS.n8 extends with zeros, LDS.i8 with the sign (02 R60). -/
theorem test_lds : (does (.lds ctl 0 (opM (.vec false 5) (.sreg 0) 3)) (fun s => s.writeN (2 ^ 48 + 1179648) 4 0x81000000) (vIs 5 0x81) &&
    does (.lds ctl 4 (opM (.vec false 5) (.sreg 0) 3)) (fun s => s.writeN (2 ^ 48 + 1179648) 4 0x81000000) (vIs 5 0xFFFFFF81)) = true := by
  decide +kernel
/-- 07 R174, R175: each of eight lanes adds 1 to the same word of scratch, in lane order; lane 7 sees seven sums before its own. -/
theorem test_atm : does (.atmAdd ctl (opT (.vec false 5) (.sreg 2) (.imm 1) v0 .n32)) (withS [(2, 0xFFFF800000010000)])
    (fun t => groupIs (fun G => G.lanes.map (fun l => (l.vreg 5).toNat) == List.range 8) t && (t.byteAt (2 ^ 48 + 1179648)).toNat == 8) = true := by
  decide +kernel
/-- 01 R41, 12 R270: an address between the windows raises 0x07, saved with the address of the lowest-numbered lane. -/
theorem test_bad_address : does (.ld ctl 2 (opM (.vec false 5) (.sreg 2) 0)) (fun s => withS [(2, 2 ^ 48)] (inPart (fun p => { p with tvec := 0x2000 }) s))
    (groupIs (fun G => G.priv && G.ecause == 7 && G.eaddr == BitVec.ofNat 64 (2 ^ 48) && G.epc == 0x1000)) = true := by decide +kernel
/-- 12 R280, R275: TRAP resumes after itself; 12 R277: without a handler the launch ends with 0xFF. -/
theorem test_trap : does (.trap ctl (opE v0 v0 42)) (inPart (fun p => { p with tvec := 0x2000 }))
    (groupIs (fun G => G.priv && G.ecause == 0x2A0F && G.epc == 0x100C && G.emask == 0xFF && G.laneTest 0 (fun l => l.pc == 0x2000))) = true := by decide +kernel
theorem test_trap_fatal : does (.trap ctl (opE v0 v0 42)) id (fun t => (t.launches.look 0).any (fun L => L.halt == some (0xFF, 0xFFFF)) &&
    groupIs (fun G => G.lanes.all (fun l => l.exited)) t) = true := by decide +kernel
/-- 12 R61: HALT at K raises 0x02. -/
theorem test_privilege : does (.halt ctl (opE v0 v0 3)) (inPart (fun p => { p with tvec := 0x2000 })) (groupIs (fun G => G.priv && G.ecause == 2)) = true := by
  decide +kernel
/-- 09 R207, R220: an aborted region restores the scalar registers and goes on at FB. -/
theorem test_region : (match exec (.arb ctl (opE v0 v0 0x60)) (withS [(2, 5)] (turn (.arb ctl (opE v0 v0 0x60)))) with
    | .next t => (match exec (.arx ctl (opE v0 v0 9)) ((withS [(2, 6)] { t with cur := t.cur.map (fun u => { u with pc := 0x100C, lanes := u.lanes }) })) with
      | .next t => sIs 2 5 t && groupIs (fun G => G.region.isNone && G.laneTest 0 (fun l => l.pc == 0x1060)) t
      | _ => false)
    | _ => false) = true := by decide +kernel
/-- 12 R270; 02 R62: an illegal word raises 0x01. -/
theorem test_illegal : (match step (inPart (fun p => { p with tvec := 0x2000 }) (State.reset.withFetchWord 96 (word 1 0 (15 * 2 ^ 15)))) with
    | .next t => groupIs (fun G => G.ecause == 1 && G.einsl == 1 && G.laneTest 0 (fun l => l.pc == 0x2000)) t | _ => false) = true := by decide +kernel
/-- The first step after placing a word runs it: SMOVI. -/
theorem test_step : (match step (placed (.smovi ctl { opE v0 v0 0x80000000 with dst := .sca false 4 })) with
    | .next t => sIs 4 0xFFFFFFFF80000000 t && laneIs (fun l => l.pc == 0x100C) t | _ => false) = true := by decide +kernel
/-- A word that names the register or the predicate of an outstanding ENQ waits for its status (08 R199, 01 R36). -/
theorem test_enq_interlock : (let e : EnqReq := ⟨0, 0, 0, [], false, false, [0], 4, false, 1, false⟩
    let w := fun (gd : BitVec 5) (d a : BitVec 6) => enc (.sadd { ctl with guard := gd } (opA (.sca false d) (.sreg a) (.imm 1) v0 .i64))
    namesEnq (w 15 2 4) e && namesEnq (w 15 4 2) e && namesEnq (w 1 2 3) e && !namesEnq (w 15 2 3) e && !namesEnq (w 15 5 6) e) = true := by decide +kernel

/-! ### Witnesses: encoding, the step, traps, registers -/

/-- DecodeOfEncode and EncodeOfDecode: a well-formed instruction with its word, and words of either refusal. -/
theorem witness_decode :
    (let i : Instr := .sext ctl { opA (.sca false 7) (.sreg 3) (.imm 12) v0 .i64 with aux := 19 }
    i.wf && (encode i).isSome && (match decode (wordBytes (enc i) ++ [7]) with | .ok (j, rest) => j == i && rest == [7] | _ => false) &&
    (match decode (wordBytes (word 0 0 (0x3F * 2 ^ 26))) with | .error e => e == .reservedOp | _ => false) &&
    (match decode (wordBytes (word 15 0 (0x02 * 2 ^ 26))) with | .error e => e == .mustBeZero | _ => false)) = true := by decide +kernel
/-- StepRunsTheWord: a word being issued, the last of its groups, with another group to come, and an event at the head of the agenda. -/
theorem witness_step :
    (let s := turn (.exit ctl (opE v0 v0 0))
    !heldDown s && (match s.cur with
      | some u => (match decode (wordBytes u.word) with | .ok (i, _) => i == .exit ctl (opE v0 v0 0) && goes (exec i s) | _ => false) &&
          u.todo.isEmpty && u.next.isNone
      | none => false) &&
    (placed (.exit ctl (opE v0 v0 0))).agenda == [.issue 0 0] && (coreTurn { placed (.exit ctl (opE v0 v0 0)) with agenda := [] } 0 0).cur.isSome &&
    goes (exec .frameTick idle)) = true := by decide +kernel
/-- Two groups issue the same word in one cycle: the turn passes to the second. -/
def two : State := let s := placed (.exit ctl (opE v0 v0 0))
  coreTurn { s with groups := s.groups ++ (match s.groups with | e :: _ => [(2, { e.2 with pos := 1, lin := 8, age := 1 })] | [] => []), agenda := [] } 0 0
theorem witness_step_two : (match two.cur with | some u => u.g == 1 && u.todo == [2] | none => false) = true := by decide +kernel
/-- FetchAndDecodeChecks: fetches at the bounds, an illegal word with and without an active lane, and S-only words at K. -/
theorem witness_fetch :
    (let s := idle
    match s.groups.look 1 with
    | some G => (match (fetchWord s 1 G (BitVec.ofNat 64 (2 ^ 48))).2, (fetchWord s 1 G 0x1002).2, (fetchWord s 1 G 0x1000).2 with
        | .trap 7, .trap 6, .word w => w == enc (.trap ctl (opE v0 v0 0)) | _, _, _ => false) &&
        (match translate s 0 0 .fetch G.priv 0x1000 with | (s1, .ok _ pa) => (gateHold s1 pa).2.isNone | _ => false)
    | none => false) = true := by decide +kernel
def bad (w : Nat) : State := coreTurn { (inPart (fun p => { p with tvec := 0x2000 }) (State.reset.withFetchWord 96 w)) with agenda := [] } 0 0
theorem witness_illegal : ([word 1 0 (15 * 2 ^ 15), word 1 0 0].map (fun w => (match (bad w).cur, (bad w).groups.look 1 with
    | some u, some G => u.word == w && (issuing (bad w) 1 G u).length == 8 &&
        (match decode (wordBytes u.word) with | .error _ => true | _ => false) &&
        (dueReport (beginLanes G (issuing (bad w) 1 G u)) (issuing (bad w) 1 G u)).isNone &&
        (passing (beginLanes G (issuing (bad w) 1 G u)) (issuing (bad w) 1 G u) (wordGuard w)).isEmpty == (w == word 1 0 0)
    | _, _ => false)) = [true, true]) := by decide +kernel
theorem witness_supervisor : ([.eret ctl (opE v0 v0 0), .stlbiVa ctl (opE (.sreg 2) v0 0), .stlbiAll ctl (opE v0 v0 1), .sflushC ctl (opE v0 v0 0),
    .sflushT ctl (opE v0 v0 1), .sflushP ctl (opE v0 v0 2), .halt ctl (opE v0 v0 0), .srd ctl { opE v0 v0 0x100 with dst := .sca false 1 },
    .swr ctl (opE (.sreg 1) v0 0x1FF)] : List Instr).all (fun i => match supervisorWord i with
      | some c => (atDecode c (turn i)).any (fun q => !q.1.G.priv) | none => false) = true := by decide +kernel
/-- MemoryStaysCanonical and ResetWipes. -/
theorem witness_memory : ((turn (.st ctl 2 (opM (.vec false 5) (.sreg 2) 0))).mem.wf && goes (step (placed (.yield ctl (opE v0 v0 0))))) = true := by
  decide +kernel
theorem witness_reset : (State.reset.heldCmds == [] && State.reset.parts == [] && !State.reset.km.busy && State.reset.lcs == 2 &&
    (let s := inPart (fun p => { p with pend := [.lifeCycle], stopped := true }) { State.reset with parts := idle.parts }
     drainHead s 0 == some .lifeCycle && allDrained s .lifeCycle)) = true := by decide +kernel

/-- A handler stands at 0x2000; the group is at S. -/
def handled : State → State := inPart (fun p => { p with tvec := 0x2000 })
def atS : State → State := inGroup (fun G => { G with priv := true, emask := 0xFF })
/-- TrapEntry: at K with a handler, and at S and without one. -/
theorem witness_trap_entry : (match (handled idle).groups.look 1, idle.groups.look 1 with
    | some G, some H => G.region.isNone && !G.priv && ((handled idle).partOf G).any (fun P => P.tvec == 0x2000) && H.region.isNone &&
        (idle.partOf H).any (fun P => P.tvec == 0) && (idle.launches.look 0).any (fun L => L.halt.isNone)
    | _, _ => false) = true := by decide +kernel
theorem witness_trap_words : (readyFor ctl { chnOk := false } (handled (turn (.trap ctl (opE v0 v0 255)))) (fun x s => !x.G.priv && (s.partOf x.G).isSome) &&
    after (.bkpt ctl (opE v0 v0 0)) (handled (turn (.bkpt ctl (opE v0 v0 0)))) (groupIs (fun G => G.ecause == 0x0E && G.epc == 0x1000)) &&
    readyFor ctl { sOnly := true, chnOk := false } (atS (turn (.eret ctl (opE v0 v0 0)))) (fun x s => !slgHolds s x.g x.G x.act) &&
    after (.eret ctl (opE v0 v0 0)) (inGroup (fun G => { G with epc := 0x3000 }) (atS (turn (.eret ctl (opE v0 v0 0)))))
      (groupIs (fun G => !G.priv && G.laneTest 7 (fun l => l.pc == 0x3000)))) = true := by decide +kernel
/-- HardwiredRegisters: lanes of a set, a guard of either sense, a word with guard 31. -/
theorem witness_guard : (idle.groups.look 1).any (fun G => (List.range 8).all (fun i => (G.lane? i).isSome) &&
    passing G [0, 7] 15 == [0, 7] && passing G [0, 7] 14 == [] && passing G [0, 7] 30 == [0, 7] && wordGuard (word 0 0 (31 * 2 ^ 15)) == 31) = true := by
  decide +kernel
/-- DivisionCorners: a divisor of 0, and the least value by minus one. -/
theorem witness_division :
    (let o := s2 .i32
    let i : Instr := .sdiv ctl o
    readyFor ctl (scalarForm2 ctl o (iDiv true)).need (withS [(2, 5)] (turn i)) (fun x _ => sB x o == 0) &&
    readyFor ctl (scalarForm2 ctl o (iDiv true)).need (withS [(2, 2 ^ 31), (3, 2 ^ 32 - 1)] (turn i))
      (fun x _ => sA x o == 2 ^ 31 && sB x o == 2 ^ 32 - 1)) = true := by decide +kernel
/-- IntegerAndBitValues at the edges of its ranges. -/
theorem witness_integer : (iAdd 1 1 1 == 0 && iSub 64 0 1 == 2 ^ 64 - 1 && iMulh true 32 (2 ^ 31) (2 ^ 31) == 2 ^ 30 && iDiv true 32 (2 ^ 31) (2 ^ 32 - 1) == 2 ^ 31 &&
    iRem true 32 (2 ^ 32 - 7) 2 == 2 ^ 32 - 1 && iShl 32 1 63 == 2 ^ 31 && iSar 64 (2 ^ 63) 63 == 2 ^ 64 - 1 && iRot 32 3 31 == 2 ^ 31 + 1 &&
    iBrev 64 1 == 2 ^ 63 && iExt false 32 0xFF 4 32 == 15 && iIns 64 0 (2 ^ 64 - 1) 63 64 == 2 ^ 63 && iClz 32 1 == 31 && iClz 64 0 == 64) = true := by
  decide +kernel

/-! ### Witnesses: every instruction that writes one destination -/

/-- A word of a table finds its group ready. -/
def ruleReady (rule : Instr → Option ResultRule) (i : Instr) : Bool :=
  match rule i with | some r => i.wf && readyFor r.ctl r.need (turn i) (fun x _ => r.ok x) | none => false

def s1 (t : Ty) : OpA := opA (.sca false 1) (.sreg 2) v0 v0 t
def vu (t : Ty) : OpA := opA (.vec false 2) (.vreg 4) v0 v0 t
def v3 (t : Ty) : OpA := opA (.vec false 2) (.vreg 4) (.vreg 6) (.vreg 8) t
def srdOf (n : Nat) : OpE := { opE v0 v0 (BitVec.ofNat 32 n) with dst := .sca false 1 }

theorem witness_scalar : ([.sadd ctl (s2 .i64), .ssub ctl (s2 .i32), .smul ctl (s2 .n32), .smulh ctl (s2 .n64), .sdiv ctl (s2 .i64), .srem ctl (s2 .i64),
    .sand ctl (s2 .n64), .sor ctl (s2 .n64), .sxor ctl (s2 .n64), .sandn ctl (s2 .n64), .sshl ctl (s2 .n64), .sshr ctl (s2 .n64), .ssar ctl (s2 .i64),
    .srot ctl (s2 .n64), .smin ctl (s2 .i64), .smax ctl (s2 .n32), .sclz ctl (s1 .n64), .spopc ctl (s1 .n64), .sbrev ctl (s1 .n64),
    .sext ctl { s2 .i64 with aux := 63 }, .sins ctl { opA (.sca false 1) (.sreg 2) (.sreg 3) (.sreg 4) .n64 with aux := 63 },
    .ssel ctl { s2 .n64 with aux := 15 }, .scmp ctl { opA (.pred false 14) (.sreg 2) (.sreg 3) v0 .n64 with aux := 5 },
    .smovi ctl { opE v0 v0 0xFFFFFFFF with dst := .sca false 63 }, .smovh ctl { opE (.sreg 2) v0 1 with dst := .sca false 1 },
    .slea ctl (opM (.sca false 1) (.sreg 2) 0xFFFFFF)] : List Instr).all (ruleReady scalarRule) = true := by decide +kernel
theorem witness_vector : ([.vadd ctl (v2 .i64), .vsub ctl (v2 .n32), .vmul ctl (v2 .n32), .vmulh ctl (v2 .i32), .vmad ctl (v3 .n32), .vand ctl (v2 .n32),
    .vor ctl (v2 .n32), .vxor ctl (v2 .n32), .vlop3 ctl { v3 .n32 with aux := 0x96 }, .vshl ctl (v2 .n64), .vshr ctl (v2 .n32), .vsar ctl (v2 .i32),
    .vmin ctl (v2 .i32), .vmax ctl (v2 .n32), .vabs ctl (vu .i32), .vclz ctl (vu .n32), .vpopc ctl (vu .n32), .vext ctl { v2 .i32 with aux := 31 },
    .vins ctl { v3 .n32 with aux := 7 }, .vsel ctl { v2 .n32 with aux := 3 }, .vcmp ctl { opA (.pred false 1) (.vreg 4) (.vreg 6) v0 .i32 with aux := 2 },
    .vmov ctl (vu .n64), .vmovi ctl { opE v0 v0 7 with dst := .vec false 255 }, .vdot4 ctl (v3 .i8), .rnd ctl (opA (.vec false 22) (.sreg 5) (.vreg 22) v0 .n32)] :
    List Instr).all (ruleReady vectorRule) = true := by decide +kernel
theorem witness_float : ([.fadd ctl (v2 .f32), .fsub ctl (v2 .f16x2), .fmul ctl (v2 .bf16x2), .ffma ctl (v3 .f32), .fmin ctl (v2 .f32), .fmax ctl (v2 .f16x2),
    .fcmp ctl { opA (.pred false 1) (.vreg 4) (.vreg 6) v0 .f32 with aux := 2 }, .fclass ctl (vu .f32), .fdiv ctl (v2 .f32), .fsqrt ctl (vu .f32),
    .frcp ctl (vu .f32), .frsq ctl (vu .f32), .fexp2 ctl (vu .f32), .flog2 ctl (vu .f32), .fsin ctl (vu .f32), .fcos ctl (vu .f32), .ftanh ctl (vu .f32),
    .fround ctl (vu .f32), .fscale ctl (v2 .f32), .fdot2 ctl (v3 .f16x2)] : List Instr).all (ruleReady floatRule) = true := by decide +kernel
theorem witness_group : ([.srd ctl (srdOf 0x000), .plop ctl { opA (.pred false 1) (.vreg 2) (.vreg 3) v0 .i8 with aux := 8 },
    .shfl ctl { v2 .n32 with aux := 0 }, .bcast ctl (opA (.vec false 2) (.vreg 4) (.sreg 3) v0 .n32), .ballot ctl (opA (.sca false 1) (.vreg 3) v0 v0 .i8),
    .vote ctl (opA (.pred false 1) (.vreg 3) v0 v0 .i8), .match ctl (opA (.vec false 2) (.vreg 4) v0 v0 .n32), .gred ctl { vu .f32 with aux := 1 },
    .gredm ctl { opA (.vec false 2) (.vreg 4) (.vreg 6) v0 .f32 with aux := 1 }, .gscan ctl (vu .n32), .elect ctl { opE v0 v0 0 with dst := .pred false 1 },
    .keyq ctl { opE v0 v0 0 with dst := .sca false 1 }, .mqry ctl { opE v0 v0 0 with dst := .sca false 1 }] : List Instr).all (ruleReady groupRule) = true := by
  decide +kernel
theorem witness_convert : ([.cvt ctl { vu .i32 with aux := 0x80 }, .cvtbx ctl { vu .bx8 with aux := 0x80 }, .cvtxf ctl { vu .f32 with aux := 0xD0 }, .cvtf8 ctl { v3 .e4m3 with aux := 0x80 },
    .cvtpk ctl { v2 .f16x2 with aux := 0x80 }] : List Instr).all (ruleReady convertRule) = true := by decide +kernel
/-- GroupResults: MSCL with a count of 0 and with others. -/
theorem witness_mscl :
    (let o := opA (.vec false 2) (.vreg 4) (.vreg 6) (.sreg 8) .f32
    let i : Instr := .mscl ctl { o with aux := 3 }
    i.wf && [0, 3].all (fun n => readyFor ctl ((({} : Meta).reads true [(o.a, false), (o.b, false), (o.c, false)]).write o.dst false)
      (withV [(6, n)] (turn i)) (fun _ _ => true))) = true := by decide +kernel
/-- SpecialRegisters: writes of each kind, at K and at S. -/
theorem witness_swr :
    (let go := fun (n : Nat) (a : Src) (f : State → State) =>
      let i : Instr := .swr ctl (opE a v0 (BitVec.ofNat 32 n))
      i.wf && readyFor ctl { (({} : Meta).read false a false) with sOnly := srSonly n, badS := srSonly n && (!swrOk n || a.isOf [.v]), chnOk := !srPart n } (f (turn i))
        (fun x s => !slgHolds s x.g x.G x.act && (s.partOf x.G).isSome)
    go 0x030 (.vreg 2) id && go 0x031 (.sreg 2) id && go 0x032 (.vreg 2) id && go 0x100 (.sreg 2) atS && go 0x101 (.sreg 2) atS &&
    go 0x107 (.sreg 2) atS && go 0x108 (.sreg 2) atS && go 0x110 (.sreg 2) atS && go 0x111 (.sreg 2) atS) = true := by decide +kernel
theorem witness_srd_all : ([0x000, 0x001, 0x002, 0x003, 0x004, 0x005, 0x006, 0x008, 0x009, 0x020, 0x021, 0x022, 0x023, 0x030, 0x031, 0x032, 0x033, 0x034].all
    (fun n => ruleReady groupRule (.srd ctl (srdOf n)))) = true := by decide +kernel
/-- PairWordResults: the pair word of 02 R62, its guard open. -/
theorem witness_pair :
    (let p : PairWord := ⟨15, true, 0, 5, 5, 1, 17, 8, 1, 2, 8, 1, false⟩
    p.wf && (pairVDst p).isSome && p.vop != 22 && readyFor (pairCtl p) (pairMeta p) (turn (.pairWord p)) (fun _ _ => true)) = true := by decide +kernel

/-! ### Witnesses: accesses -/

/-- Windows of the local addresses. -/
def scratchVa : Nat := 0xFFFF800000010000
def heapVa : Nat := 0x10000
/-- The scalar register s2 holds an address. -/
def atVa (a : Nat) : State → State := withS [(2, a)]

/-- AccessChecks: the bounds of the windows. -/
theorem witness_windows : (match idle.groups.look 1, idle.launches.look 0 with
    | some G, some L =>
      let err := fun (how : How) n ea c => match addrCheck G L how n ea with | .error e => e == c | _ => false
      let okay := fun (how : How) n ea => match addrCheck G L how n ea with | .ok _ => true | _ => false
      okay .load 8 (2 ^ 48 - 8) && err .load 8 (2 ^ 48 - 4) 6 && err .load 8 (2 ^ 48) 7 && err .load 1 0xFFFF7FFFFFFFFFFF 7 && err .load 8 0xFFFF830000000000 7 &&
      okay .load 8 scratchVa && err .load 4 (scratchVa + 65536) 5 && okay .load 4 (scratchVa + 65532) && err .load 1 0xFFFF80FFFFFFFFFF 5 &&
      okay .store 4 0xFFFF800000000000 && err .store 4 0xFFFF800000002000 3 && okay .load 4 0xFFFF82000000FFFC && err .load 4 0xFFFF820000010000 7 &&
      err .store 4 0xFFFF820000000000 10
    | _, _ => false) = true := by decide +kernel
/-- A load whose second lane fails its check, and lanes with local addresses only. -/
theorem witness_failing_lane :
    (let i : Instr := .ld ctl 2 ⟨.vec false 5, .sreg 2, .vreg 1, 2, 0, 0, 0⟩
    let s := inLanes (fun l => l) (atVa (scratchVa + 65532) (turn i))
    let s := inGroup (fun G => { G with lanes := G.lanes.mapIdx (fun k l => { l with v := [(1, BitVec.ofNat 32 k)] }) }) s
    match loadRule i with
    | some r => i.wf && readyFor r.ctl r.need s (fun x s => (s.launchOf x.G).any (fun L => match r.accs x with
        | a :: b :: _ => (match addrCheck x.G L .load 4 a.2, addrCheck x.G L .load 4 b.2 with | .ok (.scr _), .error 5 => true | _, _ => false)
        | _ => false) && x.G.region.isNone)
    | none => false) = true := by decide +kernel
/-- A word of a table of accesses goes, whatever it names. -/
def accessGoes (i : Instr) (rule : Instr → Option AccessRule) (how : How) (posted : Bool) (f : State → State) (q : Ctx → State → List LaneAcc → Bool) : Bool :=
  match rule i with
  | some r => i.wf && readyFor r.ctl r.need (f (turn i)) (fun x s => x.G.region.isNone && (ordStop s x (r.ord == 2) r.sc).isNone &&
      goesFor x s how posted (how == .store && !r.clears) r.n (r.accs x) (fun t ps => q x t ps))
  | none => false
/-- LoadResults: every load, from scratch, tile memory, HBM, the argument copy and the register view. -/
theorem witness_loads : ([(.ld ctl 2 (opM (.vec false 5) (.sreg 2) 0), heapVa), (.ld ctl 3 (opM (.vec false 6) (.sreg 2) 0), scratchVa),
    (.ld ctl 2 (opM (.vec false 5) (.sreg 2) 0), 0xFFFF800000000000), (.lds ctl 0 (opM (.vec false 5) (.sreg 2) 0), 65535),
    (.ldt ctl 2 (opM (.vec false 5) (.sreg 2) 0), 65532), (.ldc ctl 2 (opM (.vec false 5) (.sreg 2) 0), 0), (.sld ctl 3 (opM (.sca false 5) (.sreg 2) 0), heapVa),
    (.mcnt ctl (opA (.vec false 5) (.sreg 2) (.vreg 3) v0 .n32), heapVa)] : List (Instr × Nat)).all (fun e =>
      accessGoes e.1 loadRule .load false (atVa e.2) (fun x s ps => (readLanes x.g x.G.tile 1 id s ps).1.groups == s.groups && ps.length != 0)) = true := by
  decide +kernel
/-- StoreResults: every store; the places are plain and no lane is turned away. -/
theorem witness_stores : ([(.st ctl 2 { opM (.vec false 5) (.sreg 2) 0 with ord := 2, sc := 3 }, heapVa), (.sts ctl 0 (opM (.vec false 5) (.sreg 2) 0), 65535),
    (.stt ctl 2 (opM (.vec false 5) (.sreg 2) 0), 65532), (.sst ctl 3 (opM (.sca false 5) (.sreg 2) 0), heapVa)] : List (Instr × Nat)).all (fun e =>
      accessGoes e.1 storeRule .store true (atVa e.2) (fun x s ps => s.tiles.all (fun q => q.2.wq == []) && ps.all (fun a => (placeLoc s a.place).isSome) &&
        (match storeRule e.1 with | some r => (r.written x 0 s ps).groups == s.groups | none => false))) = true := by decide +kernel
/-- The register view of lane 3, register 5. -/
theorem witness_view_store : (idle.groups.look 1).any (fun G => 0 < G.w && (G.lane? 3).isSome &&
    (match (writePlace idle 1 0 4 9 false (.rv (4 * (G.w * 5 + 3)))).groups.look 1 with | some H => H.laneTest 3 (fun l => l.vreg 5 == 9) | none => false)) = true := by
  decide +kernel
/-- NeighbourStores: tile 0's neighbours, and a neighbour in the partition with and without the unit's counterpart. -/
def twoTiles : State → State := fun s => inLaunch (fun L => { L with tm := L.tm ++ [⟨0, 1, 0, 0, 65536⟩] }) (inPart (fun p => { p with tiles := [0, 1] }) s)
theorem witness_stn :
    (let go := fun (d : BitVec 2) (off : Nat) (f : State → State) (p : Ctx → State → Bool) =>
      let o := opM (.vec false 5) (.sreg 2) 0
      let i : Instr := .stn ctl d 0 o
      i.wf && readyFor ctl { ((({} : Meta).addr true .tile o).data o.dst false) with chnOk := false } (f (atVa off (turn i)))
        (fun x s => (s.launchOf x.G).isSome && p x s)
    go 0 0 id (fun x _ => neighbour x.G.tile 0 == none) && go 1 2 id (fun x _ => neighbour x.G.tile 1 == some 1) && go 1 65536 id (fun _ _ => true) &&
    go 1 65532 twoTiles (fun x s => match s.launchOf x.G with
      | some L => L.rc.lowest 3 == some 2 && L.tm.any (fun q => q.tile == 1 && L.rc.idx 2 (q.unit * L.rc.lanesOf 2) == L.rc.idx 2 x.G.lin) &&
          (stnLane x L 4 1 (fun _ => (7, false)) s (0, 65532)).groups == s.groups && spaceOf (tmPa 1 65532) == 1
      | none => false)) = true := by decide +kernel

/-! ### Witnesses: atomics, waits, control -/

def tOp (t : Ty) : OpT := opT (.vec false 6) (.sreg 2) (.vreg 8) v0 t
def tRed (t : Ty) : OpT := opT (.vec false 0) (.sreg 2) (.vreg 8) v0 t
/-- An atomic or reduction of every lane goes, at an address of HBM and of scratch. -/
def atomGoes (i : Instr) (c : Ctl) (o : OpT) (m : Meta) (posted : Bool) (q : Ctx → State → List LaneAcc → Bool) : Bool :=
  i.wf && [heapVa, scratchVa].all (fun a => readyFor c m (atVa a (turn i)) (fun x s => (ordStop s x (isRel o.ord.toNat) o.sc.toNat).isNone &&
    goesFor x s .atomic posted false (tyW o.ty / 8) (x.act.map (fun j => (j, eaT x.G j o))) (fun t ps => t.groups == s.groups && ps.length == 8 && q x t ps)))
/-- AtomicResults. -/
theorem witness_atomics : ([.atmAdd ctl (tOp .i64), .atmFadd ctl (tOp .f32), .atmMin ctl (tOp .i32), .atmMax ctl (tOp .n32), .atmAnd ctl (tOp .n32),
    .atmOr ctl (tOp .n64), .atmXor ctl (tOp .n32), .atmXch ctl { tOp .n32 with ord := 3, sc := 3 }, .acas ctl { tOp .n32 with c := .vreg 10 },
    .aaddt ctl { tOp .n32 with c := .imm 9 }] : List Instr).all (fun i => match atomicRule i with
      | some (c, o, op) => atomGoes i c o (atomicMeta o op) false (fun x s ps =>
          (atomLanes x.g 0 0 op o.ty (fun j => srcLane x.G j o.ty (tyW o.ty) o.b) (fun j => srcLane x.G j o.ty (tyW o.ty) o.c) s ps).1.groups == s.groups)
      | none => false) = true := by decide +kernel
/-- One word in a plain place, poisoned and not. -/
theorem witness_atomic_place : (let s := idle.writeN 0x40010000 4 5
    s.tiles.all (fun e => e.2.wq == []) && placeLoc s (.pa 0x40010000 false) == some 0x40010000 && spaceOf 0x40010000 == 0 && !s.isPoisoned 0x40010000 &&
    (atomicPlace s 1 0 .n32 (· + 1) (.pa 0x40010000 false)).2 == (5, false) && (atomicPlace s 1 0 .n32 (· + 1) (.pa 0x40010000 false)).1.readN 0x40010000 4 == 6 &&
    ({ s with poison := [0x40010000 / 64] } : State).isPoisoned 0x40010000) = true := by decide +kernel
/-- ReductionResults. -/
theorem witness_reductions : ([.redAdd ctl (tRed .n32), .redFadd ctl (tRed .f32), .redMin ctl (tRed .i32), .redMax ctl (tRed .n32), .redAnd ctl (tRed .n32),
    .redOr ctl (tRed .n32), .redXor ctl (tRed .n64)] : List Instr).all (fun i => match redRule i with
      | some (c, o, op) => atomGoes i c o { (({} : Meta).tSrcs o false) with chnOk := false } true (fun x s ps =>
          (ps.foldl (redLane x.g 0 op o.ty (fun j => srcLane x.G j o.ty (tyW o.ty) o.b)) s).groups == s.groups)
      | none => false) = true := by decide +kernel
theorem witness_reduction_seen : (let s := idle.writeN 0x40010000 4 5
    spaceOf 0x40010000 == 0 && !mapped s 0x40010000 && (homeTile s 0 0x40010000).isSome && s.tiles.all (fun e => e.2.wq == []) && !s.isPoisoned (locOf s 0x40010000) &&
    (readPa (redPlace s 1 0 0 .n32 7 (.pa 0x40010000 false)) 0x40010000 4).2 == 12) = true := by decide +kernel
/-- PassingAndMapsWords. -/
theorem witness_passing : ([(.fenceAcq ctl { opM (.vec false 0) v0 0 with ord := 1, sc := 3 }, id), (.fenceRel ctl { opM (.vec false 0) v0 0 with ord := 2, sc := 3 }, id),
    (.fenceFull ctl { opM (.vec false 0) v0 0 with ord := 3, sc := 3 }, id), (.prf ctl (opE (.sreg 2) v0 0), id), (.rgn ctl (opE v0 v0 0), id),
    (.fenceRel ctl { opM (.vec false 0) v0 0 with ord := 2, sc := 4 }, id)] : List (Instr × (State → State))).all (fun e => match passRule e.1 with
      | some (c, m, may) => readyFor c m (e.2 (turn e.1)) (fun x s => may s x)
      | none => false) = true := by decide +kernel
/-- A range of a page of scratch, when no entry stands, when the launch's own does, and when another launch's does. -/
def mapsOp : OpE := { opE (.sreg 2) (.sreg 3) 0 with dst := .pred false 1 }
def mapsOf (l : Nat) : State → State := inCore (fun c => { c with maps := [(0, ⟨l, 0, 0x20000, 4096, [], 0, 0⟩)] })
theorem witness_maps :
    (let go := fun (f : State → State) (w : Bool) =>
      let i : Instr := .maps ctl mapsOp
      i.wf && readyFor ctl { (((({} : Meta).read false mapsOp.a false).read false mapsOp.b false).write mapsOp.dst false) with chnOk := false }
        (withS [(2, 0x10000), (3, 4096 * 2 ^ 32 + 8192)] (f (turn i))) (fun x s => (s.launchOf x.G).any (fun L =>
          match mapsPages x L.part ((0x10000 + 4096 - 0x10000 + granBytes - 1) / granBytes) s 0x10000 [] with
          | (s2, .ok pas) => s2.groups == s.groups && (mapsDo x L 0 0x10000 8192 4096 pas s2).groups == s.groups
          | _ => false)) && after i (withS [(2, 0x10000), (3, 4096 * 2 ^ 32 + 8192)] (f (turn i))) (laneIs (fun l => l.pred 1 == w))
    go id true && go (mapsOf 0) true && go (mapsOf 7) false) = true := by decide +kernel
theorem witness_maps_un : (let i : Instr := .mapsUn ctl { opE v0 v0 0x08000000 with dst := .pred false 1 }
    i.wf && [id, mapsOf 7].all (fun f => readyFor ctl { (({} : Meta).write (.pred false 1) false) with chnOk := false } (f (turn i)) (fun _ _ => true)) &&
    after i (mapsOf 0 (turn i)) (fun t => laneIs (fun l => l.pred 1) t && (t.coreAt 0 0).maps == [])) = true := by decide +kernel

/-- WaitWords: a word below its threshold, at it, and below it with the table full. -/
theorem witness_waita :
    (let o := { opT (.pred false 1) (.sreg 2) v0 (.sreg 3) .i32 with sc := 3 }
    let i : Instr := .waita ctl o
    let go := fun (c : Nat) (f : State → State) (q : State → Bool) =>
      readyFor ctl { (((({} : Meta).read false o.base false).read false o.c false).write o.dst false) with chnOk := false }
        (withS [(2, heapVa), (3, c)] (f (turn i))) (fun x s => goesFor x s .waita false true 4 [(x.low, eaT x.G x.low o)] (fun t ps => t.groups == s.groups && ps.length == 1)) &&
      after i (withS [(2, heapVa), (3, c)] (f (turn i))) q
    i.wf && go 0 id (laneIs (fun l => l.pred 1 && l.block == .free)) && go 1 id (laneIs (fun l => match l.block with | .waita 0 _ _ => true | _ => false)) &&
    go 1 (inTile (fun t => { t with waiters := List.replicate 256 ⟨0, 9⟩ })) (laneIs (fun l => !l.pred 1 && l.block == .free))) = true := by decide +kernel
def waiting (b : Block) : State → State := inLanes (fun l => { l with block := b })
theorem witness_release : (laneIs (fun l => l.block == .waita 0 64 1) (waiting (.waita 0 64 1) idle) &&
    laneIs (fun l => l.pred 1 && l.block == .free) (releaseWaita (waiting (.waita 0 64 1) idle) 1 (· == 64) true)) = true := by decide +kernel
theorem witness_waitc : (let i : Instr := .waitc ctl (opE v0 v0 0)
    i.wf && readyFor ctl { chnOk := false } (inGroup (fun G => { G with cnt := [(0, 1)] }) (turn i)) (fun x _ => x.G.counter 0 == 1) &&
    readyFor ctl { chnOk := false } (turn i) (fun x _ => x.G.counter 0 == 0 && x.G.errs == []) &&
    readyFor ctl { chnOk := false } (inGroup (fun G => { G with errs := [⟨0, 3, 8, 64, false, false⟩] }) (turn i)) (fun x _ => x.G.errs != []) &&
    after i (handled (inGroup (fun G => { G with errs := [⟨0, 3, 8, 64, false, false⟩] }) (turn i))) (groupIs (fun G => G.priv && G.eaddr == 64 && G.errs == []))) = true := by
  decide +kernel
/-- ControlWords. -/
theorem witness_transfers : ([.bra ctl (opE v0 v0 0x100), .bri ctl (opE (.sreg 2) v0 0), .call ctl { opE v0 v0 0 with dst := .vec false 4 },
    .calli ctl { opE (.vreg 6) v0 0 with dst := .sca false 4 }, .ret ctl (opE (.sreg 2) v0 0)] : List Instr).all (fun i => match transferRule i with
      | some (c, m, _, _) => i.wf && readyFor c m (turn i) (fun _ _ => true) | none => false) = true := by decide +kernel
theorem witness_control : ([.exit ctl (opE v0 v0 0), .yield ctl (opE v0 v0 0), .reconv ctl (opE v0 v0 0x20), .sleep ctl (opE v0 v0 100)] : List Instr).all (fun i =>
    i.wf && readyFor ctl { chnOk := false } (turn i) (fun _ _ => true)) = true := by decide +kernel
theorem witness_sleep : (let o := opE (.sreg 2) v0 0
    let i : Instr := .sleep ctl o
    i.wf && [0, 5].all (fun d => readyFor ctl { (({} : Meta).read true o.a false) with chnOk := false } (withS [(2, d)] (turn i)) (fun x _ => sleepDelay x.G 0 o == d))) = true := by
  decide +kernel
/-- BarrierArrival: a first arrival, and one after an arrival in the open phase. -/
def barWord : OpE := opE v0 v0 0x28000000
theorem witness_barrier : ([.bar ctl barWord, .bara ctl barWord, .barw ctl barWord] : List Instr).all (fun i =>
    i.wf && [id, inLanes (fun l => { l with arr := [(16 * barDom barWord + barId barWord, 0)] })].all (fun f =>
      readyFor ctl { chnOk := false, bar := some (barDom barWord, barId barWord) } (f (turn i)) (fun x s => (barOf s x.G barWord).any (fun q =>
        q.2 == 0) && (relStop s x x.act (barDom barWord == 5)).isNone))) = true := by decide +kernel

/-- QueueAndWindowWords. -/
theorem witness_enq :
    (let o := { opE (.sreg 2) (.sreg 3) 0 with dst := .sca false 4 }
    let i : Instr := .enq ctl o
    i.wf && readyFor ctl { (((({} : Meta).read false o.a false).read false o.b false).write o.dst false) with chnOk := false } (atVa heapVa (turn i)) (fun x s =>
      !slgHolds s x.g x.G x.act && x.G.enq.isNone && src64 x o.a % 64 == 0 &&
      goesFor x s .load false true 8 ((List.range 32).map (fun i => (x.low, src64 x o.a + 8 * i))) (fun t ps =>
        (readLanes x.g x.G.tile 8 (fun v => v) t ps).1.groups == s.groups && ps.length == 32))) = true := by decide +kernel
/-- GROW to the declared count and beyond; SHRNK to it, below it, and below it with an outstanding write. -/
def countWord (n : Nat) : OpE := opE v0 v0 (BitVec.ofNat 32 (n * 2 ^ 23))
def fewer : State → State := inGroup (fun G => { G with v := 64 })
theorem witness_windows_words :
    (let grow := fun (n : Nat) (q : Ctx → Bool) =>
      let o := { countWord n with dst := .pred false 1 }
      let i : Instr := .grow ctl o
      i.wf && readyFor ctl { (({} : Meta).write o.dst false) with chnOk := false } (fewer (turn i)) (fun x _ => countOf o == n && q x)
    let shrnk := fun (n : Nat) (f : State → State) (q : Ctx → Bool) =>
      let i : Instr := .shrnk ctl (countWord n)
      i.wf && readyFor ctl { chnOk := false } (f (fewer (turn i))) (fun x _ => countOf (countWord n) == n && q x)
    grow 64 (fun x => x.G.v == 64) && grow 65 (fun x => x.G.v == 64) && shrnk 64 id (fun x => x.G.v == 64) &&
    shrnk 63 id (fun x => !x.G.sb.any (fun e => e.2 != 0)) && shrnk 1 (inGroup (fun G => { G with sb := [(3, 1)] })) (fun x => x.G.sb.any (fun e => e.2 != 0))) = true := by
  decide +kernel

/-! ### Witnesses: atomic regions -/

def aRegion : Region := { fb := 0x3000, ser := false, lanes := List.range 8, snapS := [], snapSPsn := [], snapP := (List.range 8).map (fun i => (i, 0)), cnt := 254, tags := [],
                          ltags := [none, none, none, none], inputs := [], stores := [], cons := [], start := 0, commit := false }
def inRegion (f : Region → Region) : State → State := inGroup (fun G => { G with region := some (f aRegion) })
/-- RegionsOpenAndAbort: opened, serialised with the token free and taken, and with a lane that fails the guard. -/
theorem witness_arb :
    (let go := fun (c : Ctl) (im : Nat) (f : State → State) (q : Ctx → State → Bool) =>
      let i : Instr := .arb c (opE v0 v0 (BitVec.ofNat 32 im))
      i.wf && readyFor c { chnOk := false } (f (turn i)) (fun x s => (s.partOf x.G).isSome && q x s)
    let same := fun (x : Ctx) => x.iss.length == x.act.length && !x.G.lanes.any (fun l => match l.block with | .grow _ => true | _ => false)
    go ctl 0x40 id (fun x _ => same x) && go ctl 0x41 id (fun x s => same x && (s.partOf x.G).any (fun P => P.token.isNone && P.tokenQ == [])) &&
    go ctl 0x41 (inPart (fun p => { p with token := some 9 })) (fun x s => same x && (s.partOf x.G).any (fun P => P.token == some 9)) &&
    go { ctl with guard := 0 } 0x40 (inGroup (fun G => { G with lanes := G.lanes.mapIdx (fun k l => l.setPred 0 (k == 0)) }))
      (fun x _ => x.iss.length == 8 && x.act == [0])) = true := by decide +kernel
theorem witness_arx_arst :
    (let x9 : Instr := .arx ctl (opE v0 v0 255)
    let o := { opE v0 v0 1 with dst := .sca false 4 }
    x9.wf && (Instr.arst ctl o).wf && readyFor ctl { chnOk := false, allow := .yes } (turn x9) (fun x _ => x.G.region.isNone) &&
    readyFor ctl { chnOk := false, allow := .yes } (inRegion id (turn x9)) (fun x _ => x.G.region.any (fun r => r.cnt == 254)) &&
    readyFor ctl { (({} : Meta).write o.dst false) with allow := .yes } (turn (.arst ctl o)) (fun _ _ => true) &&
    readyFor ctl { (({} : Meta).write o.dst false) with allow := .yes } (inRegion id (turn (.arst ctl o))) (fun _ _ => true)) = true := by decide +kernel
/-- RegionsTrackAndCommit: a new input of HBM, and a store there. -/
theorem witness_tracked :
    (let o := opM (.sca false 5) (.sreg 2) 0
    let ld : Instr := .sld ctl 2 o
    let st : Instr := .sst ctl 2 o
    ld.wf && st.wf &&
    readyFor ctl { ((({} : Meta).addr false .abs o).write o.dst false) with allow := .yes } (inRegion id (atVa heapVa (turn ld))) (fun x s =>
      match regionAddr x s aRegion .rd 2 (eaOf x.G x.low .abs o) with
      | (s2, .ok (pa, false)) => (claim (s2.updGroup x.g (fun G => pinAll G (mSrcs o))) (.lanes x.g) x.G.tile x.G.core pa false false).2.isNone &&
          x.G.region.isSome && !overlapsAny aRegion pa 2 && ownPending s2 x.g x.G false 4 [(aRegion.lanes, eaOf x.G x.low .abs o)] == []
      | _ => false) &&
    after ld (inRegion id (atVa heapVa (turn ld))) (groupIs (fun G => G.region.any (fun r => r.inputs.length == 1 && r.tags.look 5 == some ⟨0, 0⟩))) &&
    readyFor ctl { (({} : Meta).addr false .abs o) with chnOk := false, allow := .yes } (inRegion id (atVa heapVa (turn st))) (fun x s =>
      match regionAddr x s aRegion .wr 2 (eaOf x.G x.low .abs o) with
      | (s2, .ok (pa, _)) => s2.groups == s.groups && !overlapsAny aRegion pa 2 && (mSrcs o).all (fun a => srcTag x.G a == none)
      | _ => false) &&
    after st (inRegion id (atVa heapVa (turn st))) (groupIs (fun G => G.region.any (fun r => r.stores.length == 1)))) = true := by decide +kernel
/-- ARE without a region, and with one that commits, one whose pinned input has changed, one whose constraint fails, one whose input
is poisoned. -/
def input : RInput := ⟨0x40010000, 2, 5, false, false, false⟩
/-- Group 2 holds the token and has the input's line in its region. -/
def lockedBy (f : State → State) (s : State) : State :=
  let s := inPart (fun p => { p with token := some 2 }) (f s)
  { s with groups := s.groups ++ (match s.groups with
      | e :: _ => [(2, { e.2 with pos := 1, region := some { aRegion with ser := true, inputs := [input] } })] | [] => []) }
theorem witness_are :
    (let i : Instr := .are ctl (opE v0 v0 0)
    let go := fun (f : State → State) (r : Region → Region) (v : Nat) (q : State → Bool) =>
      readyFor ctl { chnOk := false, allow := .yes } (inRegion r (f (turn i))) (fun x s => x.G.region.any (fun r => !slgHolds s x.g x.G r.lanes &&
        (match commitClaims x r s with
          | (s2, none) => let s3 := (r.inputs.map (fun i => lineOf i.pa) ++ r.stores.map (fun e => lineOf e.pa)).foldl drainLine s2
              ((s3.groups.look x.g).bind Group.region).isSome && (match freshAll s3 r.inputs with
          | (_, none) => v == 0
          | (_, some xs) => if (pinnedConflict r.inputs xs).isSome then v == 1 else if (r.cons.findIdx? (fun q => !consHolds xs q)).isSome then v == 2 else v == 3)
          | (_, some _) => v == 4))) &&
      after i (inRegion r (f (turn i))) q
    let at5 := fun (s : State) => s.writeN 0x40010000 4 5
    i.wf && readyFor ctl { chnOk := false, allow := .yes } (turn i) (fun x _ => x.G.region.isNone) &&
    go at5 (fun r => { r with inputs := [input], stores := [⟨0x40010000, 2, 6, false, some ⟨0, 1⟩⟩] }) 3 (fun t => t.readN 0x40010000 4 == 6) &&
    go id (fun r => { r with inputs := [{ input with pinned := true, conflicted := true }] }) 1 (groupIs (fun G => G.region.isNone && G.laneTest 0 (fun l => l.pc == 0x3000))) &&
    go at5 (fun r => { r with inputs := [input], cons := [⟨0, 0, 0, 6, .n32, true⟩] }) 2 (laneIs (fun l => l.pc == 0x3000)) &&
    go (fun s => { at5 s with poison := [0x40010000 / 64] }) (fun r => { r with inputs := [{ input with conflicted := true }] }) 0 (laneIs (fun l => l.pc == 0x3000)) &&
    go (fun s => lockedBy at5 s) (fun r => { r with inputs := [input] }) 4 (fun t => groupIs (fun G => G.region.any (fun r => r.commit)) t &&
      laneIs (fun l => l.block == .locked (0x40010000 / 64)) t)) = true := by decide +kernel

/-! ### Witnesses: engines, buffers, system words -/

/-- The launch's ranges admit the heap, for reads and for writes. -/
def ranged : State → State := inLaunch (fun L => { L with rc := { L.rc with ranges := [(0x10000, 0x20000), (0, 0), (0, 0), (0, 0), (0x10000, 0x20000), (0, 0), (0, 0), (0, 0)] } })
def aBuf : CBuf := ⟨0, scratchVa, 2 ^ 48 + 1179648, 64, 2, 1, 1, 1, 0, 0, 0, [], [0], 1, []⟩
def withBuf (q : CBuf) : State → State := inTile (fun t => { t with cbufs := [(0, q)] })
def engGoes (i : Instr) (f : State → State) : Bool := match engineRule i with
  | some r => i.wf && readyFor r.ctl { r.need with chnOk := false } (f (ranged (turn i))) (fun x s => (engWait s x r.cls r.ch).isNone &&
      (s.launchOf x.G).any (fun L => (r.op x s L).isSome))
  | none => false
/-- An operation of group 1. -/
def anOp : EngOp := { g := 1, cls := 0, pos := 0, tile := 0, core := 0, launch := 0, ch := 0, kind := 0, ops := [], ty := 0, rm := 0, sat := false, d := 0, tileNo := 0,
                      scr := 2 ^ 48 + 1179648, t0 := 0, lanes := List.range 8, seed := 0, done := [], slot := none, a := none, wait := none, item := 0, priv := false, stb := false, rows := [],
                      err := none, fin := false, fl := 0, lack := [], call := none }
/-- EngineWordsIssue: operands in registers. -/
def engS : State → State := withS [(2, scratchVa), (3, scratchVa + 4096), (4, 1), (6, 256), (7, 128)]
theorem witness_engine : ([.cpy ctl (opE (.sreg 2) (.sreg 3) 0x106), .cpycb ctl (opE (.sreg 3) (.imm 0) 0), .accz ctl (opE v0 v0 0),
    .accld ctl (opE (.sreg 2) (.sreg 7) 0xE0000000), .accst ctl (opE (.sreg 2) (.sreg 7) 0x34000106)] : List Instr).all (fun i =>
      engGoes i (fun s => withBuf aBuf (engS s))) = true := by decide +kernel
/-- A control block of eight words in scratch. -/
def blockAt (ws : List Nat) (s : State) : State := (List.range 8).foldl (fun s k => s.writeN (2 ^ 48 + 1179648 + 8 * k) 8 (ws.getD k 0)) s
def blockGoes (i : Instr) (ws : List Nat) : Bool := match blockRule i with
  | some r => i.wf && readyFor r.ctl { (({} : Meta).read false r.o.a false) with chnOk := false } (blockAt ws (engS (turn i))) (fun x s =>
      (engWait s x r.cls (some (chOf r.o))).isNone && (s.launchOf x.G).any (fun L => (rangeFail x.G L false 64 (src64 x r.o.a) 64).isNone &&
        goesFor x s .load false true 8 ((List.range 8).map (fun k => (x.low, src64 x r.o.a + 8 * k))) (fun t ps =>
          let q := readLanes x.g x.G.tile 8 (fun v => v) t ps
          q.1.groups == s.groups && !q.2.any (fun e => e.2.2) && (r.op x q.1 L (q.2.map (fun e => e.2.1))).isSome)))
  | none => false
theorem witness_blocks : ([(.cpyLossy ctl (opE (.sreg 2) v0 0), [scratchVa + 4096, scratchVa + 8192, 512, scratchVa + 1024, 0, 100, 0, 0]),
    (.cpy2d ctl (opE (.sreg 2) v0 0), [scratchVa + 4096, scratchVa + 8192, 256 + 2 * 2 ^ 32, 512, 512, 0, 0, 0]),
    (.cpy2dLossy ctl (opE (.sreg 2) v0 0), [scratchVa + 4096, scratchVa + 8192, 256 + 2 * 2 ^ 32, 512, 512, scratchVa + 1024, 100, 0]),
    (.gath ctl (opE (.sreg 2) v0 0), [scratchVa + 4096, scratchVa + 8192, scratchVa + 1024, 64 + 2 * 2 ^ 32, 8, 0, 0, 0]),
    (.coll ctl (opE (.sreg 2) v0 0), [scratchVa + 4096, scratchVa + 8192, 256, 0, 0, 6 * 2 ^ 48 + 2 ^ 56, 0, 0]),
    (.collLossy ctl (opE (.sreg 2) v0 0), [scratchVa + 4096, scratchVa + 8192, 256, scratchVa + 1024, 0, 100 + 6 * 2 ^ 48 + 2 ^ 56, 0, 0])] :
    List (Instr × List Nat)).all (fun e => blockGoes e.1 e.2) = true := by decide +kernel
/-- PacketAndMatrixWords: a packet's operand block, and a matrix job's parameter block. -/
theorem witness_packets : ([.nmoCas2 ctl (opE (.sreg 2) (.imm 0) 0), .nmoCas4 ctl (opE (.sreg 2) (.imm 0) 0), .nmoFop ctl (opE (.sreg 2) (.imm 64) 0x60000000),
    .nmoEnq ctl (opE (.sreg 2) (.imm 0) 0), .nmoDeq ctl (opE (.sreg 2) (.imm 0) 0), .nmoChase ctl (opE (.sreg 2) (.imm 0) 0)] : List Instr).all (fun i =>
    match nmoRule i with
    | some (c, o, fn) => i.wf && readyFor c { (({} : Meta).reads false [(o.a, false), (o.b, false)]) with chnOk := false } (atVa heapVa (turn i)) (fun x s =>
        (engWait s x 2 none).isNone && (s.launchOf x.G).any (fun L => src64 x o.a % nmoAlign fn == 0 && src64 x o.b % 64 == 0 && src64 x o.b + 64 ≤ L.rc.scr) &&
        goesFor x s (if fn = 5 then .load else .atomic) false true 8 [(x.low, src64 x o.a)] (fun t ps => t.groups == s.groups &&
          !t.isPoisoned (2 ^ 48 + 1179648 + src64 x o.b) && ps.all (fun a => match a.place with | .pa p _ => spaceOf p != 3 | _ => false) && ps.length == 1))
    | none => false) = true := by decide +kernel
/-- Block: ABASE 16, KS 1, a format, tile 2; B at scratch + 4096 with stride 128. -/
def matrixBlock (sparse : Bool) : List Nat := [16 + 1 * 2 ^ 8 + 2 * 2 ^ 24 + 128 * 2 ^ 32, scratchVa + 4096, if sparse then scratchVa + 8192 else 0,
  if sparse then scratchVa + 12288 else 0, 0, 0, 0, 0]
theorem witness_matrix : ([.mma ctl false (opE (.imm 0) v0 0), .mma ctl true (opE (.imm 0) v0 0), .mmas ctl false (opE (.imm 0) v0 0), .mmas ctl true (opE (.imm 0) v0 0)] :
    List Instr).all (fun i => match mmaRule i with
      | some (c, sparse, _, o) => i.wf && readyFor c { (({} : Meta).read false o.a false) with chnOk := false } (blockAt (matrixBlock sparse) (turn i)) (fun x s =>
          let w := dwords ((List.range 8).map (fun k => s.readN (2 ^ 48 + 1179648 + 8 * k) 8))
          (engWait s x 1 none).isNone && srcScalar x .n32 32 o.a == 0 && !s.isPoisoned (2 ^ 48 + 1179648) && !matBad w (matBlk w) sparse && (matBlk w).acc < x.G.t &&
          (matBlk w).abase + 12 * (matBlk w).ks ≤ x.G.v && (s.launchOf x.G).any (fun L => (matAddr x.G L (matBlk w) sparse).isNone) &&
          (match settleA x.G (matBlk w) sparse s.nextId with | .ok _ => true | _ => false))
      | none => false) = true := by decide +kernel
/-- BufferWords. -/
theorem witness_cbcfg :
    (let o := { opE (.sreg 2) (.sreg 3) 0 with dst := .pred false 1 }
    let i : Instr := .cbcfg ctl o
    let go := fun (geom : Nat) (f : State → State) (q : Ctx → State → Bool) =>
      readyFor ctl { (({} : Meta).reads false [(o.a, false), (o.b, false)]) with chnOk := false }
        (withS [(2, scratchVa), (3, geom)] (f (turn i))) (fun x s => (s.launchOf x.G).any (fun L => (rangeFail x.G L false 64 scratchVa 64).isNone) && q x s)
    i.wf && go (63 + 2 ^ 32) id (fun _ _ => true) && go (64 + 2 ^ 32) id (fun x s => ((s.tileAt x.G.tile).cbufs.look 0).isNone && !cpycbPending s 0 0) &&
    go (2 ^ 20 + 2 ^ 32) (withBuf { aBuf with owner := 7 }) (fun _ _ => true) &&
    go (64 + 64 * 2 ^ 32) (fun s => { withBuf aBuf s with ops := [(9, { anOp with kind := 2, ops := [0, 0] })] }) (fun _ s => cpycbPending s 0 0)) = true := by decide +kernel
theorem witness_cbwait :
    (let o := { opE v0 v0 0 with dst := .sca false 4 }
    let go := fun (full : Bool) (q : CBuf) (p : CBuf → Bool) (owned : Bool) =>
      let i : Instr := if full then .cbwaitFull ctl o else .cbwaitFree ctl { o with imm := 0x08000000 }
      i.wf && readyFor ctl { (({} : Meta).write o.dst false) with chnOk := false } (withBuf q (turn i)) (fun x s =>
        match ownedCb s x 0 with | some q => owned && p q | none => !owned)
    go true aBuf (fun q => q.canServe true && !q.waiters.any (fun w => w.2.1 == true)) true && go false aBuf (fun q => q.canServe false) true &&
    go true { aBuf with n := 0 } (fun q => !q.canServe true) true && go false { aBuf with f := 0 } (fun q => !q.canServe false) true &&
    go true { aBuf with owner := 7 } (fun _ => true) false) = true := by decide +kernel
theorem witness_cbrel :
    (let rel : Instr := .cbrel ctl (opE v0 v0 0)
    let o := opE (.sreg 2) v0 0
    let post : Instr := .cbpost ctl o
    let quiet := fun (s : State) (q : CBuf) => (serveCb (s.updTile 0 (fun t => { t with cbufs := t.cbufs.setAt 0 q })) 0 0 q.waiters.length).groups == s.groups
    rel.wf && post.wf && [aBuf, { aBuf with taken := 0 }].all (fun b => readyFor ctl { chnOk := false } (withBuf b (turn rel)) (fun x s =>
      (ownedCb s x 0).any (fun q => !slgHolds s x.g x.G x.act && quiet s { q with taken := 0, e := 1, f := 2 }))) &&
    [scratchVa, scratchVa + 64].all (fun a => readyFor ctl { (({} : Meta).read false o.a false) with chnOk := false } (atVa a (withBuf aBuf (turn post))) (fun x s =>
      (ownedCb s x 0).any (fun q => !slgHolds s x.g x.G x.act && quiet s (q.publish 0))))) = true := by decide +kernel
/-- SystemWords. -/
theorem witness_system :
    (let at0 := fun (i : Instr) (m : Meta) => i.wf && readyFor ctl m (atS (turn i)) (fun x s => !slgHolds s x.g x.G x.act && (s.partOf x.G).isSome &&
      (s.launches.look x.G.launch).any (fun L => L.halt.isNone))
    at0 (.stlbiVa ctl (opE (.sreg 2) v0 0)) { (({} : Meta).read false (.sreg 2) false) with sOnly := true, chnOk := false } &&
    at0 (.sflushC ctl (opE v0 v0 0)) { sOnly := true, chnOk := false } && at0 (.stlbiAll ctl (opE v0 v0 1)) { sOnly := true, chnOk := false } && at0 (.sflushT ctl (opE v0 v0 1)) { sOnly := true, chnOk := false } &&
    at0 (.sflushP ctl (opE v0 v0 2)) { sOnly := true, chnOk := false } && at0 (.halt ctl (opE v0 v0 255)) { sOnly := true, chnOk := false }) = true := by
  decide +kernel

/-! ### Witnesses: events of groups and the dispatcher -/

/-- An event at the head of the agenda goes on, and something then holds. -/
def happens (i : Instr) (f : State → State) (q : State → Bool) : Bool := after i (f idle) q

/-- WaitsEnd, clause by clause. -/
theorem witness_waits_end : (happens (.stallExpiry 1) (inGroup (fun G => { G with stall := some 0 })) (groupIs (fun G => G.stall.isNone)) &&
    happens (.resultWriteback 1 3) (inGroup (fun G => { G with sb := [(3, 2)] })) (groupIs (fun G => G.sb == [(3, 1)])) &&
    happens (.watchdogExpiry 1 7) (inLanes (fun l => { l with wd := 2 ^ 24 })) (groupIs (fun G => G.laneTest 7 (fun l => l.wdDue) && G.laneTest 6 (fun l => !l.wdDue))) &&
    happens (.sleepWake 1 0) (waiting (.sleep 0)) (laneIs (fun l => l.block == .free && l.yielded.isSome)) &&
    happens (.shrnkRelease 1) (fun s => inGroup (fun G => { G with shrnk := some 255 }) (waiting .shrnk s)) (groupIs (fun G => G.v == 255 && G.shrnk.isNone)) &&
    happens (.stlbiDone 1) (waiting .stlbi) (laneIs (fun l => l.block == .free)) &&
    happens (.heldAccessRetry 0 5) (waiting (.fault ⟨0, 1, 0, 5⟩ 0x50000 false [])) (laneIs (fun l => l.block == .free))) = true := by decide +kernel
/-- PhasesAndTokens. -/
def arrived (d : Nat) : State → State := inLanes (fun l => { l with arr := [(16 * d, 0)] })
theorem witness_phases :
    (let full := fun (d : Nat) (s : State) => (s.launches.look 0).any (fun L => phaseFull s (barGroups s 0 d 0) d 0 (L.phaseOf d 0 0))
    let fabric := fun (s : State) => inLaunch (fun L => { L with fabric := some 0 }) (inPart (fun p => { p with fjob := BitVec.ofNat 64 (1 + 2 ^ 8 + 2 * 2 ^ 16) }) s)
    full 2 (arrived 2 idle) && happens (.barrierPhaseComplete 0 2 0 0) (arrived 2) (fun t => (t.launches.look 0).any (fun L => L.phaseOf 2 0 0 == 1)) &&
    (let s := fabric (arrived 5 idle)
     s.parts.all (fun e => fjobRank e.2 != 0 && fabricFull s e.2 (barGroups s 0 5 0) 0 0)) &&
    happens (.barrierPhaseComplete 0 5 0 0) (fun s => fabric (arrived 5 s)) (partIs (fun P => P.symbols.length == 1))) = true := by decide +kernel
theorem witness_tokens : (happens (.serTokenGrant 0) (inPart (fun p => { p with tokenQ := [1] })) (partIs (fun P => P.token == some 1 && P.tokenQ == [])) &&
    happens (.serTokenTimeout 1) (fun s => inRegion (fun r => { r with ser := true }) (inPart (fun p => { p with token := some 9, tokenQ := [1] }) { s with clock := 65536 }))
      (groupIs (fun G => G.region.isNone && G.laneTest 0 (fun l => l.pc == 0x3000)))) = true := by decide +kernel
/-- GroupsGrowAndEnd: a GROW that fits, one that does not, and an end with errors. -/
def growing (n : Nat) : State → State := fun s => inGroup (fun G => { G with v := 64, grow := some n }) (waiting (.grow 1) s)
theorem witness_grow :
    (let s := growing 65 idle
    oldestOf ((coreGroups s 0 0).filter (fun e => e.2.grow.isSome)) == (s.groups.look 1).map (fun G => (1, G)) &&
    (s.groups.look 1).any (fun G => growBlocked G && (growPlace s 1 G (page4 (65 * G.w * 4))).any (fun q =>
      let w := wakeStore s G.tile G.core (growRuns s q.1 (page4 (65 * G.w * 4)) q.2) (page4 (65 * G.w * 4) - G.winSize)
      w.2 && w.1 == s)) &&
    happens (.growGrant 0 0) (growing 65) (groupIs (fun G => G.v == 65 && G.laneTest 0 (fun l => l.pred 1))) &&
    (growTry s 1).isSome && (growTry (growing 100000 idle) 1).isNone &&
    happens (.growDeadlockResolve 0 0) (growing 100000) (groupIs (fun G => G.v == 64 && G.grow.isNone && G.laneTest 0 (fun l => !l.pred 1)))) = true := by decide +kernel
theorem witness_group_end :
    (let f := fun (s : State) => inGroup (fun G => { G with errs := [⟨0, 3, 8, 64, false, false⟩] }) (inLanes (fun l => { l with exited := true }) s)
    ((f idle).groups.look 1).any (fun G => groupOver (f idle) 1 G) &&
    happens (.groupEnd 1) f (fun t => (t.groups.look 1).isNone && partIs (fun P => P.log.length == 1) t && (t.launches.look 0).any (fun L => L.engErr == some 8))) = true := by
  decide +kernel
/-- QueuesTakeRecords: the host's writes. -/
def queued (Q : Queue) : State → State := inPart (fun p => { p with queues := [(3, Q)] })
def open4 : Queue := { Queue.reset with en := true, budget := 10 }
theorem witness_queues : (happens (.tailWrite 0 3 3 4) (queued open4) (partIs (fun P => P.appended.length == 4)) &&
    happens (.tailWrite 0 3 3 5) (queued open4) (partIs (fun P => P.appended == [] && (P.queue 3).badtail)) &&
    happens (.qbaddWrite 0 3 (BitVec.ofInt 64 (-11))) (queued open4) (partIs (fun P => (P.queue 3).budget == -1)) &&
    happens (.qbaddWrite 0 3 (BitVec.ofNat 64 (2 ^ 63 - 1))) (queued open4) (partIs (fun P => (P.queue 3).budget == 2 ^ 63 - 1)) &&
    happens (.queueControlWrite 0 3 0 0x70F03) (queued Queue.reset) (partIs (fun P => (P.queue 3).en && (P.queue 3).dev && (P.queue 3).log2n == 12 && (P.queue 3).set == 7)) &&
    happens (.queueDisable 0 3) (queued open4) (partIs (fun P => !(P.queue 3).en))) = true := by decide +kernel
/-- A launch record of one group at the heap's address + off. -/
def recordFields : List (Nat × Nat × Nat) := [(0, 2, 1), (8, 8, 0x1000), (0x1D, 1, 4), (0x20, 4, 8), (0x28, 4, 1), (0x2C, 1, 0x12), (0x30, 4, 1), (0x34, 1, 0x23),
  (0x38, 4, 1), (0x3C, 1, 0x34), (0x60, 2, 16), (0xF0, 8, 3)]
def recordAt (off : Nat) (s : State) : State := recordFields.foldl (fun s f => s.writeN (0x40000000 + heapVa + off + f.1) f.2.1 f.2.2) s
def oneRecord : Append := ⟨3, 0, 0, heapVa, none, 0, false, false⟩
def appended (s : State) : State := recordAt 0 (inPart (fun p => { p with queues := [(3, open4)], appended := [oneRecord] }) s)
def recordBytes : List Byte := (appended idle).readBytes (0x40000000 + heapVa) 256
def anEnq (e : EnqReq → EnqReq) : State → State := fun s => inGroup (fun G => { G with enq := some (e ⟨3, 0, heapVa, recordBytes, false, false, List.range 8, 4, false, 1, false⟩) }) s
theorem witness_enq_arrives :
    (let dev := { open4 with dev := true }
    happens (.enqAtDispatcher 1) (fun s => anEnq id (queued open4 s)) (fun t => sIs 4 4 t && laneIs (fun l => l.block == .free && !l.pred 1) t) &&
    happens (.enqAtDispatcher 1) (fun s => anEnq (fun e => { e with psn := true }) (queued dev s)) (sIs 4 3) &&
    happens (.enqAtDispatcher 1) (fun s => anEnq id (queued { dev with levels := [⟨heapVa, 4, 0⟩, ⟨0, 0, 0⟩, ⟨0, 0, 0⟩, ⟨0, 0, 0⟩] } s)) (fun t => sIs 4 2 t && partIs (fun P => (P.queue 3).fulldrop) t) &&
    happens (.enqAtDispatcher 1) (fun s => anEnq id (queued { dev with budget := 2 } s)) (sIs 4 1) &&
    happens (.enqAtDispatcher 1) (fun s => anEnq id (queued { dev with levels := [⟨heapVa, 0, 0⟩, ⟨0, 0, 0⟩, ⟨0, 0, 0⟩, ⟨0, 0, 0⟩] } s))
      (fun t => sIs 4 0 t && laneIs (fun l => l.pred 1) t && partIs (fun P => P.appended.length == 1 && P.enqc == 3 && (P.queue 3).budget == 7) t)) = true := by decide +kernel
/-- A charged ENQ whose ring slot is written, refused, and held by a fault. -/
theorem witness_enq_charged :
    (let ring := fun (va : Nat) (s : State) => anEnq (fun e => { e with charged := true })
       (queued { open4 with dev := true, budget := 7, levels := [⟨va, 0, 0⟩, ⟨0, 0, 0⟩, ⟨0, 0, 0⟩, ⟨0, 0, 0⟩] } s)
     happens (.enqAtDispatcher 1) (ring heapVa) (fun t => sIs 4 0 t && partIs (fun P => P.appended.length == 1 && (P.queue 3).budget == 7) t) &&
     happens (.enqAtDispatcher 1) (ring (2 ^ 48)) (fun t => sIs 4 5 t && partIs (fun P => P.appended == [] && (P.queue 3).budget == 10) t) &&
     happens (.enqAtDispatcher 1) (ring (2 ^ 40)) (groupIs (fun G => G.enq.any (fun e => e.charged)))) = true := by decide +kernel
/-- An ENQ issued again: it reads its record anew. -/
theorem witness_enq_again :
    (let f := fun (s : State) => anEnq (fun e => { e with again := true, bytes := [] }) (queued open4 (recordAt 0 s))
    ((f idle).groups.look 1).any (fun G => G.enq.any (fun e => (enqReread (f idle) 1 G e).2.any (fun e => !e.again && e.bytes == recordBytes))) &&
    happens (.enqAtDispatcher 1) f (groupIs (fun G => G.enq.any (fun e => !e.again && e.bytes == recordBytes)))) = true := by decide +kernel
/-- TasksAdvance. -/
theorem witness_take : (partIs (fun P => endedTasks P == [] && (match dispRead (appended idle) 0 heapVa 256 with
      | (s1, .ok bs) => (checkHead P oneRecord bs (recOf bs)).isNone && (match checkTail (chargeHost s1 0 oneRecord (recOf bs)).1 0 P bs (recOf bs) with | (_, .task _) => true | _ => false)
      | _ => false)) (appended idle) &&
    happens (.recordTake 0) appended (partIs (fun P => P.appended == [] && P.seq == 1 && (P.tasks.look 0).any (fun u => u.rc.v == 16) && (P.queue 3).budget == 7)) &&
    happens (.recordTake 0) (fun s => inPart (fun p => { p with appended := [{ oneRecord with passed := true, cost := 3 }] }) (appended s))
      (partIs (fun P => (P.tasks.look 0).isSome && (P.queue 3).budget == 10))) = true := by
  decide +kernel
def aTask : Task := { seq := 0, part := 0, q := 3, level := 0, set := 0, rc := recOf recordBytes, parent := none, pmap := [], fired := false, polled := 0, since := none,
                      starved := false, launch := none, charged := 3, fin := none, unread := false, ok := true }
def withTask (f : Task → Task) : State → State := inPart (fun p => { p with queues := [(3, open4)], tasks := [(0, f aTask)], seq := 1 })
theorem witness_tasks :
    (let ev := fun (u : Task) => { u with rc := { u.rc with evt := heapVa } }
    partIs (fun P => (P.tasks.look 0).any (fun u => waitingTask u && depsClear P u && u.rc.evt != 0 && !u.fired)) (withTask ev idle) &&
    happens (.eventPoll 0 0) (fun s => withTask ev (s.writeN (0x40000000 + heapVa) 8 1)) (partIs (fun P => (P.tasks.look 0).any (fun u => u.fired))) &&
    happens (.eventPoll 0 0) (withTask ev) (partIs (fun P => (P.tasks.look 0).any (fun u => !u.fired && u.polled == 1))) &&
    partIs (fun P => (P.tasks.look 0).any (fun u => eligible P u)) (withTask id idle) &&
    happens (.taskStarvation 0 0) (fun s => withTask (fun u => { u with since := some 0 }) { s with clock := 2 ^ 20 }) (partIs (fun P => (P.tasks.look 0).any (fun u => u.starved)))) = true := by
  decide +kernel
/-- LaunchesStartAndComplete. -/
theorem witness_start :
    (let s := withTask id idle
    let gated := withTask id (inTile (fun t => { t with gated := [.storeBank 1 0] }) idle)
    [s, gated].all (partIs (fun P => !P.stopped && (P.tasks.look 0).any (fun u => firstInRank s 0 P u && (planNow s 0 P u.rc u.map? false).isSome))) &&
    after (.launchStart 0 0) s (fun t => (t.launches.look 2).any (fun L => L.rc.v == 16) && (t.groups.look 3).any (fun G => G.launch == 2 && G.v == 16 && G.lanes.length == 8)) &&
    after (.launchStart 0 0) gated (fun t => (t.launches.look 2).isNone && (t.tileAt 0).waking != []) &&
    after (.launchStart 0 0) (withTask (fun u => { u with rc := { u.rc with argva := 2 ^ 40, argsz := 16 } }) idle)
      (fun t => (t.launches.look 2).any (fun L => L.starting))) = true := by decide +kernel
theorem witness_complete :
    (let s := withTask (fun u => { u with launch := some 0 }) { idle with groups := [] }
    after (.launchCompletion 0) s (fun t => t.launches == [] && partIs (fun P => P.tasks == []) t) &&
    (let s := withTask (fun u => { u with fin := some (statusWord 0 0 0 0), rc := { u.rc with cva := heapVa, cval := 77, flags := 4 } }) idle
     (completeTask s 0 0).2 && (completeTask s 0 0).1.readN (0x40000000 + heapVa) 8 == 77 && (completeTask s 0 0).1.out == [.irq 0 3])) = true := by decide +kernel
/-- A fabric launch of a job of two that completes here sends its symbols: it declares two barriers, and this wafer has rank 1. -/
theorem witness_complete_fabric :
    (let s := inLaunch (fun L => { L with fabric := some 0, rc := { L.rc with bars := [0, 0, 0, 2] } }) (withTask (fun u => { u with launch := some 0 })
       (inPart (fun p => { p with fjob := BitVec.ofNat 64 (1 + 2 ^ 8 + 2 * 2 ^ 16) }) { idle with groups := [] }))
    after (.launchCompletion 0) s (partIs (fun P => P.fabEnded == [(0, 2)] && P.symbols.length == 2 && P.symbols.all (fun q => q.2 == 1 && !q.1.live)))) = true := by
  decide +kernel
theorem witness_relocation :
    (let s := fun (s : State) => inGroup (fun G => { G with win := 8192, v := 16 }) (waiting (.sleep 100) s)
    ((s idle).groups.look 1).any (fun G => parked (s idle) 1 G && !G.frozen &&
      runFree (areaOf (s idle) G).1 (areaOf (s idle) G).2 (scratchTaken (s idle) 0 0 ++ windowsTaken (s idle) 0 0 [1]) 4096 G.winSize) &&
    happens (.windowRelocation 1 4096) s (groupIs (fun G => G.win == 4096))) = true := by decide +kernel

/-! ### Witnesses: events of memory and translation -/

/-- The heap's first byte in HBM, its line and its granule. -/
def hpa : Nat := 0x40010000
def shared (d : DirEnt → DirEnt) : State → State := fun s => { s with classes := [(hpa / 65536, ⟨.sh, true, none⟩)], dir := [(hpa / 64, d DirEnt.reset)] }
def dirIs (p : DirEnt → Bool) (t : State) : Bool := p (t.dir.lookD DirEnt.reset (hpa / 64))
/-- ClassesAndDirectory. -/
theorem witness_class_flush : happens (.classFlushComplete (hpa / 65536)) (fun s => inTile (fun t => { t with waiters := [⟨hpa, 1⟩] })
      (inRegion (fun r => { r with inputs := [{ input with pa := hpa }] }) { s with classes := [(hpa / 65536, ⟨.prv 0 0, true, some (.sh, true)⟩)] }))
    (fun t => t.classes == [(hpa / 65536, ⟨.sh, true, none⟩)] && (t.tileAt 0).waiters == [] &&
      groupIs (fun G => G.region.any (fun r => r.inputs.all (fun i => i.conflicted))) t) = true := by decide +kernel
theorem witness_directory :
    (let l := hpa / 64
    lineShared (shared id idle) l &&
    happens (.readMiss 5 l) (shared id) (dirIs (fun d => d.st == .s && d.ptrs == [5])) &&
    happens (.readMiss 5 l) (shared (fun d => { d with st := .s, ptrs := [1, 2, 3, 4] })) (dirIs (fun d => d.ptrs == [] && d.bc)) &&
    happens (.readMiss 5 l) (shared (fun d => { d with pend := some (2, true) })) (dirIs (fun d => d.pend == some (2, true) && d.ptrs == [])) &&
    happens (.ownershipRequest 5 l false) (shared (fun d => { d with st := .s, ptrs := [5] })) (dirIs (fun d => d.st == .o && d.owner == 5)) &&
    happens (.ownershipRequest 5 l true) (shared (fun d => { d with st := .s, ptrs := [1, 5] })) (dirIs (fun d => d.acks == [1] && d.pend == some (5, true))) &&
    happens (.invalidation 1 l) (shared (fun d => { d with acks := [1, 2] })) (dirIs (fun d => d.acks == [2])) &&
    happens (.invalidationAcksDone l) (shared (fun d => { d with pend := some (5, true) })) (dirIs (fun d => d.st == .i && d.pend.isNone)) &&
    happens (.invalidationAcksDone l) (shared (fun d => { d with pend := some (5, false) })) (dirIs (fun d => d.st == .o && d.ptrs == [5])) &&
    happens (.readMiss 5 l) (shared (fun d => { d with st := .o, owner := 5, ptrs := [5] })) (dirIs (fun d => d.st == .o)) &&
    happens (.ownershipRequest 5 l false) (shared (fun d => { d with st := .o, owner := 5, ptrs := [5] })) (dirIs (fun d => d.st == .o)) &&
    happens (.l2Eviction l) (shared (fun d => { d with pend := some (2, true) })) (dirIs (fun d => d.pend.isSome)) &&
    happens (.l2Eviction l) (shared (fun d => { d with st := .s, ptrs := [1] })) (dirIs (fun d => d == DirEnt.reset)) &&
    happens (.rdcEviction 5 l) (shared (fun d => { d with st := .o, owner := 5, ptrs := [5] })) (dirIs (fun d => d.st == .i && d.ptrs == []))) = true := by decide +kernel
/-- Broadcast invalidations: the first free channel is taken, and with 8 to 23 taken the request waits. -/
theorem witness_channels :
    (let l := hpa / 64
    let two := inPart (fun p => { p with tiles := [0, 1] })
    let wide := fun (s : State) => shared (fun d => { d with st := .s, bc := true }) (two s)
    let busy := fun (s : State) => let s := wide s
      { s with dir := s.dir ++ (List.range 16).map (fun i => (l + 1 + i, { DirEnt.reset with pend := some (0, true), chan := some (8 + i) })) }
    freeChannel (wide idle) 0 == some 8 && treeTiles (wide idle) 0 != [] && freeChannel (busy idle) 0 == none &&
    happens (.ownershipRequest 0 l false) wide (dirIs (fun d => d.chan == some 8 && d.pend == some (0, false) && d.acks != [])) &&
    happens (.ownershipRequest 0 l false) busy (dirIs (fun d => d.pend.isNone && d.chan.isNone && d.bc))) = true := by decide +kernel
/-- HomesAndUnits. -/
def five (s : State) : State := s.writeN hpa 4 5
def flushing (s : State) : State := { five s with classes := [(hpa / 65536, ⟨.prv 0 0, true, some (.sh, true)⟩)] }
theorem witness_homes : ((claimUnit (five idle) (.req (.reduction 0 hpa 0 .n32 7)) 0 hpa true true).2 && !(claimUnit (flushing idle) (.req (.reduction 0 hpa 0 .n32 7)) 0 hpa true true).2 &&
    happens (.reductionArrival 0 hpa 0 .n32 7) flushing (partIs (fun P => P.heldReqs.length == 1)) &&
    happens (.atomicAtHome 0 hpa 9 .n32 2 7) flushing (partIs (fun P => P.heldReqs.length == 1)) && homedOn idle 0 hpa && !mapped idle hpa && !idle.isPoisoned (locOf idle hpa) && idle.tiles.all (fun e => e.2.wq == []) &&
    happens (.reductionArrival 0 hpa 0 .n32 7) five (fun t => (readPa t hpa 4).2 == 12) &&
    happens (.writeQueueDrain 0 (hpa / 64)) (fun s => inTile (fun t => { t with wq := [⟨hpa / 64, 0, .n32, 0, [(0, 7)]⟩] }) (five { s with clock := 512 })) (fun t => t.readN hpa 4 == 12) &&
    happens (.atomicAtHome 0 hpa 9 .n32 2 7) (fun s => inTile (fun t => { t with waiters := [⟨hpa, 1⟩] }) (five s)) (fun t => t.readN hpa 4 == 7 && (t.tileAt 0).waiters == [])) = true := by
  decide +kernel
theorem witness_units : (happens (.sramError 0 (.corrected 2)) id (fun t => (t.tileAt 0).corr == [(2, [0])]) &&
    happens (.sramError 0 (.dataLine hpa)) id (fun t => t.isPoisoned (hpa + 63) && !t.isPoisoned (hpa + 64)) &&
    happens (.sramError 0 (.register 1 7 255)) id (groupIs (fun G => G.laneTest 7 (fun l => l.vpsn 255))) &&
    happens (.sramError 0 (.tag (hpa / 64))) id (fun t => t.damson.length == 1 && t.isPoisoned hpa && !t.isPoisoned (hpa + 64)) &&
    happens (.sramError 0 (.entry (hpa / 65536))) id (fun t => t.damson.length == 1) &&
    happens (.sramError 0 (.scalar 1 3)) id (groupIs (fun G => G.spsn 3 && !G.spsn 2)) &&
    happens (.sramError 0 (.operand 1 7 255)) id (groupIs (fun G => G.laneTest 7 (fun l => l.vpsn 255))) &&
    happens (.sramError 0 (.acc 1 2)) id (groupIs (fun G => (G.acc.look 2).any (fun a => a.flags == 32))) &&
    mayGate (inTile (fun t => { t with l2 := [(hpa / 64, 3)] }) idle) 0 (.l2Way 3) &&
    happens (.powerGate 0 (.l2Way 3)) (inTile (fun t => { t with l2 := [(hpa / 64, 3)] })) (fun t => (t.tileAt 0).l2 == []) &&
    coreQuiet idle 0 3 && mayGate idle 0 (.storeBank 3 0) && !mayGate idle 0 (.storeBank 0 0) &&
    happens (.powerGate 0 (.storeBank 3 0)) id (fun t => (t.tileAt 0).gated == [.storeBank 3 0]) &&
    happens (.powerGate 0 (.storeBank 0 0)) id (fun t => (t.tileAt 0).gated == []) &&
    happens (.powerWakeDone 0 (.tmBank 1)) (inTile (fun t => { t with waking := [.tmBank 1] })) (fun t => (t.tileAt 0).waking == []) &&
    happens (.pcarveTakeEffect 0 0) (fun s => inPart (fun p => { p with pcarve := (1, 2, 3) }) { s with launches := [] }) (fun t => (t.tileAt 0).carve == (1, 2, 3)) &&
    happens (.pschedTakeEffect 0 3) (inPart (fun p => { p with wdlog := 16 })) (fun t => (t.coreAt 0 3).wdlog == 16)) = true := by decide +kernel
/-- WalksAndStage2: a walk that fills the TLB, one that faults, and a side log's entry. -/
def sideEntry : SlgEnt := { g := 1, page := 1, accs := [⟨[7], heapVa, 4, 9, false⟩], op := none, ty := .n32, ord := 0, sc := 0, priv := false, key := ⟨0, 1, 0, 1⟩ }
def sideLog : State → State := inCore (fun c => { c with slog := [sideEntry] })
theorem witness_walks : (happens (.pageWalkComplete 0 0 (BitVec.ofNat 64 heapVa) .read false) id (fun t => (tlbHit t 0 0 heapVa).isSome) &&
    (match translate idle 0 0 .rd false (2 ^ 40) with | (s1, .fault _) => (s1.tileAt 0).faults.length < 64 | _ => false) &&
    happens (.pageWalkComplete 0 0 (BitVec.ofNat 64 (2 ^ 40)) .read false) id (fun t => (t.tileAt 0).faults.length == 1) &&
    !idle.hasFault sideEntry.key && (match coreTranslate idle 0 0 0 .wr false heapVa with | (s1, .ok _ pa) => pa == hpa && (claim s1 (.lanes 1) 0 0 pa true false).2.isNone | _ => false) &&
    happens (.sideLogReplay 0 0) sideLog (fun t => t.readN hpa 4 == 9 && (t.coreAt 0 0).slog == []) &&
    (let far := inCore (fun c => { c with slog := [{ sideEntry with page := 2 ^ 24, accs := [⟨[7], 2 ^ 40, 4, 9, false⟩] }] })
     (match coreTranslate (far idle) 0 0 0 .wr false (2 ^ 40) with | (_, .fault _) => true | _ => false) &&
     happens (.sideLogReplay 0 0) far (fun t => match (t.coreAt 0 0).slog with | [e] => e.key != sideEntry.key | _ => false))) = true := by decide +kernel
/-- A replay whose address now traps: the page is for S alone. -/
def homeless : State → State := inPart (fun p => { p with homes := [] })
theorem witness_replay_traps : ((match coreTranslate (homeless idle) 0 0 0 .wr false heapVa with | (_, .trap c) => c == 7 | _ => false) &&
    happens (.sideLogReplay 0 0) (fun s => sideLog (homeless s)) (groupIs (fun G => G.laneTest 7 (fun l => l.slg == [(7, heapVa, false)])))) = true := by decide +kernel
/-- A stage-2 leaf for one managed frame in host form at IPA 2^30, and the pool's first frame. -/
def managed (s : State) : State :=
  inPart (fun p => { p with guar := 1 }) ((((s.writeN 0x40101008 8 0x40102001).writeN 0x40102000 8 0x40103001).writeN 0x40103000 8 (2 ^ 63 + 7 * 2 ^ 60 + 3 + 3 * 2 ^ 45)))
def pooled (s : State) : State := { managed s with mpool := 1 }
theorem witness_stage2 : (happens (.s2cmdInvalidateAll 0) (inPart (fun p => { p with s2busy := true })) (partIs (fun P => P.s2drop)) &&
    happens (.s2cmdInvalidateIpa 0 0x10000) (fun s => inTile (fun t => { t with faults := [⟨⟨0, 2, 0, 1⟩, 0, heapVa, 0, 0, 0, 1, none⟩] }) s)
      (fun t => (t.tileAt 0).faults == [] && partIs (fun P => P.s2busy) t) &&
    happens (.s2cmdInvalidateAll 0) id (partIs (fun P => P.s2busy)) &&
    happens (.s2cmdMigrateIn 0 0x10000) id (partIs (fun P => P.s2status == 2 && P.s2seq == 1)) &&
    partIs (fun P => P.res != P.burst || true) (pooled idle) && poolFree (pooled idle) == [0] && partIs (fun P => (regionPages (pooled idle) P (2 ^ 30)).length == 1) (pooled idle) &&
    happens (.s2cmdMigrateIn 0 (BitVec.ofNat 64 (2 ^ 30))) (fun s => inPart (fun p => { p with burst := 1 }) (pooled s)) (partIs (fun P => P.move.isSome && P.s2busy)) &&
    happens (.s2InvalidationDone 0) (inPart (fun p => { p with s2busy := true, s2seq := 2 ^ 32 - 1 })) (partIs (fun P => !P.s2busy && P.s2seq == 0))) = true := by decide +kernel
/-- FaultsAndNotes: the queues. -/
def aFault (st : Nat) (posted : Option Nat) : FaultEnt := ⟨⟨0, st, 0, 1⟩, 0, heapVa, heapVa, 0, 0, 1, posted⟩
/-- Stage 1 is on and maps the first GiB to itself; its queue stands at 0x20000. -/
def stage1 (s : State) : State := inPart (fun p => { p with s1root := 0x30000, s1ctl := 0x20001 }) ((s.writeN 0x40030000 8 0x31001).writeN 0x40031000 8 (7 * 2 ^ 60 + 3))
theorem witness_fault_queue :
    (let q := inPart (fun p => { p with fqen := true, fqbase := 0x1000 })
    happens (.faultRecordPost 0 2) (fun s => inPart (fun p => { p with fatals := [leBytes 64 7] }) (q s)) (fun t => partIs (fun P => P.fqpi == 1 && P.fatals == []) t && t.out == [.irq 64 1]) &&
    happens (.faultRecordPost 0 2) (fun s => inTile (fun t => { t with faults := [aFault 2 none] }) (q s)) (partIs (fun P => P.fqpi == 1)) &&
    happens (.faultRecordPost 0 1) (fun s => inTile (fun t => { t with faults := [aFault 1 none] }) (stage1 s))
      (fun t => partIs (fun P => P.s1pi == 1) t && t.out == [.irq 0 64]) &&
    [0, 2].all (fun r => happens (.faultCiAdvance 0 2 1) (fun s => waiting (.fault ⟨0, 2, 0, 9⟩ 5 false [(⟨0, 2, 0, 1⟩, heapVa)]) (inTile (fun t => { t with faults := [aFault 2 (some 0)] })
        (inPart (fun p => { p with fqpi := 1, fqOpen := [(0, some ⟨0, 2, 0, 1⟩)] }) (q (s.writeN (2 ^ 64 + 0x1000 + 64 + 0x18) 4 r)))))
      (fun t => partIs (fun P => P.fqci == 1) t && (t.tileAt 0).faults == [] && laneIs (fun l => l.deny == if r = 2 then some (9, heapVa, true, false) else none) t)) &&
    happens (.faultCiAdvance 0 1 1) (fun s => inPart (fun p => { p with s1pi := 1 }) (stage1 (s.writeN (0x40020000 + 8) 4 1))) (partIs (fun P => P.s1ci == 1))) = true := by
  decide +kernel
theorem witness_notes :
    (let moving := fun (s : State) => (managed s).writeN 0x40103000 8 (2 ^ 63 + 7 * 2 ^ 60 + 2 ^ 59 + 3 + 3 * 2 ^ 45)
    let val := 2 ^ 63 + 7 * 2 ^ 60 + 2 ^ 59 + 3 + 3 * 2 ^ 45
    let counted := fun (c : Nat) => inPart (fun p => { p with acthr := 3, act := [(512, ⟨c, false, some c⟩)], nqen := true, nqbase := 0x1000 })
    happens (.frameMoveDone 0) (fun s => inPart (fun p => { p with move := some ⟨0x40103000, 2 ^ 30, val, 0, none⟩ }) ((moving s).writeN (2 ^ 64) 4 77))
      (fun t => t.readN 0 4 == 77 && t.readN 0x40103000 8 == val - 2 ^ 59 - 3 * 2 ^ 45 && partIs (fun P => P.res == 1 && P.move.isNone) t) &&
    happens (.accessCountThreshold 0 512) (counted 3) (partIs (fun P => P.nqpi == 1)) &&
    happens (.accessCountThreshold 0 512) (fun s => inPart (fun p => { p with nqpi := 16 }) (counted 3 s)) (partIs (fun P => P.nqovf && P.nqlost == 1)) &&
    happens (.nqciWrite 0 1) (fun s => inPart (fun p => { p with nqpi := 16, nqlost := 2 }) (counted 0 s)) (partIs (fun P => P.nqci == 1 && P.nqpi == 17 && P.nqlost == 0)) &&
    happens .frameTick id (partIs (fun P => P.frmt == mappedFrames idle P))) = true := by decide +kernel

/-! ### Witnesses: engines, contexts -/

/-- A location of the group's scratch. -/
def sc0 : Nat := 2 ^ 48 + 1179648
def withOps (os : List (Nat × EngOp)) : State → State := fun s => { inGroup (fun G => { G with cnt := [(0, os.length)] }) s with ops := os }
/-- An exact copy of 8 bytes, in one chunk; a lossy one of a block. -/
def copy8 : EngOp := { anOp with ops := [BitVec.ofNat 64 (scratchVa + 8192), BitVec.ofNat 64 (scratchVa + 4096), 8] }
def lossy1 : EngOp := { anOp with kind := 0x20, d := 100, ops := [BitVec.ofNat 64 (scratchVa + 8192), BitVec.ofNat 64 (scratchVa + 4096), 256, BitVec.ofNat 64 (scratchVa + 1024), 0, 100, 0, 0] }
/-- CopiesAndCollectives: copies. -/
theorem witness_copies : (happens (.engineCompletion 1 0) (withOps [(9, { anOp with fin := true, err := some ⟨0, 0, 8, 64, false, false⟩ })])
      (fun t => t.ops == [] && groupIs (fun G => G.counter 0 == 0 && G.errs.length == 1) t) &&
    happens (.cpycbSlotAcquire 9) (fun s => withBuf aBuf (withOps [(9, { anOp with kind := 2, ops := [0, BitVec.ofNat 64 scratchVa] })] s))
      (fun t => (t.ops.look 9).any (fun o => o.slot == some 1) && ((t.tileAt 0).cbufs.look 0).any (fun b => b.f == 0 && b.wr == 0)) &&
    (let s := withOps [(9, copy8)] idle
     copyReady s 9 copy8 && chunkCount s copy8 == 1 && firstOpen copy8 1 == 0) &&
    happens (.copyChunkDone 9 ⟨0, false⟩) (fun s => withOps [(9, copy8)] (s.writeN (sc0 + 4096) 8 0x1122334455667788)) (fun t => t.readN (sc0 + 8192) 8 == 0x1122334455667788 &&
      (t.ops.look 9).any (fun o => o.fin))) = true := by decide +kernel
theorem witness_lossy :
    (let s := withOps [(9, lossy1)] (idle.writeN (sc0 + 4096) 4 7)
    copyReady s 9 lossy1 && blockCount lossy1 == 1 && lossyLimit s lossy1 == 100 && (match lossyRead s lossy1 0 with | (_, .ok b) => b.isSome | _ => false) &&
    after (.copyChunkDone 9 ⟨0, true⟩) s (fun t => t.readN (sc0 + 8192) 4 == 0 && t.readN (sc0 + 1024) 1 == 0 && (t.ops.look 9).any (fun o => o.fin)) &&
    (match engPlaces s lossy1 false 4 (blockVas lossy1 0), engPlace s lossy1 .wr false 1 (scratchVa + 1024) with
      | (_, .ok ps), (_, .ok _) => ps.length == 64 && (lossyCounts lossy1).1 == scratchVa + 1024 | _, _ => false) &&
    after (.copyChunkDone 9 ⟨0, false⟩) s (fun t => t.readN (sc0 + 8192) 4 == 7 && t.readN (sc0 + 1024) 1 == 1 && (t.ops.look 9).any (fun o => o.fin)) &&
    after (.lossyDeadline 9) { s with clock := 101 } (fun t => t.readN (sc0 + 8192) 4 == 0 && t.readN (sc0 + 1024) 1 == 0 && (t.ops.look 9).any (fun o => o.fin))) = true := by
  decide +kernel
/-- Collectives: of one participant and of two that disagree. -/
def coll1 : EngOp := { anOp with cls := 3, kind := 4, call := some 5, ops := [BitVec.ofNat 64 (scratchVa + 4096), BitVec.ofNat 64 (scratchVa + 8192), 256, 0, 0, BitVec.ofNat 64 (2 * 2 ^ 32 + 6 * 2 ^ 48 + 2 ^ 56), 0, 0] }
def callOf (n : Nat) (st : Option Nat) : Call := { launch := 0, level := 1, slot := 0, k := 0, parent := 0, n, members := (List.range n).map (fun i => (i, 9 + i)), start := st, closed := [] }
theorem witness_collectives :
    (let at1 := fun (st : Option Nat) (s : State) => { withOps [(9, coll1)] (s.writeN (sc0 + 4096) 4 7) with calls := [(5, callOf 1 st)] }
    happens (.collCallStart 5) (at1 none) (fun t => (t.calls.look 5).any (fun q => q.start == some 0)) &&
    happens (.collCallStart 5) (fun s => { withOps [(9, coll1), (10, { coll1 with kind := 0x24 })] s with calls := [(5, callOf 2 none)] })
      (fun t => t.ops.all (fun e => e.2.fin && e.2.err.isSome)) &&
    (let s := at1 (some 0) idle
     memberOf s (callOf 1 none) 0 == some (9, coll1) && coll1.collKind == 2 &&
     (match collReads s (callOf 1 (some 0)) 2 256 0 1, collPlaces s (callOf 1 (some 0)) 2 256 0 1 with
       | (_, .ok vs), (_, .ok ds) => vs.any Option.isSome && ds.all (fun d => d.2.2.2.2.isNone && engRoom s (fabricFlits 4 d.2.2.2.1)) && ds.length == 1
       | _, _ => false) &&
     after (.collBlockClose 5 0 [0] []) s (fun t => t.readN (sc0 + 8192) 4 == 7 && (t.ops.look 9).any (fun o => o.fin)))) = true := by decide +kernel
/-- PacketsAndMatrixSteps: packets. -/
def packet (kind : Nat) (ws : List Nat) : EngOp := { anOp with cls := 2, kind, ops := ((List.range 8).map (fun i => BitVec.ofNat 64 (ws.getD i 0))) ++ [BitVec.ofNat 64 heapVa, BitVec.ofNat 64 hpa, BitVec.ofNat 64 sc0] }
theorem witness_nmo :
    (let go := fun (o : EngOp) (f : State → State) (q : State → Bool) => happens (.nmoExecute 9) (fun s => withOps [(9, o)] (f s)) (fun t => q t && (t.ops.look 9).any (fun o => o.fin))
    (let o := packet 0x202 [3]
     (nmoClaim (five idle) (nmoOf idle o) hpa true false).2 && !(nmoClaim (flushing idle) (nmoOf idle o) hpa true false).2) &&
    happens (.nmoExecute 9) (fun s => withOps [(9, packet 0x202 [3])] (flushing s)) (fun t => (t.ops.look 9).any (fun o => !o.fin)) &&
    lineOf (hpa + 31) == lineOf hpa && !mapped idle hpa &&
    go (packet 0x202 [3]) five (fun t => t.readN hpa 8 == 8 && t.readN sc0 8 == 5 && t.readN (sc0 + 56) 8 == 0) &&
    go (packet 0x200 [5, 0, 6, 7]) five (fun t => t.readN hpa 8 == 6 && t.readN (hpa + 8) 8 == 7 && t.readN (sc0 + 56) 8 == 0) &&
    go (packet 0x200 [4, 0, 6, 7]) five (fun t => t.readN hpa 8 == 5 && t.readN (sc0 + 56) 8 == 1) &&
    go (packet 0x204 []) id (fun t => t.readN sc0 8 == 0 && t.readN (sc0 + 56) 8 == 1) &&
    go (packet 0x202 [3]) (fun s => { s with poison := [hpa / 64] }) (fun t => t.readN (sc0 + 56) 8 == 3)) = true := by decide +kernel
/-- A packet that runs at once, and one whose wafer has left the connected group. -/
theorem witness_nmo_ends :
    (let o := packet 0x202 [3]
    let far : EngOp := { anOp with cls := 2, kind := 0x202, ops := List.replicate 9 0 ++ [BitVec.ofNat 64 (2 ^ 46 + 5 * 2 ^ 39), BitVec.ofNat 64 sc0] }
    let s := withOps [(9, o)] (five idle)
    nmoStops s (o.word 9) == none && !NmoRes.waits (nmoRun s (nmoOf s o) 2 (o.word 8) (o.word 9) false) &&
    nmoStops idle (far.word 9) == some 0x11 &&
    happens (.nmoExecute 9) (withOps [(9, far)]) (fun t => (t.ops.look 9).any (fun o => o.fin && o.err.map EngErr.code == some 0x11))) = true := by decide +kernel
theorem witness_sloe : ([(⟨none, 7, [3]⟩, some 3), (⟨some 3, 65, [3, 4]⟩, none), (⟨some 3, 64, [3, 4]⟩, some 3), (⟨some 4, 8, [3]⟩, some 4)] : List (SloeEnt × Option Nat)).all (fun e =>
    happens (.sloeWindowEnd 8) (fun s => inTile (fun t => { t with sloe := [(8, e.1)] }) { s with clock := 4096 })
      (fun t => ((t.tileAt 0).sloe.lookD ⟨none, 0, []⟩ 8) == ⟨e.2, 0, []⟩)) = true := by decide +kernel
/-- The matrix engine: ACCZ, ACCLD, a job of one step, ACCST, and a reset. -/
def matrixOp (kind : Nat) (ops : List Nat) : EngOp := { anOp with cls := 1, kind, ops := ops.map (BitVec.ofNat 64), tileNo := 2 }
def stepOf (o : EngOp) (q : State → Bool) : Bool := happens (.matrixKstep 0 0) (withOps [(9, o)]) q
def opIs (q : EngOp → Bool) (t : State) : Bool := (t.ops.look 9).any q
theorem witness_matrix_zero : ((mxNext (withOps [(9, matrixOp 0x102 [])] idle) 0 0).any (fun q => q.1 == 9) && stepOf (matrixOp 0x102 []) (opIs (fun o => o.fin))) = true := by
  decide +kernel
theorem witness_matrix_load : stepOf (matrixOp 0x103 [scratchVa, 128]) (fun t => opIs (fun o => o.fin) t && groupIs (fun G => (accTile G 2).flags == 0) t) = true := by
  decide +kernel
theorem witness_matrix_job : stepOf { matrixOp 0x100 (matrixBlock false) with a := some ⟨[], 1, 0, 0, false, 9, [], [], false, false⟩ } (opIs (fun o => o.done == [0] && o.fin)) = true := by
  decide +kernel
theorem witness_matrix_store : stepOf { matrixOp 0x104 [scratchVa + 4096, 128, 8] with ty := 8 } (opIs (fun o => o.done.length == 8 || o.fin)) = true := by decide +kernel
theorem witness_matrix_reset : happens (.matrixEngineReset 0 0) (fun s => { withOps [(9, matrixOp 0x102 [])] s with clock := 2 ^ 22 })
    (fun t => (t.coreAt 0 0).resets == 1 && t.ops == [] && groupIs (fun G => G.mreset && G.acc == []) t && mxPending (withOps [(9, matrixOp 0x102 [])] idle) 0 0) = true := by
  decide +kernel
/-- ContextsAndReset: each status, a save, a stop and an FLR. -/
theorem witness_contexts :
    (let st := fun (i : Instr) (f : State → State) (n : Nat) => happens i f (partIs (fun P => P.ctxStatus == n && P.pend == []))
    let saving := fun (i : Instr) (f : State → State) => happens i f (fun t => partIs (fun P => P.ctxBusy && P.pend.length == 1) t && t.keySlots == 1)
    let full := fun (s : State) => { s with keySlots := 256 }
    happens (.ctxSave 0 3 0x5000) (inPart (fun p => { p with ctxBusy := true })) (partIs (fun P => P.ctxDrop)) &&
    st (.ctxSave 0 3 0x5000) (inPart (fun p => { p with stopped5 := true })) 1 && st (.migrationStop 0 0 0) id 6 && st (.ctxSave 0 0 0) full 7 &&
    st (.migrationStop 0 0 0) (fun s => full (inPart (fun p => { p with migKey := some 2 }) s)) 7 &&
    saving (.ctxSave 0 3 0x5000) id && saving (.migrationStop 0 0 0) (inPart (fun p => { p with migKey := some 2 })) &&
    st (.ctxRestore 0 0 0) id 1 && st (.ctxRestore 0 0 0) (fun s => full { s with launches := [], groups := [] }) 7) = true := by decide +kernel
theorem witness_flr : (happens (.flr 0) (inPart (fun p => { p with pend := [.grow [1]] })) (partIs (fun P => P.pend == [.grow [1], .flr])) &&
    happens (.flr 0) (inPart (fun p => { p with epoch := 7, tdi := .error })) (fun t => t.groups == [] && t.launches == [] && partIs (fun P => P.epoch == 0 && P.tdi == .error) t)) = true := by
  decide +kernel
/-- FramesAndDirtyLog. -/
theorem witness_frames :
    (let st := fun (i : Instr) (f : State → State) (n : Nat) => happens i f (partIs (fun P => P.ctxStatus == n))
    let keyed := fun (ipa : Nat) => inPart (fun p => { p with migKey := some 2, fipa := ipa })
    happens (.dirtyLogOn 0) id (partIs (fun P => P.dirtyOn)) && happens (.dirtyLogOff 0) (inPart (fun p => { p with dirtyOn := true })) (partIs (fun P => !P.dirtyOn)) &&
    st (.harvest 0 0) id 1 && st (.exportFrame 0 0) id 6 && st (.importFrame 0 0) id 6 && partIs (fun P => (frameAt (keyed (2 ^ 40) idle) P (2 ^ 40)).isNone) (keyed (2 ^ 40) idle) &&
    st (.exportFrame 0 0) (keyed (2 ^ 40)) 2 && partIs (fun P => frameAt (keyed heapVa idle) P heapVa == some hpa) (keyed heapVa idle) &&
    partIs (fun P => P.migKey == some 2 && !P.ctxBusy) (keyed heapVa idle)) = true := by decide +kernel
/-- FastPreemption: marks to be given up, marks to be made, a start in the reserve, and a freeze. -/
def marked (f : Core → Core) : State → State := inCore (fun c => f { c with pre := some 0 })
theorem witness_preemption :
    (let busy := fun (s : State) => withTask (fun u => { u with rc := { u.rc with cls := 2, prio := 3 } }) s
    happens (.fastPreemption 0 0) (marked (fun c => { c with given := [0] })) (fun t => (t.coreAt 0 0).pre.isNone && (t.coreAt 0 0).given == []) &&
    happens (.slotFreeze 0 0 0) (inCore (fun c => { c with freezing := [0] })) (fun t => groupIs (fun G => G.frozen) t && (t.coreAt 0 0).given == [0]) &&
    happens (.slotFreeze 0 0 0) (fun s => inRegion id (inCore (fun c => { c with freezing := [0] }) s)) (groupIs (fun G => G.frozen && G.region.isNone && G.laneTest 0 (fun l => l.pc == 0x3000))) &&
    partIs (fun P => markedCores (busy idle) P 0 == []) (busy idle)) = true := by decide +kernel
/-- Every slot of the tile is taken, and a task of a higher class waits. -/
def crowded (s : State) : State :=
  inLaunch (fun L => { L with slots := (List.range 4).flatMap (fun k => (List.range 16).map (fun j => (0, k, j))) }) (withTask (fun u => { u with rc := { u.rc with cls := 2 } }) s)
theorem witness_reserve :
    (let given := fun (s : State) => inGroup (fun G => { G with frozen := true }) (marked (fun c => { c with given := [0] }) (crowded s))
    partIs (fun P => (P.tasks.look 0).any (fun u => eligible P u && (planNow (crowded idle) 0 P u.rc u.map? false).isNone && firstInRank (crowded idle) 0 P u &&
      (planReserve (crowded idle) 0 P u (freezeChoice (crowded idle) u)).any (fun x => (planSlots x).all (fun q => q.2.1 < 4)))) (crowded idle) &&
    happens (.fastPreemption 0 0) crowded (fun t => (t.coreAt 0 0).pre == some 0 && (t.coreAt 0 0).freezing == [0]) &&
    partIs (fun P => markedCores (given idle) P 0 == [(0, 0)]) (given idle) &&
    happens (.fastPreemption 0 0) given (fun t => (t.coreAt 0 0).pre.isNone && (t.coreAt 0 0).reserve == some 2 && t.launches.any (fun e => e.2.reserve))) = true := by
  decide +kernel

/-! ### Witnesses: partitions, the mesh, the fabric, trust, the host -/

/-- A command's argument: tiles in the first bitmap, and in the second. -/
def tilesAt (a b : Nat) (s : State) : State := (s.writeN (2 ^ 64 + 0x5000) 8 a).writeN (2 ^ 64 + 0x5000 + 128) 8 b
def dmIs (st : Nat) (busy : Bool) (t : State) : Bool := t.dm.status == st && t.dm.busy == busy
/-- PartitionsAndRoutes: held, dropped, refused, and carried out. -/
theorem witness_partitions :
    (let all : List Instr := [.partitionCreate 1 0x5000, .partitionDestroy 1, .partitionGrow 1 0x5000, .partitionShrink 1 0x5000, .partitionCompact 1 0x5000]
    all.all (fun i => happens i (fun s => { s with fwHold := true }) (fun t => t.heldCmds.length == 1) &&
      happens i (fun s => { s with dm := { s.dm with busy := true } }) (fun t => t.dm.drop)) &&
    (all.drop 1).all (fun i => happens i id (dmIs 5 false)) &&
    happens (.partitionCreate 1 0x5000) (tilesAt 1 0) (dmIs 1 false) && happens (.partitionCreate 1 0x5000) (tilesAt 2 0) (fun t => dmIs 0 false t && (t.parts.look 1).any (fun P => P.tiles == [1] && P.tag == 2)) &&
    happens (.partitionGrow 0 0x5000) (tilesAt 4 0) (dmIs 2 false) && happens (.partitionShrink 0 0x5000) (tilesAt 2 0) (dmIs 1 false) &&
    happens (.partitionCompact 0 0x5000) (tilesAt 1 3) (dmIs 1 false) &&
    ([(.partitionDestroy 0, id), (.partitionGrow 0 0x5000, tilesAt 2 0), (.partitionCompact 0 0x5000, tilesAt 1 2)] : List (Instr × (State → State))).all (fun e =>
      happens e.1 e.2 (fun t => dmIs 0 true t && partIs (fun P => P.stopped && P.pend.length == 1) t))) = true := by decide +kernel
theorem witness_reshape :
    (let s := inPart (fun p => { p with tiles := [0, 1] }) { idle with launches := [], groups := [] }
    partIs (fun P => growBad [30] s P == 0 && shrinkBad [1] s P == 0 && compactBad [1] [30] s P == 0) s &&
    happens (.partitionShrink 0 0x5000) (fun _ => tilesAt 2 0 s) (dmIs 0 true) &&
    partIs (fun P => P.tiles == [0, 1, 30] && P.sgen == 1) (drainEffect s 0 (.grow [30])) && partIs (fun P => P.tiles == [0]) (drainEffect s 0 (.shrink [1])) &&
    partIs (fun P => P.tiles == [0, 30]) (drainEffect s 0 (.compact [1] [30])) && (rowanParent [0, 1, 30] 30) == some 0) = true := by decide +kernel
/-- PacketsArrive. -/
def aPacket : Packet := { tag := 1, cls := 3, transit := false, src := 0, dst := 0, addr := hpa, seq := 0, tagOk := true, lossy := false, inbound := false, vf := 0, payload := leBytes 4 0x11223344 }
theorem witness_packets_arrive :
    (let flow := fun (n : Nat) => inTile (fun t => { t with flows := [(8 * 0 + 3, n)] })
    packetOwner idle aPacket == some 0 && packetOwner idle { aPacket with tag := 9 } == none &&
    happens (.packetDelivery { aPacket with tag := 9 }) id (fun t => (t.tileAt 0).drop.any (fun w => w.cnt == 1) && partIs (fun P => P.rxdrop == 1) t) &&
    happens (.packetDelivery aPacket) id (fun t => t.readN hpa 4 == 0x11223344) && happens (.packetDelivery aPacket) (flow 1) (partIs (fun P => P.rxdrop == 1)) &&
    happens (.packetDelivery { aPacket with tagOk := false }) id (fun t => t.isPoisoned hpa) && happens (.packetDelivery { aPacket with seq := 1 }) id (fun t => t.isPoisoned hpa) &&
    happens (.packetDelivery { aPacket with cls := 0, tagOk := false }) id (fun t => t.out == [.refusal]) &&
    happens (.packetDelivery { aPacket with lossy := true, tagOk := false }) five (fun t => t.readN hpa 4 == 0 && !t.isPoisoned hpa) &&
    happens (.packetDelivery { aPacket with lossy := true, seq := 7 }) id (fun t => t.readN hpa 4 == 0x11223344 && (t.tileAt 0).flows.lookD 0 3 == 8) &&
    (claimRange idle (.req (.packet aPacket)) 1024 hpa 4 true false).2 && !(claimRange (flushing idle) (.req (.packet aPacket)) 1024 hpa 4 true false).2 &&
    happens (.packetDelivery aPacket) flushing (partIs (fun P => P.heldReqs == [.packet aPacket])) &&
    happens (.packetDelivery { aPacket with transit := true }) id (fun t => (t.edges.look 0).any (fun e => e.wait.length == 1) && t.mem == idle.mem) &&
    (let e : Edge := { Edge.reset with wait := [{ aPacket with transit := true }, { aPacket with transit := true, tag := 0 }] }
     (edgeServe idle 0 e).any (fun t => (t.edges.look 0).any (fun e => e.wait.length == 1 && e.wait.all (fun k => k.tag == 1) && e.freeAt == packetFlits aPacket))) &&
    happens (.dropWindowClose 0) (fun s => inTile (fun t => { t with drop := some ⟨0, 0, 9, 3, 1, hpa, []⟩ }) { s with clock := 1024 }) (fun t => t.devLog.length == 1 && (t.tileAt 0).drop.isNone) &&
    happens (.dropWindowClose 0) (fun s => inTile (fun t => { t with drop := some ⟨0, 0, 9, 3, 1, hpa, []⟩ }) { s with clock := 1023 }) (fun t => (t.tileAt 0).drop.isSome)) = true := by
  decide +kernel
/-- RekeyingAndTileLoss. -/
theorem witness_rekey :
    (let pending := inPart (fun p => { p with rekeyBusy := true, pend := [.rekey], stopped := true, epoch := 2 ^ 32 - 1 })
    drainHead (pending idle) 0 == some .rekey && drainHead idle 0 == none &&
    happens (.rekeyRequest 0 true) pending (partIs (fun P => P.pend == [.rekey])) && happens (.rekeyRequest 0 true) id (partIs (fun P => P.rekeyBusy && P.rekeyCause == 1)) &&
    happens (.rekeyExecute 0) pending (partIs (fun P => P.epoch == 0 && !P.rekeyBusy)) && happens (.rekeyExecute 0) id (partIs (fun P => P.epoch == 0 && !P.stopped))) = true := by
  decide +kernel
theorem witness_tile_loss :
    (let worn := fun (k n : Nat) (s : State) => s.updTile k (fun t => { t with corr := [(2, List.replicate n 0)] })
    recentCorr (worn 0 64 idle) 0 2 == 64 && recentCorr (worn 0 65 idle) 0 2 == 65 &&
    happens (.tilePredictedFailure 0 2) (worn 0 64) (partIs (fun P => P.pend == [])) && happens (.tilePredictedFailure 0 2) (worn 0 65) (partIs (fun P => P.pend == [.predicted 0 2 0])) &&
    happens (.tilePredictedFailure 5 2) (worn 5 65) (fun t => (t.tileAt 5).retired) && happens (.tileFailure 5) id (fun t => (t.tileAt 5).failed) &&
    goes (exec (.tileFailure 0) idle) &&
    (idle.parts.look (partOfTile idle 0)).isSome && (idle.launches.look 0).any (fun L => launchOn L 0 && L.halt.isNone)) = true := by decide +kernel
/-- PortsTrain. -/
def withPort (f : Port → Port) : State → State := fun s => s.setPort 3 (f Port.reset)
def portIs (p : Port → Bool) (t : State) : Bool := p (t.portAt 3)
def found : TrainResult := { good := 0xFFFF, peerLo := 1, peerHi := 1, peerWafer := 5, peerPort := 2 }
theorem witness_ports :
    (let training := withPort (fun x => { x with en := true, st := 1 })
    happens (.portEnable 3) id (portIs (fun x => x.en && x.st == 1)) && happens (.portDisable 3) training (portIs (fun x => !x.en && x.st == 0)) &&
    happens (.portRetrain 3) (withPort (fun x => { x with en := true, st := 2 })) (portIs (fun x => x.st == 1)) &&
    trainReason idle found == 0 && happens (.trainingDone 3 found) training (portIs (fun x => x.st == 2 && x.peerw == 5)) &&
    happens (.trainingDone 3 { found with good := 0xF0 }) training (portIs (fun x => x.st == 3)) && happens (.trainingDone 3 { found with good := 0x78 }) training (portIs (fun x => x.st == 4 && x.reason == 1)) &&
    happens (.trainingDone 3 { found with peerWafer := 0 }) training (portIs (fun x => x.reason == 3)) && happens (.trainingDone 3 { found with peerLo := 2, peerHi := 2 }) training (portIs (fun x => x.reason == 2)) &&
    happens (.trainingTimeout 3) (fun s => training { s with clock := 2 ^ 24 }) (portIs (fun x => x.reason == 4)) &&
    happens (.waferidWrite 63) id (fun t => t.waferid == 63) && happens (.waferidWrite 63) training (fun t => t.waferid == 0)) = true := by decide +kernel
/-- LinksRun. -/
theorem witness_links :
    (let up := fun (f : Port → Port) => withPort (fun x => f { x with en := true, st := 2, good := 0xFFFF, peerw := 5, nextRx := 2 ^ 32 - 1, replayBuf := [4, 5, 6] })
    let loss := fun (n : BitVec 16) => up (fun x => { x with good := n, loss := [⟨1, true, 0, 0, [7], true, none⟩] })
    happens (.flitReceive ⟨3, none⟩ (2 ^ 32 - 1) true true) (up id) (portIs (fun x => x.nextRx == 0)) && happens (.flitReceive ⟨3, none⟩ 5 true true) (up id) (portIs (fun x => x.nextRx == 2 ^ 32 - 1)) &&
    happens (.flitReceive ⟨3, none⟩ 5 false false) (up id) (portIs (fun x => x.lossydrop == 1)) && happens (.replayRequest 3 5) (up id) (portIs (fun x => x.replays == 2)) &&
    happens (.linkAcknowledgement 3 5) (up id) (portIs (fun x => x.replayBuf == [6])) &&
    happens (.laserLoss 3 1) (up id) (portIs (fun x => x.lit == 13 && x.loss.length == 1)) &&
    happens (.lossOfLightDetect 3 1 true) (up (fun x => { x with loss := [⟨1, true, 0, 0, [], false, none⟩] })) (portIs (fun x => x.reason == 1 && x.loss.all (fun l => l.seen))) &&
    happens (.lossOfLightDetect 3 1 false) (up id) (portIs (fun x => x.loss.length == 1)) &&
    happens (.restripe 3 1 true) (loss 0xFFFF) (portIs (fun x => x.st == 3 && countGood x.good == 12)) && happens (.restripe 3 1 true) (loss 0x00F0) (portIs (fun x => x.st == 4))) = true := by
  decide +kernel
/-- The replay of a restripe ends; a single wavelength fails; a flit that the mesh has not brought is neither sent again nor acknowledged. -/
theorem witness_link_ends :
    (let up := fun (f : Port → Port) => withPort (fun x => f { x with en := true, st := 2, good := 0xFFFF, peerw := 5, replayBuf := [4, 5, 6] })
    let replays := fun (now : Nat) (s : State) => up (fun x => { x with st := 3, good := 0xFF0F, loss := [⟨1, true, 0, 2, [4, 5], true, some 6⟩] }) { s with clock := now }
    happens (.restripe 3 1 true) (replays 5) (fun t => t.devLog == [] && portIs (fun x => x.loss.length == 1) t) &&
    happens (.restripe 3 1 true) (replays 6) (fun t => t.devLog.length == 1 && portIs (fun x => x.loss == [] && x.st == 3) t) &&
    happens (.lossOfLightDetect 3 (4 + 15) false) (up id) (portIs (fun x => x.st == 3 && x.good == 0x7FFF && x.replayBuf == [4, 5, 6])) &&
    happens (.lossOfLightDetect 3 4 true) (up (fun x => { x with good := 0x000F })) (portIs (fun x => x.st == 4 && x.reason == 1)) &&
    happens (.replayRequest 3 4) (fun s => up (fun x => { x with feedAt := s.clock + 2 }) s) (portIs (fun x => x.replays == 1)) &&
    happens (.linkAcknowledgement 3 5) (fun s => up (fun x => { x with feedAt := s.clock + 2 }) s) (portIs (fun x => x.replayBuf == [4, 5, 6]))) = true := by decide +kernel
/-- A forwarded flit goes on by its egress port, and is asked for again without one. -/
theorem witness_onward :
    (let two := fun (s : State) => { (withPort (fun x => { x with en := true, st := 2, good := 0xFFFF, peerw := 5 }) s).setPort 4
      { Port.reset with en := true, st := 2, good := 0xFFFF, peerw := 6 } with routes := [(6, BitVec.ofNat 64 (3 * 2 ^ 14 + 4 * 2 ^ 10))] }
    onwardRoom (two idle) 6 && !onwardRoom (two idle) 7 &&
    happens (.flitReceive ⟨3, some 6⟩ 0 true true) two (fun t => (t.portAt 4).replayBuf.length == 1 && portIs (fun x => x.nextRx == 1) t) &&
    happens (.flitReceive ⟨3, some 7⟩ 0 true true) two (fun t => t.out == [.replay 3 0] && portIs (fun x => x.nextRx == 0) t)) = true := by decide +kernel
/-- ExportsAndSymbols: handle 2 exports a granule at the heap, to partition 7 of any wafer, for every access. -/
def exporting : State → State := inPart (fun p => { p with exports := [(4, BitVec.ofNat 64 (7 + heapVa)), (5, BitVec.ofNat 64 (1 + 7 * 2 ^ 32 + 2 ^ 38))] })
theorem witness_exports :
    (let locked := inPart (fun p => { p with tdi := .locked })
    happens (.exportHandleWrite 0 2 false 7) locked (partIs (fun P => P.tdi == .error)) && happens (.exportHandleWrite 0 63 true (BitVec.ofNat 64 (2 ^ 64 - 1))) id (partIs (fun P => P.exports != [])) &&
    happens (.exportHandleWrite 0 2 false 0) exporting (partIs (fun P => !bitN (P.export 2 false) 0)) && happens (.exportHandleWrite 0 2 true 0) exporting (partIs (fun P => P.export 2 true != 0)) &&
    partIs (fun P => exportOk P 9 7 2 65532 (.read 4) && !exportOk P 9 7 2 65533 (.read 4) && !exportOk P 9 6 2 0 (.read 4)) (exporting idle) &&
    happens (.fabricRequest 0 9 6 2 0 (.read 4)) exporting (fun t => t.out == [.refusal]) &&
    happens (.fabricRequest 0 9 7 2 0 (.read 4)) (fun s => inPart (fun p => { p with pend := [.grow [1]] }) (exporting s)) (partIs (fun P => P.heldReqs.length == 1)) &&
    happens (.fabricRequest 0 9 7 2 0 (.read 4)) (fun s => exporting (flushing s)) (partIs (fun P => P.heldReqs.length == 1)) &&
    (match stage2 (exporting idle) (((exporting idle).parts.look 0).getD (Part.fresh 0 [] 0 0)) heapVa with
      | (s1, .page b _ a r w _ _) => a + (heapVa - b) == hpa && !s2Denies .rd r w false && (paCheck s1 0 .rd hpa).isNone && (claimRange s1 (.req (.fabric 9 7 2 0 (.read 4) heapVa)) 1024 hpa 4 false false).2
      | _ => false) &&
    happens (.fabricRequest 0 9 7 2 0 (.read 4)) (fun s => exporting (five s)) (fun t => t.out == [.bytes [5, 0, 0, 0]]) &&
    happens (.fabricRequest 0 9 7 2 0 (.write [1, 2])) exporting (fun t => t.readN hpa 2 == 0x201) &&
    happens (.fabricRequest 0 9 7 2 0 (.atomic 0 .n32 3 0)) (fun s => exporting (five s)) (fun t => t.readN hpa 4 == 8 && t.out == [.value 5])) = true := by decide +kernel
theorem witness_exports_more :
    (let go := fun (op : FabricOp) (q : State → Bool) => happens (.fabricRequest 0 9 7 2 0 op) (fun s => exporting (five s)) q
    (homeTile (five idle) 0 hpa).isSome && go (.write [1, 2]) (fun t => t.out == [.ack]) &&
    go (.reduction 0 .n32 3) (fun t => t.out == [.ack] && (readPa t hpa 4).2 == 8) && go (.waita .n32 5) (fun t => t.out == [.value 1]) &&
    go (.waita .n32 6) (fun t => (t.tileAt ((homeTile (five idle) 0 hpa).getD 0)).waiters == [⟨hpa, 2 ^ 40 + 9⟩]) &&
    go (.nmo 2 0 [3]) (fun t => t.readN hpa 8 == 8 && (match t.out with | [.bytes bs] => bs.length == 64 | _ => false))) = true := by decide +kernel
theorem witness_symbols :
    (let y : BarSym := ⟨0, 0, 3, 4, true⟩
    let job := fun (rank : Nat) (sy : List (BarSym × Nat)) => fun (s : State) => inLaunch (fun L => { L with fabric := some 0 })
      (inPart (fun p => { p with fjob := BitVec.ofNat 64 (1 + rank * 2 ^ 8 + 2 * 2 ^ 16), symbols := sy }) s)
    let phase := fun (rank n : Nat) (t : State) => (t.launches.look 0).any (fun L => L.phaseOf 5 rank 3 == n)
    (job 1 [] idle).parts.all (fun e => fjobRank e.2 == 1 && fjobMem e.2 == 2 && fjobEn e.2 && fjobId e.2 == 0) &&
    (fabricLaunch (job 1 [] idle) 0 0).any (fun e => e.1 == 0) &&
    happens (.fabricBarrierSymbol 0 y 1 false) (inPart (fun p => { p with stopped := true })) (partIs (fun P => P.heldReqs.length == 1)) &&
    happens (.fabricBarrierSymbol 0 y 1 false) (fun s => inLaunch (fun L => { L with fabric := none }) (inPart (fun p => { p with ctxs := [(0, ⟨0, true⟩)] }) (job 0 [] s)))
      (partIs (fun P => P.heldReqs.length == 1)) &&
    happens (.fabricBarrierSymbol 0 { y with job := 5 } 1 false) (job 0 []) (partIs (fun P => P.symbols == [] && P.heldReqs == [])) &&
    happens (.fabricBarrierSymbol 0 y 0 true) (job 1 [(y, 1)]) (phase 1 1) &&
    fabricReady (Part.fresh 0 [] 0 0) 0 3 == false &&
    happens (.fabricBarrierSymbol 0 y 1 false) (job 0 [(y, 0)]) (fun t => phase 0 1 t && t.out.any (fun r => match r with | .symbol _ z 0 true => z.id == 3 | _ => false)) &&
    happens (.fabricBarrierSymbol 0 { y with count := 5 } 1 false) (job 0 [(y, 0)]) (phase 0 0) &&
    happens (.fabricBarrierSymbol 0 y 1 false) (job 0 []) (fun t => phase 0 0 t && partIs (fun P => P.symbols == [(y, 1)]) t)) = true := by
  decide +kernel
/-- InterfacesAndSessions. -/
theorem witness_interfaces :
    (let sess := fun (d : Tdi) => inPart (fun p => { p with session := true, tdi := d })
    let refused := fun (i : Instr) (f : State → State) => happens i f (fun t => t.out == [.refusal])
    let tdi := fun (i : Instr) (a b : Tdi) => happens i (sess a) (partIs (fun P => P.tdi == b))
    ([.lockInterfaceRequest ⟨0, 0x10⟩, .startInterfaceRequest ⟨0, 0x10⟩, .stopInterfaceRequest ⟨0, 0x10⟩] : List Instr).all (fun i =>
      happens i (fun s => { s with fwHold := true }) (fun t => t.heldCmds.length == 1) && refused i id) &&
    tdi (.lockInterfaceRequest ⟨0, 0x10⟩) .unlocked .locked && refused (.lockInterfaceRequest ⟨0, 0x10⟩) (sess .error) && tdi (.startInterfaceRequest ⟨0, 0x10⟩) .locked .run && refused (.startInterfaceRequest ⟨0, 0x10⟩) (sess .run) &&
    tdi (.stopInterfaceRequest ⟨0, 0x10⟩) .error .unlocked && tdi (.stopInterfaceRequest ⟨0, 0x10⟩) .unlocked .unlocked && tdi (.stopInterfaceRequest ⟨0, 0x10⟩) .run .unlocked &&
    ([.lockInterfaceRequest ⟨0, 0x11⟩, .startInterfaceRequest ⟨0, 0x11⟩, .stopInterfaceRequest ⟨0, 0x11⟩, .keyExchange ⟨0, 0x12⟩, .challenge ⟨0, 0x12⟩ [1], .getMeasurements ⟨0, 0x12⟩ 1 true] :
      List Instr).all (fun i => refused i (sess .unlocked)) &&
    happens (.stopInterfaceRequest ⟨0, 0x10⟩) (fun s => inPart (fun p => { p with pend := [.grow [1]] }) (sess .run s)) (partIs (fun P => P.pend == [.grow [1], .flr] && P.tdi == .run)) &&
    happens (.tvecWrite 0 0x2003) (sess .unlocked) (partIs (fun P => P.tvec == 0x2000)) && happens (.tvecWrite 0 0x2003) (sess .run) (partIs (fun P => P.tdi == .error && P.tvec == 0)) &&
    (idle.parts.look 0).isSome) = true := by decide +kernel
theorem witness_sessions :
    (let anon := fun (s : State) => { s with identity := false }
    let refused := fun (i : Instr) (f : State → State) => happens i f (fun t => t.out == [.refusal])
    signKey (anon idle) 0 == none && (signKey idle 0).isSome && (measured idle 0 1).isSome && refused (.keyExchange ⟨0, 0x13⟩) anon && refused (.challenge ⟨0, 0x13⟩ [1]) anon && refused (.getMeasurements ⟨0, 0x13⟩ 1 true) anon &&
    (signKey idle 64).isSome && happens (.keyExchange ⟨64, 0x13⟩) id (fun t => t.out.length == 1) && measured idle 0 9 == none && refused (.getMeasurements ⟨0, 0x13⟩ 9 true) id &&
    happens (.keyExchange ⟨0, 0x13⟩) id (partIs (fun P => P.session)) && happens (.challenge ⟨0, 0x13⟩ [1]) id (fun t => t.out.length == 1) && happens (.getMeasurements ⟨0, 0x13⟩ 1 false) id (fun t => t.out.length == 1) &&
    refused (.ideKmKeyProg ⟨0, 0x13⟩ 9) id && refused (.fwAck ⟨0, 0x13⟩ [1]) id && refused (.migrationKeyMessage ⟨0, 0x12⟩ none) id &&
    (let sess := inPart (fun p => { p with session := true })
     let busy := fun (s : State) => { sess s with edges := [(0, { Edge.reset with wait := [{ aPacket with transit := true }] })] }
     happens (.ideKmKeyProg ⟨0, 0x13⟩ 9) sess (partIs (fun P => P.ideKey == some 9)) &&
     happens (.ideKmKeyProg ⟨0, 0x13⟩ 9) busy (partIs (fun P => P.ideKey.isNone && P.heldReqs == [.ide 9]))) &&
    happens (.fwAck ⟨0, 0x13⟩ [1]) (inPart (fun p => { p with session := true })) (partIs (fun P => P.fwAck == some [1]))) = true := by decide +kernel
/-- KeyCommands. -/
def kmIs (st : Nat) (busy : Bool) (t : State) : Bool := t.km.status == st && t.km.busy == busy
theorem witness_keys :
    (let area : BitVec 64 := 0x5000
    let arg := fun (n v : Nat) (s : State) => s.writeN (2 ^ 64 + 0x5000) n v
    let bound := fun (l : FMap Nat) => inPart (fun p => { p with imports := [(0, 0x8000)], bound := l })
    ([.bindFabricImport 0 area, .stageFirmware area true, .activateFirmware, .discardStaged, .lifeCycleTransition area true, .establishMigrationKey 0 area, .retireMigrationKey 0] : List Instr).all (fun i =>
      happens i (fun s => { s with km := { s.km with busy := true } }) (fun t => t.km.drop)) &&
    happens (.bindFabricImport 9 area) id (kmIs 8 false) && happens (.establishMigrationKey 9 area) id (kmIs 8 false) &&
    happens (.bindFabricImport 0 area) (arg 1 64) (kmIs 6 false) && happens (.bindFabricImport 0 area) (bound [(0, 3)]) (kmIs 0 false) &&
    happens (.bindFabricImport 0 area) (fun s => bound [] { s with keySlots := 256 }) (kmIs 5 false) &&
    ((bound [] idle).parts.look 0).any (fun P => bitN (P.imports.lookD 0 0).toNat 15 && (P.bound.look 0).isNone) && (bound [] idle).keySlots == 0 &&
    happens (.stageFirmware area false) id (kmIs 1 false) && happens .discardStaged id (kmIs 0 false)) = true := by decide +kernel
theorem witness_firmware :
    (let staged := fun (s : State) => { s with staged := 3, stagedDigest := [7] }
    activateStatus (staged idle) == 0 && happens .activateFirmware id (kmIs 6 false) && happens .activateFirmware staged (fun t => t.fwHold && kmIs 0 true t) &&
    happens .activateFirmware (fun s => staged { s with parts := [], groups := [], launches := [] }) (fun t => t.active == [7] && t.fused == 3) &&
    happens (.lifeCycleTransition 0x5000 true) (fun s => { s with lcs := 3 }) (kmIs 7 false) && happens (.lifeCycleTransition 0x5000 false) id (kmIs 1 false) &&
    happens (.lifeCycleTransition 0x5000 true) id (fun t => t.fwHold && t.lcs == 2) &&
    happens (.lifeCycleTransition 0x5000 true) (fun s => { s with parts := [], groups := [], launches := [] }) (fun t => t.lcs == 3 && !t.identity && t.mem == [])) = true := by decide +kernel
/-- RingsAndHostAccesses. -/
theorem witness_rings :
    (let ring : Ring := { Ring.reset with en := true, base := 0x6000, pi := 2 }
    let rings := inPart (fun p => { p with usagePf := ring, usageVf := ring, eventPf := ring, eventVf := ring })
    [RingId.usagePf, .usageVf, .eventPf, .eventVf].all (fun r => happens (.ringCiWrite 0 r 3) rings (partIs (fun P => P.usagePf.ci == 0)) && happens (.ringCiWrite 0 r 2) rings (fun t =>
      partIs (fun P => (P.usagePf.ci + P.usageVf.ci + P.eventPf.ci + P.eventVf.ci) == 2) t)) &&
    happens (.ringCiWrite 0 .device 3) (fun s => { s with devRing := ring }) (fun t => t.devRing.ci == 0) && happens (.ringCiWrite 0 .device 2) (fun s => { s with devRing := ring }) (fun t => t.devRing.ci == 2) &&
    partIs (fun P => P.usagePf.en && P.usagePf.room && !P.usageVf.en) (inPart (fun p => { p with usagePf := ring }) idle) && idle.parts.length == 1) = true := by decide +kernel
theorem witness_host : (ownerOf idle hpa == some 0 && happens (.hostMemoryAccess (2 ^ 47 + 0x1028) none 8) id (fun t => t.out == [.value 28000]) &&
    happens (.hostMemoryAccess (2 ^ 46) none 8) id (fun t => t.out == [.refusal]) && happens (.hostMemoryAccess hpa (some [1, 2]) 0) id (fun t => t.readN hpa 2 == 0x201) &&
    happens (.hostMemoryAccess hpa none 4) five (fun t => t.out == [.bytes [5, 0, 0, 0]]) &&
    (claimRange idle (.req (.host hpa (some [1, 2]) 0)) 1024 hpa 2 true false).2 && happens (.hostMemoryAccess hpa (some [1, 2]) 0) flushing (partIs (fun P => P.heldReqs.length == 1)) &&
    happens (.hostMemoryAccess hpa none 4) (inPart (fun p => { p with pend := [.grow [1]] })) (partIs (fun P => P.heldReqs.length == 1)) &&
    (let behind := inPart (fun p => { p with heldReqs := [.host hpa none 4] })
     partIs (fun P => hostBehind P (.host hpa (some [1, 2]) 0) && !hostBehind P (.host hpa none 4)) (behind idle) &&
     happens (.hostMemoryAccess hpa (some [1, 2]) 0) behind (partIs (fun P => P.heldReqs.length == 2))) &&
    ownerOf idle (tmPa 5 0) == none && happens (.hostMemoryAccess (tmPa 5 0) (some [1, 2]) 0) id (fun t => t.readN (tmPa 5 0) 2 == 0x201) &&
    spaceOf (2 ^ 45 + 2 ^ 46) == 3 && happens (.hostMemoryAccess (2 ^ 45 + 2 ^ 46 + 8) (some [1, 2]) 0) id (fun t => t.readN (2 ^ 64 + 8) 2 == 0x201)) = true := by decide +kernel
/-- RegisterWritesAndTrips. -/
theorem witness_registers :
    (let w := fun (sp : RegSpace) (off : Nat) (v : Nat) (f : State → State) (q : State → Bool) => happens (.registerWrite sp 0 off (BitVec.ofNat 64 v)) f q
    w .dm 0x1028 65535 id (fun t => t.pwrlim == 28000) && w .dm 0x1028 0 id (fun t => t.pwrlim == 10000) && w .dm 0x1020 7 id (fun t => t.mpool == 7) &&
    w .dm 0x1020 7 (fun s => { s with frames := [(0, ⟨0, 0, 0, 0⟩)] }) (fun t => t.mpool == 0) && happens (.registerWrite .pf 9 0x040 7) id (fun t => (t.parts.look 9).isNone) &&
    lockedOff 0x040 && w .pf 0x040 7 (inPart (fun p => { p with tdi := .run })) (partIs (fun P => P.tdi == .error && P.pcarve == (12, 48, 32))) &&
    w .pf 0x040 0xFFFFFF id (partIs (fun P => P.pcarve == (48, 88, 76))) && w .pf 0x060 0x3FF id (partIs (fun P => P.wdlog == 31 && P.maxcls == 3)) &&
    w .pf 0x060 0 id (partIs (fun P => P.wdlog == 16)) && w .pf 0x0A8 0x1F id (partIs (fun P => P.fqen && P.fqsz == 8)) && w .pf 0x108 0 id (partIs (fun P => P.weight == 1)) &&
    happens (.hostMemoryAccess (2 ^ 47 + 0x100088) (some [1]) 8) (inPart (fun p => { p with s2busy := true })) (partIs (fun P => P.s2drop)) &&
    !fabricResident idle 0 && w .pf 0x128 1 id (partIs (fun P => P.fjob == 1)) && fabricResident (inLaunch (fun L => { L with fabric := some 0 }) idle) 0 &&
    w .pf 0x128 1 (inLaunch (fun L => { L with fabric := some 0 })) (partIs (fun P => P.fjob == 0)) &&
    w .pf 0x128 (7 * 2 ^ 32 + 1) (inPart (fun p => { p with fabLaunches := 3 })) (partIs (fun P => fjobId P == 7 && P.fabLaunches == 0))) = true := by decide +kernel
theorem witness_trips : (happens (.thermalTrip 2) id (fun t => t.tripped && t.trip == 2) && happens .powerTripTimeout (fun s => { s with mhz := 875 }) (fun t => t.trip == 3) &&
    happens .powerTripTimeout id (fun t => !t.tripped) && happens (.clockThrottle 875) id (fun t => t.mhz == 875) && happens (.clockThrottle 1750) id (fun t => t.mhz == 1750) &&
    (match step { idle with tripped := true } with | .fault .heldInReset => true | _ => false)) = true := by decide +kernel
/-- PhasesAndTokens and ResetWipes: a module reset of any state. -/
theorem witness_module_reset : happens .moduleReset (fun s => { (five s) with tripped := true, trip := 2 }) (fun t => t.mem == [] && t.parts == [] && !t.tripped && t.trip == 2) = true := by decide +kernel

/-! ### A witness whose bytes are open values -/

theorem length_leBytes (n v : Nat) : (leBytes n v).length = n := by
  induction n generalizing v with
  | zero => rfl
  | succ n ih => simp only [leBytes, List.length_cons, ih]
theorem length_padTo (n : Nat) (bs : List Byte) : (padTo n bs).length = n := by
  simp only [padTo, List.length_append, List.length_take, List.length_replicate]; omega
theorem padTo_of_length (n : Nat) (bs : List Byte) (h : bs.length = n) : padTo n bs = bs := by
  subst h; simp only [padTo, List.take_length, Nat.sub_self, List.replicate_zero, List.append_nil]
theorem readBytes_writeBytes (s : State) (l k : Nat) (a b c : List Byte) (h : a.length = k) :
    (s.writeBytes l (a ++ b ++ c)).readBytes (l + k) b.length = b := by
  apply List.ext_getElem
  · simp [State.readBytes]
  · intro i h1 h2
    have : i < b.length := h2
    simp only [State.readBytes, List.getElem_map, List.getElem_range]
    rw [show l + k + i = l + (k + i) by omega, State.byteAt_writeBytes_of_inside _ _ _ _ (by simp; omega)]
    subst h
    simp [this]

/-- A state in whose host memory an image stands as it was sealed. -/
def State.withImage (s : State) (m : Image) : State := { s with images := [m], mem := (s.writeBytes (hostLoc m.area) m.header).mem }
theorem readBytes_withImage (s : State) (m : Image) (l n : Nat) :
    (State.withImage s m).readBytes l n = (s.writeBytes (hostLoc m.area) m.header).readBytes l n := rfl
theorem header_stands (s : State) (m : Image) : (State.withImage s m).readBytes (hostLoc m.area) 96 = m.header := by
  have h := readBytes_writeBytes s (hostLoc m.area) 0 [] m.header [] rfl
  have hl : m.header.length = 96 := by
    simp only [Image.header, imageHeader, List.length_append, length_leBytes, length_padTo]
  rw [hl] at h
  simpa only [readBytes_withImage, List.nil_append, List.append_nil, Nat.add_zero] using h
theorem imageAt_withImage (s : State) (m : Image) (hb : m.body = []) : imageAt (State.withImage s m) m.area = some m := by
  have h : (State.withImage s m).readBytes (hostLoc (m.area + 96)) m.body.length = m.body := by rw [hb]; rfl
  have hi : (State.withImage s m).images = [m] := rfl
  simp only [imageAt, hi, List.find?, header_stands, h, beq_self_eq_true, Bool.and_self]
theorem key_stands (s : State) (m : Image) (hk : m.ckey.length = 48) (ha : m.area + 0x10 < 2 ^ 64) :
    (State.withImage s m).readBytes (hostLoc (m.area + 0x10)) 48 = m.ckey := by
  have h := readBytes_writeBytes s (hostLoc m.area) 16 (leBytes 2 1 ++ leBytes 1 m.kind ++ leBytes 1 m.ctx ++ leBytes 4 m.ntiles ++ leBytes 8 m.size) m.ckey
    (leBytes 4 m.epoch ++ leBytes 4 0 ++ leBytes 8 m.seq ++ leBytes 12 (Config.imageIv m.no).toNat ++ leBytes 4 0)
    (by simp only [List.length_append, length_leBytes])
  have e : hostLoc (m.area + 0x10) = hostLoc m.area + 16 := by simp only [hostLoc]; omega
  rw [hk] at h
  rw [readBytes_withImage, e]
  refine Eq.trans ?_ h
  simp only [Image.header, imageHeader, padTo_of_length _ _ hk, List.append_assoc]

/-- ContextsAndReset: an image that the device accepts stands in host memory. -/
def sealedImage (s : State) : Image :=
  ⟨0x5000, 1, 0, 1, 96, ckey s, 0, 0, 0, 0, [0], s.groups, s.launches, [], [], [], [], [], [], [], [], [], [], [], 0, 0, [], 0, 0, 0, 24, [], 0, []⟩
def restorable (s : State) : State := State.withImage { s with groups := [], launches := [] } (sealedImage s)
theorem witness_restore_image (s : State) : (restorable s).readBytes (hostLoc (0x5000 + 0x10)) 48 = ckey s := by
  exact key_stands { s with groups := [], launches := [] } (sealedImage s) (length_padTo 48 _) (by show 0x5000 + 0x10 < 2 ^ 64; omega)
theorem witness_restore_at (s : State) : imageAt (restorable s) 0x5000 = some (sealedImage s) :=
  imageAt_withImage { s with groups := [], launches := [] } (sealedImage s) rfl
theorem witness_restore_key (s : State) : ckey (restorable s) = ckey s := rfl
theorem witness_restore : ((restorable idle).parts.look 0).any (fun P => !P.ctxBusy && !P.stopped5 && imageOk P 0 (sealedImage idle)) = true ∧
    partLaunches (restorable idle) 0 = [] ∧ (restorable idle).keySlots < 256 ∧ (sealedImage idle).groups.length = 1 := by
  decide +kernel

/-- ContextsAndReset: the two checks that refuse an image. -/
theorem witness_restore_refused : (let bare := fun (s : State) => { s with groups := [], launches := [] }
    partLaunches (bare idle) 0 == [] && (imageAt { bare idle with images := [sealedImage idle] } 0x6000).isNone &&
    partIs (fun P => !imageOk P 0 { sealedImage idle with seq := 5 }) (restorable idle)) = true := by decide +kernel
/-- ContextsAndReset and FramesAndDirtyLog: host memory that holds the module's compatibility key at a location, and one that does not. -/
theorem witness_keys_stand (s : State) (l : Nat) :
    (let t : State := { s with mem := (s.writeBytes l (padTo 48 (ckey s))).mem }
     t.parts = s.parts ∧ t.readBytes l 48 = padTo 48 (ckey t)) ∧
    (let t : State := { s with mem := (s.writeBytes l ((padTo 48 (ckey s)).map (· + 1))).mem }
     t.parts = s.parts ∧ t.readBytes l 48 ≠ padTo 48 (ckey t)) := by
  have hl := length_padTo 48 (ckey s)
  refine ⟨⟨rfl, ?_⟩, rfl, ?_⟩
  · have h := readBytes_writeBytes s l 0 [] (padTo 48 (ckey s)) [] rfl
    rw [hl] at h
    simp only [List.nil_append, List.append_nil, Nat.add_zero] at h
    exact h
  · have h := readBytes_writeBytes s l 0 [] ((padTo 48 (ckey s)).map (· + 1)) [] rfl
    rw [List.length_map, hl] at h
    simp only [List.nil_append, List.append_nil, Nat.add_zero] at h
    intro hk
    have e := (h : _ = _).symm.trans hk
    have e0 := congrArg (fun x : List Byte => x.head?) e
    revert hl e0
    change (padTo 48 (ckey s)).length = 48 → _ = (padTo 48 (ckey s)).head? → False
    cases padTo 48 (ckey s) with
    | nil => simp
    | cons b bs => simp
/-- FramesAndDirtyLog: a frame that stands in host memory as it was exported, and lines to import it to. -/
theorem witness_import (s : State) (d : List Byte) (l : List Nat) :
    sealedFrame { s with exportsOut := [(0x5000, 2, d, l, s.readBytes (hostLoc 0x5000) 65600)] } 2 0x5000 = some (d, l) := by
  have h : ({ s with exportsOut := [(0x5000, 2, d, l, s.readBytes (hostLoc 0x5000) 65600)] } : State).readBytes (hostLoc 0x5000) (65536 + 64) =
    s.readBytes (hostLoc 0x5000) 65600 := rfl
  simp only [sealedFrame, h, List.find?, beq_self_eq_true, Bool.and_self]
theorem witness_frame_lines : ((List.range 1024).all (fun i => !mapped idle (hpa + 64 * i)) && idle.tiles.all (fun e => e.2.wq == [])) = true := by decide +kernel
theorem witness_harvest : (let t := inPart (fun p => { p with dirtyOn := true, dirty := [3] }) idle
    partIs (fun P => P.dirtyOn && partIs (fun P1 => P1.dirty == [3]) (P.tiles.foldl drainTile t)) t) = true := by decide +kernel
/-- KeyCommands: an argument of zeros is refused by nothing, and its exchange goes on; and its message. -/
theorem readBytes_empty (s : State) (h : s.mem = []) (l n : Nat) : s.readBytes l n = List.replicate n 0 := by
  apply List.ext_getElem
  · simp [State.readBytes]
  · intro i _ _
    simp only [State.readBytes, List.getElem_map, List.getElem_replicate, State.byteAt, h]
    rfl
theorem byteOf_zeros (n i : Nat) : byteOf (List.replicate n 0) i = 0 := by
  simp only [byteOf, List.getD_eq_getElem?_getD, List.getElem?_replicate]; split <;> rfl
theorem witness_exchange (s : State) (p : Nat) (P : Part) (a : Nat) (h : s.mem = []) (hk : s.keySlots = 0) (hs : P.stopped = false) :
    migStatus s p P (s.readBytes a 4096) = 0 := by
  have hf (l : List Nat) : l.any (fun i => i != 0 && !(decide (8 ≤ i) && decide (i ≤ 56)) && 0 != 0) = false := by
    simp
  rw [readBytes_empty s h]
  simp only [migStatus, byteOf_zeros, hk, hs, hf, Nat.zero_sub]
  rfl
theorem witness_key_message :
    (let waits := inPart (fun p => { p with migWait := some (0, [], 0) })
    happens (.migrationKeyMessage ⟨0, 0x13⟩ (some [])) waits (fun t => kmIs 0 false t && partIs (fun P => P.migKey.isSome) t) &&
    happens (.migrationKeyMessage ⟨0, 0x13⟩ none) waits (kmIs 1 false) && happens (.retireMigrationKey 0) id (kmIs 0 false)) = true := by decide +kernel

end Sys2Proof.Tests
end

section
/-!
SUPPORT and PROOF of LoadResults (07 R159, R168, R170; 06 R155): what a place reads, and what a load leaves in its group.
-/

namespace Sys2Proof.Machine

/-! ### Reads that find no reduction pending -/

theorem foldl_eq_self {α β : Type} (f : α → β → α) (a : α) (l : List β) (h : ∀ b ∈ l, f a b = a) : l.foldl f a = a := by
  induction l with
  | nil => rfl
  | cons b l ih =>
    rw [List.foldl_cons, h b (by simp)]
    exact ih (fun c hc => h c (List.mem_cons_of_mem _ hc))

/-- A line without a pending reduction has nothing to drain (14 R321). -/
theorem drainLine_of_quiet (s : State) (line : Nat) (h : s.quiet line) : drainLine s line = s :=
  foldl_eq_self _ _ _ (fun t ht => foldl_eq_self _ _ _ (fun e he => if_neg (h t ht e he)))

/-- An access to a managed frame changes the ages of frames alone (15 R341). -/
theorem touchFrame_rest (s : State) (pa : Nat) : touchFrame s pa = { s with frames := (touchFrame s pa).frames } := by
  unfold touchFrame
  split
  · rfl
  · split <;> rfl

theorem State.readN_of_mem {s t : State} (h : t.mem = s.mem) (l n : Nat) : t.readN l n = s.readN l n := by
  induction n generalizing l with
  | zero => rfl
  | succ n ih => rw [State.readN, State.readN, ih, State.byteAt, State.byteAt, h]

theorem readPa_of_quiet (s : State) (a n : Nat) (h : s.quiet (lineOf a)) :
    readPa s a n = (touchFrame s a, s.readN (locOf s a) n) := by
  have hf := touchFrame_rest s a
  have hq : (touchFrame s a).quiet (lineOf a) := by rw [hf]; exact h
  have hl : locOf (touchFrame s a) a = locOf s a := by rw [hf]; rfl
  have hm : (touchFrame s a).mem = s.mem := by rw [hf]
  simp only [readPa, drainLine_of_quiet _ _ hq, hl, State.readN_of_mem hm]

theorem countRx_of_local (s : State) (p a n : Nat) (h : spaceOf a < 2) : countRx s p a n = s := if_neg (by omega)

/-- A place in HBM or TM without a pending reduction (07 R159; 14 R321). -/
theorem readPlace_pa (s : State) (g tile n a : Nat) (h : spaceOf a < 2) (hq : s.quiet (lineOf a)) :
    readPlace s g tile n (.pa a false) = (touchFrame s a, s.readN (locOf s a) n, s.isPoisoned (locOf s a)) := by
  have hp : poisonedPa (touchFrame s a) a = s.isPoisoned (locOf s a) := by rw [touchFrame_rest]; rfl
  simp only [readPlace, Bool.false_and, Bool.false_eq_true, if_false, countRx_of_local _ _ _ _ h, readPa_of_quiet s a n hq, hp]

/-! ### The register view (01 R30) -/

/-- Byte j of vector register k of lane r stands at 4 (w k + r) + j. -/
theorem rvByte_word (G : Group) (r k j : Nat) (l : Lane) (hr : r < G.w) (hl : G.lane? r = some l) (hj : j < 4) :
    rvByte G (4 * (G.w * k + r) + j) = ((l.vreg k).toNat / 2 ^ (8 * j) % 256, l.vpsn k) := by
  have h4 : (4 * (G.w * k + r) + j) / 4 = G.w * k + r := by omega
  have hlane : (G.w * k + r) % G.w = r := by rw [Nat.mul_add_mod, Nat.mod_eq_of_lt hr]
  have hreg : (4 * (G.w * k + r) + j) / (4 * G.w) = k := by
    rw [show 4 * (G.w * k + r) + j = 4 * G.w * k + (4 * r + j) by ring, Nat.mul_add_div (by omega),
      Nat.div_eq_of_lt (show 4 * r + j < 4 * G.w by omega), Nat.add_zero]
  have hbyte : (4 * (G.w * k + r) + j) % 4 = j := by omega
  simp only [rvByte, h4, hlane, hl, hreg, hbyte]

theorem rvRead_word (G : Group) (r k : Nat) (l : Lane) (hr : r < G.w) (hl : G.lane? r = some l) :
    rvRead G (4 * (G.w * k + r)) 4 = ((l.vreg k).toNat, l.vpsn k) := by
  have hb := fun j hj => rvByte_word G r k j l hr hl hj
  have hlt : (l.vreg k).toNat < 2 ^ 32 := (l.vreg k).isLt
  generalize 4 * (G.w * k + r) = o at hb
  have h0 : rvByte G o = ((l.vreg k).toNat / 2 ^ (8 * 0) % 256, l.vpsn k) := hb 0 (by decide)
  simp only [rvRead, h0, hb 1 (by decide), Nat.add_assoc, Nat.reduceAdd, hb 2 (by decide), hb 3 (by decide)]
  refine Prod.ext ?_ (by simp)
  show _ = (l.vreg k).toNat
  omega

/-! ### A load in its group -/

theorem State.updGroup_of_look {s : State} {g : Nat} {G : Group} (h : s.groups.look g = some G) (f : Group → Group) :
    s.updGroup g f = s.setGroup g (f G) := by rw [State.updGroup, h]

/-- What a load's own part does when its accesses may be performed (07 R159, R168). -/
theorem loadBody_go {r : AccessRule} {s s2 : State} {x : Ctx} {ps : List LaneAcc} {bad : List (Nat × Nat × WFault)}
    (ea : Group → Nat → Nat) (hl : r.lanes = loadLanes r.dst) (hea : r.ea x = ea x.G)
    (hp : prepare x s .load false r.dst.isSca r.n (r.accs x) = .go s2 ps bad) :
    let q := readLanes x.g x.G.tile r.n r.ext s2 ps
    loadBody r.dst r.w ea x s = .done (q.1.updGroup x.g (fun G => putDst x G r.dst (r.w == 3 && r.dst.isVec)
      (fun j => (q.2.lookD (0, false) j).1) (fun j => (q.2.lookD (0, false) j).2) none)) [] := by
  have ha : r.accs x = (if r.dst.isSca then [x.low] else x.act).map (fun i => (i, ea x.G i)) := by
    simp only [AccessRule.accs, hl, hea, loadLanes]
  rw [ha] at hp
  simp only [loadBody]
  rw [show wBytes r.w = r.n from rfl, hp]
  rfl

/-- A load that issues as a plain one, with its destination and addresses as its rule has them. -/
theorem load_wrote {i : Instr} {r : AccessRule} {s s1 s2 : State} {x : Ctx} {ps : List LaneAcc} {bad : List (Nat × Nat × WFault)}
    (ea : Group → Nat → Nat) (hl : r.lanes = loadLanes r.dst) (hea : r.ea x = ea x.G)
    (hr : ready r.ctl r.need s = some (x, s1)) (hi : exec i s = .next (settle x r.ctl s1 (loadBody r.dst r.w ea x s1)))
    (hp : prepare x s1 .load false r.dst.isSca r.n (r.accs x) = .go s2 ps bad) :
    let q := readLanes x.g x.G.tile r.n r.ext s2 ps
    q.1.groups = s1.groups →
    ∃ t, exec i s = .next t ∧
      Wrote r.ctl x (q.1.under s) t r.dst (r.w == 3 && r.dst.isVec) (fun j => (x.env j, (q.2.lookD (0, false) j).1))
        (fun j => (q.2.lookD (0, false) j).2) x.next := by
  intro q hq
  obtain ⟨G0, hs⟩ := ready_seen hr
  have hx : q.1.groups.look x.g = some x.G := by rw [hq, hs.look, if_pos rfl]
  refine ⟨_, hi, ?_⟩
  rw [loadBody_go ea hl hea hp, State.updGroup_of_look hx]
  exact plain_wrote_in hr q.1 hq r.dst _ x.G (Touched.refl _) rfl _ _ none []

theorem exec_sld (c : Ctl) (w : BitVec 3) (o : OpM) (s : State) : exec (.sld c w o) s = issueWord c
    { ((({} : Meta).addr false .abs o).write o.dst false) with allow := if o.ord = 0 then .yes else .no } s (fun x s =>
    match x.G.region with
    | some r => regionLoad x s r o.dst w.toNat (eaOf x.G x.low .abs o) (mSrcs o)
    | none => loadBody o.dst w.toNat (fun G i => eaOf G i .abs o) x s) := rfl

theorem exec_mcnt (c : Ctl) (o : OpA) (s : State) : exec (.mcnt c o) s = issueWord c
    (((({} : Meta).read false o.a false).read true o.b false).write o.dst false) s (fun x s =>
    loadBody o.dst 0 (fun G i => (srcScalar x .n64 64 o.a + srcLane G i .n32 32 o.b * (intWidth o.ty / 8) / 2 ^ 8) % 2 ^ 64) x s) := rfl

/-- Settles O20: each load form is a load by its rule, and a place reads as the rule of its kind says. -/
theorem loadResults : Obligations.LoadResults := by
  unfold Obligations.LoadResults
  constructor
  · intro i r s s1 s2 x ps bad hrule hr hreg hp
    cases i <;> simp only [loadRule, Option.some.injEq, reduceCtorEq] at hrule <;> subst hrule
    case ld c w o => exact load_wrote (fun G i => eaOf G i .abs o) rfl rfl hr (issueWord_ready hr _) hp
    case lds c w o => exact load_wrote (fun G i => eaOf G i .scratch o) rfl rfl hr (issueWord_ready hr _) hp
    case ldt c w o => exact load_wrote (fun G i => eaOf G i .tile o) rfl rfl hr (issueWord_ready hr _) hp
    case ldc c w o => exact load_wrote (fun G i => eaOf G i .const o) rfl rfl hr (issueWord_ready hr _) hp
    case sld c w o =>
      have hi := (exec_sld c w o s).trans (issueWord_ready hr _)
      simp only [hreg] at hi
      exact load_wrote (fun G i => eaOf G i .abs o) rfl rfl hr hi hp
    case mcnt c o =>
      exact load_wrote (fun G i => (srcScalar x .n64 64 o.a + srcLane G i .n32 32 o.b * (intWidth o.ty / 8) / 2 ^ 8) % 2 ^ 64)
        rfl rfl hr ((exec_mcnt c o s).trans (issueWord_ready hr _)) hp
  · intro s g tile n G hG
    refine ⟨fun l => rfl, fun a ha hq => ⟨readPlace_pa s g tile n a ha hq, ?_, ?_⟩, fun o L hL => ?_, fun o => ?_,
      fun r l _ hr hl k => rvRead_word G r k l hr hl⟩
    · rw [touchFrame_rest]
    · rw [touchFrame_rest]
    · simp only [readPlace, hG, hL]
    · simp only [readPlace, hG]

end Sys2Proof.Machine
end

section
/-!
SUPPORT. What commands of a partition and of the module leave of the partitions: a partition updated, a table filtered by key, the
work of a partition removed and its memory wiped, a record posted, issue stopped.
-/

namespace Sys2Proof.Machine

/-! ### Tables -/

/-- An entry read after the entries whose keys f rejects have gone. -/
theorem FMap.look_keep_keys {α : Type} (m : FMap α) (f : Nat → Bool) (k : Nat) :
    (m.keep (fun j _ => f j)).look k = if f k then m.look k else none := by
  induction m with
  | nil => simp [FMap.keep]
  | cons e m ih =>
    have ih' : FMap.look (List.filter (fun e => f e.1) m) k = if f k then FMap.look m k else none := ih
    unfold FMap.keep
    rw [List.filter_cons]
    split
    · rename_i he
      rw [FMap.look_cons, FMap.look_cons, ih']
      by_cases hk : e.1 = k
      · simp [← hk, he]
      · simp [hk]
    · rename_i he
      rw [ih', FMap.look_cons]
      by_cases hk : e.1 = k
      · simp [← hk, he]
      · simp [hk]

theorem FMap.mem_keys_of_look {α : Type} {m : FMap α} {k : Nat} {a : α} (h : m.look k = some a) : k ∈ m.keys := by
  induction m with
  | nil => cases h
  | cons e m ih =>
    rw [FMap.look_cons] at h
    split at h
    · rename_i he
      exact List.mem_map.2 ⟨e, by simp, he⟩
    · exact List.mem_cons_of_mem _ (ih h)

/-! ### A partition updated -/

@[simp] theorem State.look_updPart (s : State) (p : Nat) (f : Part → Part) (k : Nat) :
    (s.updPart p f).parts.look k = if k = p then (s.parts.look p).map f else s.parts.look k := by
  unfold State.updPart
  cases h : s.parts.look p with
  | none => split <;> simp_all
  | some P => simp

theorem State.look_updPart_self {s : State} {p : Nat} {P : Part} (h : s.parts.look p = some P) (f : Part → Part) :
    (s.updPart p f).parts.look p = some (f P) := by
  rw [State.look_updPart, if_pos rfl, h, Option.map_some]

theorem State.updPart_rest (s : State) (p : Nat) (f : Part → Part) :
    s.updPart p f = { s with parts := (s.updPart p f).parts } := by
  unfold State.updPart
  cases s.parts.look p <;> rfl

@[simp] theorem State.updPart_mem (s : State) (p : Nat) (f : Part → Part) : (s.updPart p f).mem = s.mem := by rw [updPart_rest]
@[simp] theorem State.updPart_launches (s : State) (p : Nat) (f : Part → Part) : (s.updPart p f).launches = s.launches := by
  rw [updPart_rest]
@[simp] theorem State.updPart_km (s : State) (p : Nat) (f : Part → Part) : (s.updPart p f).km = s.km := by rw [updPart_rest]
@[simp] theorem State.updPart_keySlots (s : State) (p : Nat) (f : Part → Part) : (s.updPart p f).keySlots = s.keySlots := by
  rw [updPart_rest]
@[simp] theorem State.updPart_nextKey (s : State) (p : Nat) (f : Part → Part) : (s.updPart p f).nextKey = s.nextKey := by
  rw [updPart_rest]
@[simp] theorem State.updPart_out (s : State) (p : Nat) (f : Part → Part) : (s.updPart p f).out = s.out := by rw [updPart_rest]
@[simp] theorem State.updPart_fwHold (s : State) (p : Nat) (f : Part → Part) : (s.updPart p f).fwHold = s.fwHold := by
  rw [updPart_rest]
@[simp] theorem State.updPart_active (s : State) (p : Nat) (f : Part → Part) : (s.updPart p f).active = s.active := by
  rw [updPart_rest]
@[simp] theorem State.updPart_lcs (s : State) (p : Nat) (f : Part → Part) : (s.updPart p f).lcs = s.lcs := by rw [updPart_rest]

/-- A partition updated twice is updated once, by both. -/
theorem State.updPart_updPart_only (s : State) (p : Nat) (f g : Part → Part) {P : Part} (h : s.parts.look p = some P) :
    OnlyPart s ((s.updPart p f).updPart p g) p P (g (f P)) := by
  refine ⟨h, State.look_updPart_self (State.look_updPart_self h f) g, ?_, fun k hk => by simp [hk]⟩
  rw [State.updPart_rest, State.updPart_rest s]

theorem State.updPart_only (s : State) (p : Nat) (f : Part → Part) {P : Part} (h : s.parts.look p = some P) :
    OnlyPart s (s.updPart p f) p P (f P) :=
  ⟨h, State.look_updPart_self h f, State.updPart_rest s p f, fun k hk => by simp [hk]⟩

/-! ### Write-backs and wipes: of the partitions, only their dirty frames may change -/

/-- Launches stay as they are, and so does every partition but for the frames that its dirty log notes (17 R371). -/
structure DirtyOnly (s t : State) : Prop where
  launches : t.launches = s.launches
  parts : ∀ k P, s.parts.look k = some P → ∃ P', t.parts.look k = some P' ∧ P' = { P with dirty := P'.dirty }

theorem DirtyOnly.of_eq {s t : State} (hl : t.launches = s.launches) (hp : t.parts = s.parts) : DirtyOnly s t :=
  ⟨hl, fun _ P h => ⟨P, by rw [hp, h], rfl⟩⟩

theorem DirtyOnly.trans {s t u : State} (h : DirtyOnly s t) (h' : DirtyOnly t u) : DirtyOnly s u := by
  refine ⟨h'.launches.trans h.launches, fun k P hP => ?_⟩
  obtain ⟨P1, h1, e1⟩ := h.parts k P hP
  obtain ⟨P2, h2, e2⟩ := h'.parts k P1 h1
  exact ⟨P2, h2, by rw [e2, e1]⟩

theorem DirtyOnly.foldl {β : Type} {f : State → β → State} (hf : ∀ s b, DirtyOnly s (f s b)) (l : List β) (s : State) :
    DirtyOnly s (l.foldl f s) :=
  List.foldlRecOn l f (DirtyOnly.of_eq rfl rfl) (fun t ht b _ => ht.trans (hf t b))

theorem markDirty_dirtyOnly (s : State) (p pa : Nat) : DirtyOnly s (markDirty s p pa) := by
  unfold markDirty
  split
  · refine ⟨State.updPart_launches _ _ _, fun k P h => ?_⟩
    rw [State.look_updPart]
    split
    · rename_i hk
      subst hk
      refine ⟨_, congrArg (Option.map _) h, ?_⟩
      dsimp only
      split <;> rfl
    · exact ⟨P, h, rfl⟩
  · exact .of_eq rfl rfl

theorem noteBack_dirtyOnly (s : State) (ls : List (Nat × Nat)) : DirtyOnly s (noteBack s ls) := by
  unfold noteBack
  split
  · exact .foldl (fun _ _ => markDirty_dirtyOnly _ _ _) _ _
  · exact .of_eq rfl rfl

theorem dropLines_dirtyOnly (s : State) (on sel : Nat → Bool) : DirtyOnly s (dropLines s on sel) :=
  (noteBack_dirtyOnly s _).trans (.of_eq rfl rfl)

theorem dropGranules_dirtyOnly (s : State) (sel : Nat → Bool) : DirtyOnly s (dropGranules s sel) :=
  (dropLines_dirtyOnly s _ _).trans (.of_eq rfl rfl)

theorem zeroRanges_dirtyOnly {β : Type} (a n : β → Nat) (l : List β) (s : State) :
    DirtyOnly s (l.foldl (fun s b => s.zeroRange (a b) (n b)) s) :=
  .foldl (f := fun s b => s.zeroRange (a b) (n b)) (fun _ _ => .of_eq rfl rfl) l s

theorem wipeTiles_dirtyOnly (s : State) (tiles : List Nat) : DirtyOnly s (wipeTiles s tiles) := by
  refine .foldl (fun s t => ?_) _ _
  exact (zeroRanges_dirtyOnly Prod.fst Prod.snd _ s).trans (zeroRanges_dirtyOnly (fun k => storeLoc t k 0) (fun _ => 2 ^ 24) _ _)

theorem wipePart_dirtyOnly (s : State) (p : Nat) : DirtyOnly s (wipePart s p) := by
  unfold wipePart
  split
  · exact .of_eq rfl rfl
  · exact ((dropGranules_dirtyOnly s _).trans (wipeTiles_dirtyOnly _ _)).trans (zeroRanges_dirtyOnly Prod.fst Prod.snd _ _)

theorem resetFlows_dirtyOnly (s : State) (tiles : List Nat) : DirtyOnly s (resetFlows s tiles) :=
  .foldl (f := fun s t => s.updTile t (fun x => { x with flows := [] })) (fun _ _ => .of_eq rfl rfl) _ _

/-- The work of a partition leaves with its launches. -/
theorem removeWork_dirtyOnly {s : State} {p : Nat} {P : Part} (h : s.parts.look p = some P) :
    DirtyOnly { s with launches := s.launches.keep (fun l _ => !(partLaunches s p).contains l) } (removeWork s p) := by
  have htiles : ∀ (t : State) (k : Nat),
      DirtyOnly t ((List.range 4).foldl (fun t c => t.updCore k c bareCore) (t.updTile k bareTile)) := fun t k =>
    (DirtyOnly.of_eq rfl rfl : DirtyOnly t (t.updTile k bareTile)).trans
      (.foldl (f := fun t c => t.updCore k c bareCore) (fun _ _ => .of_eq rfl rfl) _ _)
  unfold removeWork
  rw [h]
  dsimp only
  refine DirtyOnly.trans ?_ (DirtyOnly.foldl htiles _ _)
  exact .of_eq rfl rfl

/-! ### Records posted to rings (20 R422, R423) -/

/-- Nothing but bytes of memory changes. -/
def MemOnly (s t : State) : Prop := t = { s with mem := t.mem }

theorem MemOnly.trans {s t u : State} (h : MemOnly s t) (h' : MemOnly t u) : MemOnly s u := by
  unfold MemOnly at *
  rw [h] at h'
  exact h'

theorem State.writeBytes_memOnly (s : State) (l : Nat) (bs : List Byte) : MemOnly s (s.writeBytes l bs) := by
  induction bs generalizing s l with
  | nil => rfl
  | cons b bs ih => exact MemOnly.trans (t := s.setByte l b) rfl (ih _ _)

theorem Ring.flush_memOnly {post : State → Ring → List Byte → State × Ring} (hp : ∀ s r b, MemOnly s (post s r b).1)
    (l : List (List Byte)) (s : State) (r : Ring) : MemOnly s (Ring.flush post l s r).1 := by
  induction l generalizing s r with
  | nil => rfl
  | cons b l ih =>
    unfold Ring.flush
    split
    · exact (hp s r b).trans (ih _ _)
    · rfl

theorem Ring.give_memOnly {post : State → Ring → List Byte → State × Ring} (hp : ∀ s r b, MemOnly s (post s r b).1)
    (s : State) (r : Ring) (b : List Byte) : MemOnly s (Ring.give post s r b).1 := by
  unfold Ring.give
  split
  · rfl
  · exact Ring.flush_memOnly hp _ _ _

theorem putUsage_memOnly (key : Nat) (s : State) (r : Ring) (b : List Byte) : MemOnly s (putUsage key s r b).1 :=
  State.writeBytes_memOnly _ _ _

@[simp] theorem signalVf_parts (s : State) (p : Nat) (a b : Ring) : (signalVf s p a b).parts = s.parts := by
  unfold signalVf
  split <;> rfl

@[simp] theorem signalVf_launches (s : State) (p : Nat) (a b : Ring) : (signalVf s p a b).launches = s.launches := by
  unfold signalVf
  split <;> rfl

/-- A usage record changes no launch, and of its partition the record's own fields. -/
theorem postUsage_rest {s : State} {p : Nat} {P : Part} (kind : Nat) (pfOnly : Bool) (h : s.parts.look p = some P) :
    (postUsage s p kind pfOnly).launches = s.launches ∧ ∃ Q, (postUsage s p kind pfOnly).parts.look p = some Q ∧
      Q = { P with useSeq := Q.useSeq, usePrev := Q.usePrev, usagePf := Q.usagePf, usageVf := Q.usageVf } := by
  have ha := Ring.give_memOnly (putUsage_memOnly P.attKey) s P.usagePf (usageHead s p P kind 0)
  have hb : MemOnly s (if pfOnly then ((Ring.give (putUsage P.attKey) s P.usagePf (usageHead s p P kind 0)).1, P.usageVf)
      else Ring.give (putUsage P.attKey) (Ring.give (putUsage P.attKey) s P.usagePf (usageHead s p P kind 0)).1 P.usageVf
        (usageHead s p P kind 0)).1 := by
    split
    · exact ha
    · exact ha.trans (Ring.give_memOnly (putUsage_memOnly P.attKey) _ _ _)
  unfold postUsage
  simp only [h]
  generalize (if pfOnly then _ else _ : State × Ring) = b at hb ⊢
  have hl : b.1.launches = s.launches := by rw [hb]
  have hp : b.1.parts = s.parts := by rw [hb]
  simp only [signalVf_parts, signalVf_launches, State.updPart_launches, hl, State.look_updPart, if_true, hp, h, Option.map_some,
    true_and]
  exact ⟨_, rfl, rfl⟩

/-! ### Function level reset (17 R374; 20 R411) -/

theorem abortSave_part {s : State} {p : Nat} {P : Part} (h : s.parts.look p = some P) :
    (abortSave s p).launches = s.launches ∧ ∃ Q, (abortSave s p).parts.look p = some Q ∧
      Q.pend = P.pend.filter (fun c => !c.isSave && c != .flr && c != .rekey) ∧ Q.tdi = P.tdi ∧ Q.tvec = P.tvec := by
  unfold abortSave
  simp only [h]
  split <;> exact ⟨State.updPart_launches _ _ _, _, State.look_updPart_self (by exact h) _, rfl, rfl, rfl⟩

theorem dropMigKey_eq {s : State} {p : Nat} {P : Part} (h : s.parts.look p = some P) :
    dropMigKey s p = State.updPart { s with
      keySlots := s.keySlots - ((if P.migKey.isSome then 1 else 0) + (if P.migWait.isSome then 1 else 0))
      km := if P.migWait.isSome then { s.km with seq := (s.km.seq + 1) % 2 ^ 32, busy := false, status := 8 } else s.km } p
      (fun P => { P with migKey := none, migWait := none }) := by
  unfold dropMigKey
  simp only [h]

/-- An FLR ends the launches of its partition, and gives it the state t. -/
theorem flrEffect_part {s : State} {p : Nat} {P : Part} (t : Tdi) (h : s.parts.look p = some P) :
    (flrEffect s p t).launches = s.launches.keep (fun l _ => !(partLaunches s p).contains l) ∧
    ∃ Q, (flrEffect s p t).parts.look p = some Q ∧ Q.tdi = t ∧ Q.meas5 = none ∧ Q.epoch = 0 ∧ Q.tvec = P.tvec := by
  obtain ⟨hl0, P0, h0, -, -, hv0⟩ := abortSave_part h
  have h1 : (dropMigKey (abortSave s p) p).parts.look p = some { P0 with migKey := none, migWait := none } := by
    rw [dropMigKey_eq h0]
    exact State.look_updPart_self (by exact h0) _
  have hl1 : (dropMigKey (abortSave s p) p).launches = s.launches := by rw [dropMigKey_eq h0, State.updPart_launches, ← hl0]
  have hpl : partLaunches (dropMigKey (abortSave s p) p) p = partLaunches s p := by unfold partLaunches; rw [hl1]
  have hd := (removeWork_dirtyOnly h1).trans (wipePart_dirtyOnly _ p)
  obtain ⟨P2, h2, e2⟩ := hd.parts p _ h1
  unfold flrEffect
  dsimp only
  generalize wipePart (removeWork (dropMigKey (abortSave s p) p) p) p = s2 at hd h2 ⊢
  rw [h2]
  dsimp only
  have hr := (DirtyOnly.of_eq rfl rfl : DirtyOnly s2 { s2 with nextKey := s2.nextKey + 2 }).trans (resetFlows_dirtyOnly _ P2.tiles)
  generalize resetFlows _ _ = s3 at hr ⊢
  obtain ⟨P3, h3, e3⟩ := hr.parts p _ h2
  have hv : P3.tvec = P.tvec := by rw [e3, e2, ← hv0]
  have hu := fun f => postUsage_rest 7 false (State.look_updPart_self h3 f)
  refine ⟨(hu _).1.trans ?_, (hu _).2.imp (fun Q hQ => ⟨hQ.1, ?_⟩)⟩
  · rw [State.updPart_launches, hr.launches, hd.launches, hl1, hpl]
  · rw [hQ.2]
    exact ⟨rfl, rfl, rfl, hv⟩

theorem startFlr_at_once {s : State} {p : Nat} {P : Part} (t : Tdi) (h : s.parts.look p = some P)
    (hr : P.pend.head?.any Cmd.isReshape = false) : startFlr s p t = flrEffect s p t := by
  unfold startFlr
  rw [h]
  cases hp : P.pend with
  | nil => simp only [Option.map_some, hp]
  | cons c l =>
    have hc : c.isReshape = false := by simpa [hp] using hr
    simp only [Option.map_some, hp, hc, Bool.false_eq_true, if_false]

/-- Behind a reshape an FLR waits: it stands second, and ERROR is entered at once (18 R392). -/
theorem startFlr_behind_reshape {s : State} {p : Nat} {P : Part} (t : Tdi) (h : s.parts.look p = some P)
    (hr : P.pend.head?.any Cmd.isReshape = true) : (startFlr s p t).launches = s.launches ∧
      ∃ Q, (startFlr s p t).parts.look p = some Q ∧ Q.tdi = (if t = .error then .error else P.tdi) ∧
        (Q.pend.drop 1).head? = some .flr ∧ Q.tvec = P.tvec := by
  obtain ⟨hl, P1, h1, hp1, ht1, hv1⟩ := abortSave_part h
  unfold startFlr
  rw [h]
  cases hp : P.pend with
  | nil => simp [hp] at hr
  | cons c l =>
    have hc : c.isReshape = true := by simpa [hp] using hr
    have hkeep : (!c.isSave && c != .flr && c != .rekey) = true := by cases c <;> first | rfl | cases hc
    simp only [Option.map_some, hp, hc, if_true]
    refine ⟨(State.updPart_launches _ _ _).trans hl, _, State.look_updPart_self h1 _, ?_, ?_, hv1⟩
    · rw [ht1]
    · rw [hp1, hp, List.filter_cons, if_pos hkeep]
      rfl

/-- A locked register written in CONFIG_LOCKED or RUN moves the interface to ERROR, and keeps its value (20 R412). -/
theorem lockViolation_part {s : State} {p : Nat} {P : Part} (h : s.parts.look p = some P) (hk : regLocked P = true) :
    ∃ Q, (lockViolation s p).parts.look p = some Q ∧ Q.tdi = .error ∧ Q.tvec = P.tvec := by
  have ht : P.tdi = .locked ∨ P.tdi = .run := by simpa [regLocked] using hk
  unfold lockViolation
  simp only [h, if_pos ht]
  cases hr : P.pend.head?.any Cmd.isReshape with
  | false =>
    obtain ⟨-, Q, hQ, htdi, -, -, hv⟩ := flrEffect_part .error h
    exact ⟨Q, by rw [startFlr_at_once _ h hr, hQ], htdi, hv⟩
  | true =>
    obtain ⟨-, Q, hQ, htdi, -, hv⟩ := startFlr_behind_reshape .error h hr
    exact ⟨Q, hQ, htdi, hv⟩

/-! ### Drains begun for a command of the module (17 R366; 20 R420) -/

/-- No command that waits is dropped, no stopped partition goes on, and the module's own command stays as it is. -/
structure KeepsPending (s t : State) : Prop where
  fwHold : t.fwHold = s.fwHold
  km : t.km = s.km
  active : t.active = s.active
  lcs : t.lcs = s.lcs
  parts : ∀ k P, s.parts.look k = some P →
    ∃ P', t.parts.look k = some P' ∧ (P.stopped = true → P'.stopped = true) ∧ P.pend <+: P'.pend

theorem KeepsPending.of_parts {s t : State} (hm : t.fwHold = s.fwHold ∧ t.km = s.km ∧ t.active = s.active ∧ t.lcs = s.lcs)
    (hp : t.parts = s.parts) : KeepsPending s t :=
  ⟨hm.1, hm.2.1, hm.2.2.1, hm.2.2.2, fun _ P h => ⟨P, by rw [hp, h], id, List.prefix_refl _⟩⟩

theorem KeepsPending.refl (s : State) : KeepsPending s s := .of_parts ⟨rfl, rfl, rfl, rfl⟩ rfl

theorem KeepsPending.trans {s t u : State} (h : KeepsPending s t) (h' : KeepsPending t u) : KeepsPending s u := by
  refine ⟨h'.fwHold.trans h.fwHold, h'.km.trans h.km, h'.active.trans h.active, h'.lcs.trans h.lcs, fun k P hP => ?_⟩
  obtain ⟨P1, h1, hs1, hp1⟩ := h.parts k P hP
  obtain ⟨P2, h2, hs2, hp2⟩ := h'.parts k P1 h1
  exact ⟨P2, h2, hs2 ∘ hs1, hp1.trans hp2⟩

theorem KeepsPending.updPart (s : State) (p : Nat) (f : Part → Part)
    (hf : ∀ P, (P.stopped = true → (f P).stopped = true) ∧ P.pend <+: (f P).pend) : KeepsPending s (s.updPart p f) := by
  refine ⟨by simp, by simp, by simp, by simp, fun k P hP => ?_⟩
  rw [State.look_updPart]
  split
  · rename_i hk
    subst hk
    exact ⟨f P, congrArg (Option.map f) hP, hf P⟩
  · exact ⟨P, hP, id, List.prefix_refl _⟩

theorem KeepsPending.foldl {β : Type} {f : State → β → State} (hf : ∀ s b, KeepsPending s (f s b)) (l : List β) (s : State) :
    KeepsPending s (l.foldl f s) :=
  List.foldlRecOn l f (KeepsPending.refl s) (fun t ht b _ => ht.trans (hf t b))

theorem abortRegion_keepsPending (s : State) (g cause idx code : Nat) : KeepsPending s (abortRegion s g cause idx code) := by
  unfold abortRegion
  split
  · exact .refl s
  · split
    · exact .refl s
    · exact KeepsPending.trans (t := dropToken s g _) (.updPart _ _ _ (fun P => ⟨id, List.prefix_refl _⟩))
        (.of_parts ⟨rfl, rfl, rfl, rfl⟩ rfl)

theorem quietGroup_keepsPending (s : State) (g : Nat) : KeepsPending s (quietGroup s g) :=
  (abortRegion_keepsPending s g 6 0 0).trans (.of_parts ⟨rfl, rfl, rfl, rfl⟩ rfl)

/-- The groups of a partition quiet, as its issue stops. -/
theorem quietGroups_keepsPending (s : State) (gs : List Nat) :
    KeepsPending s (gs.foldl (fun s g => if commits s g then s else quietGroup s g) s) := by
  refine .foldl (fun s g => ?_) _ _
  split
  · exact .refl s
  · exact quietGroup_keepsPending s g

theorem stopIssue_keepsPending (s : State) (p : Nat) : KeepsPending s (stopIssue s p) := by
  refine (quietGroups_keepsPending s (partGroups s p)).trans ?_
  refine KeepsPending.trans ?_ (.updPart _ _ _ (fun P => ⟨fun _ => rfl, List.prefix_refl _⟩))
  exact .of_parts ⟨rfl, rfl, rfl, rfl⟩ rfl

theorem stopIssue_stopped {s : State} {p : Nat} {P : Part} (h : s.parts.look p = some P) :
    ∃ P', (stopIssue s p).parts.look p = some P' ∧ P'.stopped = true ∧ P.pend <+: P'.pend := by
  obtain ⟨P1, h1, -, hp1⟩ := (quietGroups_keepsPending s (partGroups s p)).parts p P h
  exact ⟨_, State.look_updPart_self (by exact h1) _, rfl, hp1⟩

theorem askDrain_keepsPending (s : State) (p : Nat) (c : Cmd) : KeepsPending s (askDrain s p c) :=
  (KeepsPending.updPart s p (fun P => { P with pend := P.pend ++ [c] }) (fun _ => ⟨id, List.prefix_append _ _⟩)).trans
    (stopIssue_keepsPending _ p)

/-- A command that drains a partition stops it and waits there, behind those that waited before. -/
theorem askDrain_asked {s : State} {p : Nat} {P : Part} (c : Cmd) (h : s.parts.look p = some P) :
    ∃ P', (askDrain s p c).parts.look p = some P' ∧ P'.stopped = true ∧ c ∈ P'.pend := by
  have h1 : (s.updPart p (fun P => { P with pend := P.pend ++ [c] })).parts.look p = some { P with pend := P.pend ++ [c] } :=
    State.look_updPart_self h _
  obtain ⟨P', h', hs', hp'⟩ := stopIssue_stopped h1
  exact ⟨P', h', hs', hp'.subset (by simp)⟩

theorem askDrains_keepsPending (c : Cmd) (l : List Nat) (s : State) : KeepsPending s (l.foldl (fun s p => askDrain s p c) s) :=
  .foldl (f := fun s p => askDrain s p c) (fun s p => askDrain_keepsPending s p c) l s

theorem askDrains_asked (c : Cmd) {l : List Nat} {s : State} {k : Nat} {P : Part} (h : s.parts.look k = some P) (hk : k ∈ l) :
    ∃ P', (l.foldl (fun s p => askDrain s p c) s).parts.look k = some P' ∧ P'.stopped = true ∧ c ∈ P'.pend := by
  induction l generalizing s P with
  | nil => cases hk
  | cons j l ih =>
    rw [List.foldl_cons]
    by_cases hj : k = j
    · subst hj
      obtain ⟨P1, h1, hs1, hc1⟩ := askDrain_asked c h
      obtain ⟨P2, h2, hs2, hp2⟩ := (askDrains_keepsPending c l _).parts k P1 h1
      exact ⟨P2, h2, hs2 hs1, hp2.subset hc1⟩
    · obtain ⟨P1, h1, -, -⟩ := (askDrain_keepsPending s j c).parts k P h
      exact ih h1 ((List.mem_cons.1 hk).resolve_left hj)

/-- A command of the module holds others back, and waits in every partition, which has stopped (20 R420, R425). -/
theorem askAll_drains (s : State) (c : Cmd) :
    (askAll s c).fwHold = true ∧ (askAll s c).km = { s.km with busy := true } ∧ (askAll s c).active = s.active ∧
    (askAll s c).lcs = s.lcs ∧ ∀ k P, s.parts.look k = some P →
      ∃ P', (askAll s c).parts.look k = some P' ∧ P'.stopped = true ∧ c ∈ P'.pend ∧ P.pend <+: P'.pend := by
  have hk := askDrains_keepsPending c s.parts.keys { s with fwHold := true, km := { s.km with busy := true } }
  refine ⟨hk.fwHold, hk.km, hk.active, hk.lcs, fun k P hP => ?_⟩
  obtain ⟨P', h', hs', hc'⟩ := askDrains_asked c (s := { s with fwHold := true, km := { s.km with busy := true } }) hP
    (FMap.mem_keys_of_look hP)
  obtain ⟨P1, h1, -, hp1⟩ := hk.parts k P hP
  obtain rfl : P1 = P' := Option.some.inj (h1.symm.trans h')
  exact ⟨P1, h', hs', hc', hp1⟩

end Sys2Proof.Machine
end

section
/-!
SUPPORT and PROOF of InterfacesAndSessions (00 R14; 20 R411 to R415, R420): messages by their version, TDISP requests by the state
they find, and what each message of a session does.
-/

namespace Sys2Proof.Machine

/-! ### Messages by their version (00 R14) -/

theorem versioned_other {want ver : Nat} (h : ver ≠ want) (s t : State) :
    versioned want ver s t = s.reply .refusal := by
  rw [versioned, if_neg h]

@[simp] theorem versioned_same (ver : Nat) (s t : State) : versioned ver ver s t = t := if_pos rfl

/-- A message within a session, by what the partition's session is. -/
theorem inSession_inside {s : State} {p : Nat} {P : Part} (h : s.parts.look p = some P) (hs : P.session = true) (t : State) :
    inSession ⟨p, 0x13⟩ s t = t := by
  simp only [inSession, spdmVersion, versioned_same, h, Option.any_some, hs, if_true]

theorem inSession_outside {s : State} {p : Nat} (h : ∀ P, s.parts.look p = some P → P.session = false) (t : State) :
    inSession ⟨p, 0x13⟩ s t = s.reply .refusal := by
  have hn : (s.parts.look p).any Part.session = false := by
    cases hP : s.parts.look p with
    | none => rfl
    | some P => exact h P hP
  simp only [inSession, spdmVersion, versioned_same, hn, Bool.false_eq_true, if_false]

/-! ### TDISP requests (20 R411) -/

theorem tdispRequest_held {s : State} (hw : s.fwHold = true) (p : Nat) (q : Held) (f : Part → Option State) :
    tdispRequest s p q f = { s with heldCmds := s.heldCmds ++ [q] } := if_pos hw

theorem tdispRequest_outside {s : State} {p : Nat} (hw : s.fwHold = false) (h : ∀ P, s.parts.look p = some P → P.session = false)
    (q : Held) (f : Part → Option State) : tdispRequest s p q f = s.reply .refusal := by
  simp only [tdispRequest, hw, Bool.false_eq_true, if_false]
  cases hP : s.parts.look p with
  | none => rfl
  | some P => simp only [h P hP, Bool.not_false, if_true]

theorem tdispRequest_inside {s : State} {p : Nat} {P : Part} (hw : s.fwHold = false) (h : s.parts.look p = some P)
    (hs : P.session = true) (q : Held) (f : Part → Option State) :
    tdispRequest s p q f = (f P).getD (s.reply .refusal) := by
  unfold tdispRequest
  simp only [hw, h, hs, Bool.not_true, Bool.false_eq_true, if_false]
  cases f P <;> rfl

section
variable {s : State} {p : Nat} {P : Part} (hw : s.fwHold = false) (h : s.parts.look p = some P) (hs : P.session = true)
include hw h hs

theorem askLock_unlocked (ht : P.tdi = .unlocked) :
    OnlyPart s (askLock s p) p P { P with tdi := .locked, meas5 := some (lockedRegs P) } := by
  rw [askLock, tdispRequest_inside hw h hs, if_pos ht]
  exact State.updPart_only s p _ h

theorem askLock_elsewhere (ht : P.tdi ≠ .unlocked) : askLock s p = s.reply .refusal := by
  rw [askLock, tdispRequest_inside hw h hs, if_neg ht]
  rfl

theorem askStart_locked (ht : P.tdi = .locked) : OnlyPart s (askStart s p) p P { P with tdi := .run } := by
  rw [askStart, tdispRequest_inside hw h hs, if_pos ht]
  exact State.updPart_only s p _ h

theorem askStart_elsewhere (ht : P.tdi ≠ .locked) : askStart s p = s.reply .refusal := by
  rw [askStart, tdispRequest_inside hw h hs, if_neg ht]
  rfl

theorem askStop_error (ht : P.tdi = .error) : OnlyPart s (askStop s p) p P { P with tdi := .unlocked, meas5 := none } := by
  rw [askStop, tdispRequest_inside hw h hs, ht]
  exact State.updPart_only s p _ h

theorem askStop_unlocked (ht : P.tdi = .unlocked) : askStop s p = s := by
  rw [askStop, tdispRequest_inside hw h hs, ht]
  rfl

theorem askStop_locked (hk : regLocked P = true) : askStop s p = startFlr s p .unlocked := by
  have ht : P.tdi = .locked ∨ P.tdi = .run := by simpa [regLocked] using hk
  rw [askStop, tdispRequest_inside hw h hs]
  rcases ht with ht | ht <;> rw [ht] <;> rfl

end

/-! ### Locked registers (20 R412) -/

theorem tvecNow_unlocked {s : State} {p : Nat} {P : Part} (h : s.parts.look p = some P) (hk : regLocked P = false) (v : BitVec 64) :
    OnlyPart s (tvecNow p v s) p P { P with tvec := v.toNat / 4 * 4 } := by
  simp only [tvecNow, h, hk, Bool.false_eq_true, if_false]
  exact State.updPart_only s p _ h

theorem tvecNow_locked {s : State} {p : Nat} {P : Part} (h : s.parts.look p = some P) (hk : regLocked P = true) (v : BitVec 64) :
    tvecNow p v s = lockViolation s p := by
  simp only [tvecNow, h, hk, if_true]

/-! ### Sessions, challenges and measurements (20 R413 to R415) -/

theorem padTo_length (n : Nat) (bs : List Byte) : (padTo n bs).length = n := by
  simp only [padTo, List.length_append, List.length_take, List.length_replicate]
  omega

theorem exchangeNow_signed {s : State} {p k : Nat} (h : signKey s p = some k) :
    exchangeNow p s = { s.updPart p (fun P => { P with session := true, fwAck := none }) with
      fresh := s.fresh + 1, out := .bytes (padTo 3309 (Config.signature k (leBytes 8 s.fresh))) :: s.out } := by
  simp only [exchangeNow, h]
  rw [State.updPart_rest]
  rfl

theorem exchangeNow_session {s : State} {p k : Nat} {P : Part} (hk : signKey s p = some k) (h : s.parts.look p = some P) :
    (exchangeNow p s).parts.look p = some { P with session := true, fwAck := none } := by
  rw [exchangeNow_signed hk]
  exact State.look_updPart_self h _

theorem challengeNow_signed {s : State} {p k : Nat} (h : signKey s p = some k) (n : List Byte) :
    let sum := digest ((List.range 6).flatMap (fun i => ((measured s p i).map digest).getD []))
    challengeNow p n s = { s with out := .bytes (sum ++ padTo 3309 (Config.signature k (n ++ sum))) :: s.out } := by
  simp only [challengeNow, h]
  rfl

theorem measurementsNow_signed {s : State} {p k i : Nat} {m : List Byte} (h : signKey s p = some k) (hm : measured s p i = some m)
    (raw : Bool) :
    let b := if raw = true ∧ 4 ≤ i then m else digest m
    measurementsNow p i raw s = { s with out := .bytes (b ++ padTo 3309 (Config.signature k b)) :: s.out } := by
  simp only [measurementsNow, h, hm]
  rfl

theorem measurementsNow_unmeasured {s : State} {p i : Nat} (h : measured s p i = none) (raw : Bool) :
    measurementsNow p i raw s = s.reply .refusal := by
  unfold measurementsNow
  rw [h]
  cases signKey s p <;> rfl

/-- An IDE key switch once all under the old key is done, and before (20 R415). -/
theorem ideSwitch_quiet {s : State} {p key : Nat} {P : Part} (h : s.parts.look p = some P)
    (hq : portsQuiet s p P (.ide key) = true) :
    OnlyPart s (ideSwitch s p key) p P { P with ideKey := some key, heldReqs := P.heldReqs.erase (.ide key) } := by
  simp only [ideSwitch, h, hq, if_true]
  exact State.updPart_updPart_only s p _ _ h

theorem ideSwitch_waits {s : State} {p key : Nat} {P : Part} (h : s.parts.look p = some P)
    (hq : portsQuiet s p P (.ide key) = false) : ideSwitch s p key = holdReq s p (.ide key) := by
  simp only [ideSwitch, h, hq, Bool.false_eq_true, if_false]

/-! ### An FLR that STOP begins (17 R374; 20 R411) -/

theorem startFlr_ends_launches {s : State} {p : Nat} {P : Part} (h : s.parts.look p = some P)
    (hr : P.pend.head?.any Cmd.isReshape = false) (l : Nat) :
    (startFlr s p .unlocked).launches.look l = if l ∈ partLaunches s p then none else s.launches.look l := by
  rw [startFlr_at_once _ h hr, (flrEffect_part .unlocked h).1, FMap.look_keep_keys]
  by_cases hl : l ∈ partLaunches s p <;> simp [hl]

/-- Settles O57: the version, the session and the state of the interface decide what a message does. -/
theorem interfacesAndSessions : Obligations.InterfacesAndSessions := by
  unfold Obligations.InterfacesAndSessions
  constructor
  · intro s p
    refine ⟨fun ver hv => ?_, fun ver hv => ?_, fun hw => ?_, fun hw hs => ?_, fun P h => ⟨fun hw hs => ?_, fun v => ?_⟩⟩
    -- versions (R14)
    · have no := versioned_other (want := tdispVersion) hv s
      exact ⟨⟨_, rfl, no _⟩, ⟨_, rfl, no _⟩, ⟨_, rfl, no _⟩⟩
    · have no := versioned_other (want := spdmVersion) hv s
      exact ⟨⟨_, rfl, no _⟩, fun _ => ⟨_, rfl, no _⟩, fun _ _ => ⟨_, rfl, no _⟩, fun _ => ⟨_, rfl, no _⟩,
        fun _ => ⟨_, rfl, no _⟩, fun _ => ⟨_, rfl, no _⟩⟩
    -- during an activation, and outside a session (R411, R420)
    · have held := tdispRequest_held hw p
      exact ⟨⟨_, rfl, held _ _⟩, ⟨_, rfl, held _ _⟩, ⟨_, rfl, held _ _⟩⟩
    · have no := tdispRequest_outside hw hs
      exact ⟨⟨_, rfl, no _ _⟩, ⟨_, rfl, no _ _⟩, ⟨_, rfl, no _ _⟩⟩
    -- within a session, by the state of the interface (R411)
    · refine ⟨fun ht => ⟨_, rfl, askLock_unlocked hw h hs ht⟩, fun ht => ⟨_, rfl, askLock_elsewhere hw h hs ht⟩,
        fun ht => ⟨_, rfl, askStart_locked hw h hs ht⟩, fun ht => ⟨_, rfl, askStart_elsewhere hw h hs ht⟩,
        fun ht => ⟨_, rfl, askStop_error hw h hs ht⟩, fun ht => ⟨_, rfl, askStop_unlocked hw h hs ht⟩,
        fun hk hr => ⟨startFlr s p .unlocked, congrArg _ (askStop_locked hw h hs hk), startFlr_ends_launches h hr, ?_⟩,
        fun hk hr => ⟨startFlr s p .unlocked, congrArg _ (askStop_locked hw h hs hk), ?_⟩⟩
      · obtain ⟨-, Q, hQ, ht, hm, he, -⟩ := flrEffect_part .unlocked h
        exact ⟨Q, by rw [startFlr_at_once _ h hr, hQ], ht, hm, he⟩
      · obtain ⟨hl, Q, hQ, ht, hp, -⟩ := startFlr_behind_reshape .unlocked h hr
        exact ⟨hl, Q, hQ, ht, hp⟩
    -- a locked register (R412)
    · refine ⟨fun hk => ⟨_, rfl, tvecNow_unlocked h hk v⟩, fun hk => ⟨_, rfl, ?_⟩⟩
      rw [tvecNow_locked h hk]
      exact lockViolation_part h hk
  · intro s p
    refine ⟨fun hk => ?_, fun i raw hm => ⟨_, rfl, measurementsNow_unmeasured hm raw⟩, fun k hk => ⟨?_, fun n => ?_, fun i raw m hm => ?_⟩,
      fun hs => ?_, fun P h hs => ⟨fun d => ⟨_, rfl, ?_⟩, fun key => ⟨fun hq => ⟨_, rfl, ?_⟩, fun hq => ⟨_, rfl, ?_⟩⟩⟩⟩
    -- without an identity, all is refused; with one, all is signed (R413, R414)
    · have hx : exchangeNow p s = s.reply .refusal := by rw [exchangeNow, hk]
      have hc : ∀ n, challengeNow p n s = s.reply .refusal := fun n => by rw [challengeNow, hk]
      have hm : ∀ i raw, measurementsNow p i raw s = s.reply .refusal := fun i raw => by rw [measurementsNow, hk]
      exact ⟨⟨_, rfl, hx⟩, fun n => ⟨_, rfl, hc n⟩, fun i raw => ⟨_, rfl, hm i raw⟩⟩
    · refine ⟨_, rfl, ?_⟩
      rw [show versioned spdmVersion 0x13 s (exchangeNow p s) = _ from exchangeNow_signed hk]
      exact ⟨⟨_, rfl, padTo_length _ _⟩, State.updPart_mem _ _ _, fun q hq => (State.look_updPart _ _ _ _).trans (if_neg hq),
        fun P h => State.look_updPart_self h _⟩
    · exact ⟨_, rfl, _, challengeNow_signed hk n, rfl⟩
    · exact ⟨_, rfl, _, measurementsNow_signed hk hm raw, rfl⟩
    -- keys and acknowledgements need a session (R415, R420)
    · exact ⟨fun _ => ⟨_, rfl, inSession_outside hs _⟩, fun _ => ⟨_, rfl, inSession_outside hs _⟩⟩
    · rw [inSession_inside h hs]
      exact State.updPart_only s p _ h
    · rw [inSession_inside h hs]
      exact ideSwitch_quiet h hq
    · rw [inSession_inside h hs]
      exact ideSwitch_waits h hq

end Sys2Proof.Machine
end

section
/-!
SUPPORT and PROOF of KeyCommands (00 R14; 20 R417 to R421, R425): the key manager's commands by what their checks find.
-/

namespace Sys2Proof.Machine

/-! ### Commands of the key manager -/

theorem kmCommand_busy {s : State} (h : s.km.busy = true) (k : State) :
    kmCommand s k = { s with km := { s.km with drop := true } } := by rw [kmCommand, if_pos h]

theorem kmCommand_free {s : State} (h : s.km.busy = false) (k : State) : kmCommand s k = k := by
  rw [kmCommand, h]
  rfl

theorem kmEnd_km {s t : State} (h : t.km = s.km) (st : Nat) : (kmEnd t st).km = (kmEnd s st).km := by
  rw [kmEnd, kmEnd, h]

/-- A command that has completed: its status, and the interface free for the next one. -/
theorem kmEnd_done {s t : State} {st : Nat} (h : t.km = (kmEnd s st).km) :
    t.km.status = st ∧ t.km.busy = false ∧ t.km.seq = (s.km.seq + 1) % 2 ^ 32 := by
  rw [h]
  exact ⟨rfl, rfl, rfl⟩

/-! ### BIND_FABRIC_IMPORT (20 R418) -/

section
variable {s : State} {p : Nat} {P : Part} {area : BitVec 64} (hb : s.km.busy = false) (h : s.parts.look p = some P)
include hb h

theorem bindNow_bad_import
    (hi : 64 ≤ (s.byteAt (hostLoc (areaOf12 area))).toNat ∨
      bitN (P.imports.lookD 0 (s.byteAt (hostLoc (areaOf12 area))).toNat).toNat 15 = false) :
    bindNow p area s = kmEnd s 6 := by
  rw [bindNow, kmCommand_free hb]
  simp only [h]
  rw [if_pos]
  simpa using hi

variable (hi : (s.byteAt (hostLoc (areaOf12 area))).toNat < 64)
  (hv : bitN (P.imports.lookD 0 (s.byteAt (hostLoc (areaOf12 area))).toNat).toNat 15 = true)
include hi hv

/-- The checks that follow once the argument names a valid import. -/
theorem bindNow_valid_import :
    bindNow p area s =
      if (P.bound.look (s.byteAt (hostLoc (areaOf12 area))).toNat).isSome then kmEnd s 0
      else if 256 ≤ s.keySlots then kmEnd s 5
      else if !Config.verifies s.fresh then kmEnd s.tick 1
      else kmEnd (({ s.tick with keySlots := s.keySlots + 1, nextKey := s.nextKey + 1 }).updPart p (fun P =>
        { P with bound := P.bound.setAt (s.byteAt (hostLoc (areaOf12 area))).toNat s.nextKey })) 0 := by
  rw [bindNow, kmCommand_free hb]
  simp only [h]
  rw [if_neg]
  simp only [hv, Bool.not_true, Bool.false_eq_true, or_false]
  omega

end

/-! ### Migration keys (20 R419) -/

/-- A migration key given up while no exchange is under way. -/
theorem dropMigKey_idle {s : State} {p : Nat} {P : Part} (h : s.parts.look p = some P) (hw : P.migWait = none) :
    (dropMigKey s p).km = s.km ∧ (dropMigKey s p).keySlots = s.keySlots - (if P.migKey.isSome then 1 else 0) ∧
    (dropMigKey s p).mem = s.mem ∧ (dropMigKey s p).out = s.out ∧
    (dropMigKey s p).parts.look p = some { P with migKey := none } := by
  rw [dropMigKey_eq h]
  refine ⟨?_, ?_, State.updPart_mem _ _ _, State.updPart_out _ _ _, ?_⟩
  · simp [hw]
  · simp [hw]
  · rw [State.look_updPart_self (by exact h), ← hw]

section
variable {s : State} {p : Nat} {P : Part} {area : BitVec 64} (hb : s.km.busy = false) (h : s.parts.look p = some P)
include hb h

theorem migKeyAsk_refused (hm : migStatus s p P (s.readBytes (hostLoc (areaOf12 area)) 4096) ≠ 0) :
    migKeyAsk p area s = kmEnd s (migStatus s p P (s.readBytes (hostLoc (areaOf12 area)) 4096)) := by
  rw [migKeyAsk, kmCommand_free hb]
  simp only [h]

/-- An exchange that goes on, where no other one is under way: the old key is retired, and the exchange waits. -/
theorem migKeyAsk_asked (hm : migStatus s p P (s.readBytes (hostLoc (areaOf12 area)) 4096) = 0) (hw : P.migWait = none) :
    let arg := s.readBytes (hostLoc (areaOf12 area)) 4096
    let t := migKeyAsk p area s
    t.km = { s.km with busy := true } ∧ t.keySlots = s.keySlots - (if P.migKey.isSome then 1 else 0) + 1 ∧ t.mem = s.mem ∧
    (byteOf arg 0 = 1 → ∃ b, t.out = .bytes b :: s.out) ∧
    t.parts.look p = some { P with migKey := none, migWait := some (byteOf arg 0, (arg.drop 8).take 48, byteOf arg 56) } := by
  intro arg
  obtain ⟨hkm, hslots, hmem, hout, hP⟩ := dropMigKey_idle h hw
  rw [migKeyAsk, kmCommand_free hb]
  simp only [h, hm]
  generalize dropMigKey s p = D at hkm hslots hmem hout hP ⊢
  split
  · simp only [State.updPart_km, State.updPart_keySlots, State.updPart_mem, State.updPart_out, State.tick, State.reply, hkm, hslots,
      hmem, hout, true_and]
    exact ⟨fun _ => ⟨_, rfl⟩, State.look_updPart_self (P := { P with migKey := none }) (by exact hP) _⟩
  · rename_i h1
    simp only [State.updPart_km, State.updPart_keySlots, State.updPart_mem, hkm, hslots, hmem, true_and]
    exact ⟨fun h2 => absurd h2 h1, State.look_updPart_self (P := { P with migKey := none }) (by exact hP) _⟩

/-- RETIRE_MIGRATION_KEY while no exchange is under way. -/
theorem retireKey_idle (hw : P.migWait = none) :
    (retireKey p s).km = (kmEnd s 0).km ∧ (retireKey p s).keySlots = s.keySlots - (if P.migKey.isSome then 1 else 0) ∧
    (retireKey p s).parts.look p = some { P with migKey := none } := by
  obtain ⟨hkm, hslots, -, -, hP⟩ := dropMigKey_idle h hw
  rw [retireKey, kmCommand_free hb, ← hslots]
  exact ⟨kmEnd_km hkm 0, rfl, hP⟩

end

section
variable {s : State} {p role n : Nat} {P : Part} {hash : List Byte} (h : s.parts.look p = some P)
  (hw : P.migWait = some (role, hash, n))
include h hw

/-- The peer's message bears the hash that the argument named: the partition has its key, and the source answers. -/
theorem peerMessage_agreed :
    let t := peerMessage p (some hash) s
    t.km = (kmEnd s 0).km ∧ t.nextKey = s.nextKey + 1 ∧ (role = 0 → ∃ b, t.out = .bytes b :: s.out) ∧
    t.parts.look p = some { P with migKey := some (migNumber s role n), migWait := none } := by
  simp only [peerMessage, h, hw, if_true]
  by_cases h0 : role = 0
  · simp only [h0, if_true]
    exact ⟨kmEnd_km (State.updPart_km _ _ _) 0,
      State.updPart_nextKey _ _ _, fun _ => ⟨_, State.updPart_out _ _ _⟩, State.look_updPart_self (by exact h) _⟩
  · simp only [h0, if_false]
    exact ⟨kmEnd_km (State.updPart_km _ _ _) 0,
      State.updPart_nextKey _ _ _, False.elim, State.look_updPart_self (by exact h) _⟩

theorem peerMessage_refused {peer : Option (List Byte)} (hp : peer ≠ some hash) :
    let t := peerMessage p peer s
    t.km = (kmEnd s 1).km ∧ t.keySlots = s.keySlots - 1 ∧ t.parts.look p = some { P with migWait := none } := by
  simp only [peerMessage, h, hw, hp, if_false]
  exact ⟨kmEnd_km (State.updPart_km _ _ _) 1,
    State.updPart_keySlots _ _ _, State.look_updPart_self (by exact h) _⟩

end

/-! ### Firmware (20 R420) -/

theorem stageNow_signed {s : State} (hb : s.km.busy = false) (area : BitVec 64) :
    let h := s.readBytes (hostLoc (areaOf12 area)) 96
    stageNow area true s =
      if fieldOf h 0 4 ≠ Config.firmwareFormat.toNat then kmEnd s 6
      else if fieldOf h 4 4 < s.fused then kmEnd s 2
      else kmEnd { s with staged := fieldOf h 4 4, stagedDigest := (h.drop 16).take 48,
                          parts := s.parts.mapV (fun _ P => { P with fwAck := none }) } 0 := by
  intro h
  rw [stageNow, kmCommand_free hb]
  simp only [Bool.not_true, Bool.false_eq_true, if_false, bne_iff_ne]
  rfl

theorem activateAsk_free {s : State} (hb : s.km.busy = false) : activateAsk s =
    if activateStatus s ≠ 0 then kmEnd s (activateStatus s)
    else if s.parts = [] then activateNow { s with fwHold := true } else askAll s .activate := by
  rw [activateAsk, kmCommand_free hb]
  simp only [bne_iff_ne, List.isEmpty_iff]

/-- An activation with no partition to drain is done at once (20 R421). -/
theorem activateNow_alone {s : State} (hp : s.parts = []) (hh : s.heldCmds = []) :
    activateNow s = kmEnd { s with
      active := s.stagedDigest, activeSvn := s.staged, prev := (s.active, s.activeSvn), fused := max s.fused s.staged, staged := 0,
      stagedDigest := [], fwHold := false } 0 := by
  unfold activateNow releaseHeld kmEnd
  simp only [hp, hh, FMap.keys, List.map_nil, List.foldl_nil]

/-! ### The life cycle (20 R425) -/

theorem lifeAsk_allowed {s : State} (hb : s.km.busy = false) (hl : s.lcs < 3) (area : BitVec 64) : lifeAsk area true s =
    if s.parts = [] then lifeNow { s with fwHold := true } else askAll s .lifeCycle := by
  rw [lifeAsk, kmCommand_free hb, if_neg (by omega)]
  simp only [Bool.not_true, Bool.false_eq_true, if_false, List.isEmpty_iff]

/-- A transition with no partition to drain is done at once: the module is wiped and the next state burnt. -/
theorem lifeNow_alone {s : State} (hp : s.parts = []) (hh : s.heldCmds = []) :
    lifeNow s = { kmEnd { wipeLife s with
      lcs := s.lcs + 1
      identity := if s.lcs + 1 = 1 then true else if s.lcs + 1 = 3 then false else s.identity } 0 with fwHold := false, heldCmds := [] } := by
  unfold lifeNow releaseHeld
  simp only [hp, FMap.keys, List.map_nil, List.foldl_nil]
  have hw : (wipeLife s).heldCmds = [] := hh
  simp only [kmEnd, hw, List.foldl_nil]
  rfl

/-- A wipe leaves no byte below host memory. -/
theorem byteAt_wipeLife (s : State) (l : Nat) (h : l < 2 ^ 64) : (wipeLife s).byteAt l = 0 := by
  have hk : FMap.look (wipeLife s).mem l = none :=
    (FMap.look_keep_keys s.mem (fun j => decide (2 ^ 64 ≤ j)) l).trans (if_neg (by simpa using h))
  rw [State.byteAt, FMap.lookD, hk]
  rfl

/-- Settles O58: each command by what its checks find, and each message of a session by its partition. -/
theorem keyCommands : Obligations.KeyCommands := by
  unfold Obligations.KeyCommands
  intro s p area
  refine ⟨fun hb i hi => ?_, fun hb => ⟨fun hP => ?_, fun P h => ⟨fun hi => ?_, fun hi hv => ⟨fun hd => ?_, fun hd hk => ?_, fun hd hk => ?_⟩,
    fun hm => ?_, fun hm hw => ?_, fun hw => ?_⟩, ?_⟩, fun P h hs => ⟨fun hw => ⟨fun ht => ?_, fun ht => ?_, fun ht => ?_⟩, fun dig => ?_,
    fun key hq => ?_⟩, fun k hk => ⟨?_, fun n => ?_, fun i raw hm => ?_⟩, fun P ⟨role, hash, n⟩ h hw => ⟨?_, fun peer hp => ?_⟩⟩
  · have drop := kmCommand_busy hb
    rcases hi with rfl | ⟨ok, rfl⟩ | rfl | rfl | ⟨ok, rfl⟩ | rfl | rfl <;> exact ⟨_, rfl, drop _⟩
  · have free := kmCommand_free hb
    refine ⟨⟨_, rfl, (free _).trans ?_⟩, ⟨_, rfl, (free _).trans ?_⟩⟩ <;> rw [hP] <;> rfl
  -- BIND_FABRIC_IMPORT (R418)
  · exact ⟨_, rfl, bindNow_bad_import hb h hi⟩
  · exact ⟨_, rfl, by rw [bindNow_valid_import hb h hi hv, if_pos hd]; rfl⟩
  · exact ⟨_, rfl, by rw [bindNow_valid_import hb h hi hv, hd, if_neg (by simp), if_pos hk]; rfl⟩
  · refine ⟨_, rfl, ?_⟩
    rw [bindNow_valid_import hb h hi hv, hd, if_neg (by simp), if_neg (by omega)]
    cases hver : Config.verifies s.fresh with
    | false => exact ⟨rfl, fun hc => absurd hc Bool.false_ne_true, fun _ => ⟨⟨rfl, rfl, rfl⟩, rfl, h⟩⟩
    | true =>
      refine ⟨State.updPart_mem _ _ _, fun _ => ⟨kmEnd_done (kmEnd_km (State.updPart_km _ _ _) 0), State.updPart_keySlots _ _ _,
        State.updPart_nextKey _ _ _, _, State.look_updPart_self (by exact h) _, rfl, ?_, fun j hj => ?_⟩,
        fun hc => absurd hc.symm Bool.false_ne_true⟩
      · exact (FMap.look_setAt _ _ _ _).trans (if_pos rfl)
      · exact (FMap.look_setAt _ _ _ _).trans (if_neg hj)
  -- migration keys (R419)
  · exact ⟨_, rfl, migKeyAsk_refused hb h hm⟩
  · obtain ⟨hkm, hslots, hmem, hout, hlook⟩ := migKeyAsk_asked hb h hm hw
    exact ⟨_, rfl, hkm, hslots, hmem, hout, _, hlook, rfl⟩
  · obtain ⟨hkm, hslots, hlook⟩ := retireKey_idle hb h hw
    exact ⟨_, rfl, kmEnd_done hkm, hslots, _, hlook, rfl⟩
  -- firmware and the life cycle (R420, R425)
  · refine ⟨⟨_, rfl, kmCommand_free hb _⟩, ⟨_, rfl, ?_⟩, ⟨_, rfl, kmCommand_free hb _⟩, fun ha => ⟨_, rfl, ?_⟩, fun ha hp => ⟨_, rfl, ?_⟩,
      fun ha hp hh => ⟨_, rfl, ?_⟩, fun hl ok => ⟨_, rfl, (kmCommand_free hb _).trans (if_pos hl)⟩,
      fun hl => ⟨_, rfl, (kmCommand_free hb _).trans ((if_neg (by omega)).trans (if_pos rfl))⟩, fun hl hp => ⟨_, rfl, ?_⟩,
      fun hl hp hh => ⟨_, rfl, ?_⟩⟩
    · rw [stageNow_signed hb]
      generalize s.readBytes (hostLoc (areaOf12 area)) 96 = hd
      by_cases hf : fieldOf hd 0 4 ≠ Config.firmwareFormat.toNat
      · simp only [if_pos hf]
        rfl
      · by_cases hv : fieldOf hd 4 4 < s.fused
        · simp only [if_neg hf, if_pos hv]
          rfl
        · simp only [if_neg hf, if_neg hv]
          exact ⟨⟨rfl, rfl, rfl⟩, rfl, rfl, rfl, fun k P h => by simp only [kmEnd, FMap.look_mapV, h, Option.map_some]⟩
    · rw [activateAsk_free hb, if_pos ha]
      rfl
    · rw [activateAsk_free hb, if_neg (not_not.2 ha), if_neg hp]
      obtain ⟨hw, hkm, hact, -, hparts⟩ := askAll_drains s .activate
      exact ⟨⟨hw, hkm, hparts⟩, hact⟩
    · rw [activateAsk_free hb, if_neg (not_not.2 ha), if_pos hp, activateNow_alone (by exact hp) (by exact hh)]
      exact ⟨⟨rfl, rfl, rfl⟩, rfl, rfl, rfl, rfl, rfl, rfl, rfl⟩
    · rw [lifeAsk_allowed hb hl, if_neg hp]
      obtain ⟨hw, hkm, -, hlcs, hparts⟩ := askAll_drains s .lifeCycle
      exact ⟨⟨hw, hkm, hparts⟩, hlcs⟩
    · rw [lifeAsk_allowed hb hl, if_pos hp, lifeNow_alone (by exact hp) (by exact hh)]
      refine ⟨rfl, rfl, rfl, rfl, ?_, fun l hl => byteAt_wipeLife s l hl⟩
      have h1 : s.lcs + 1 = 1 ↔ s.lcs = 0 := by omega
      have h3 : s.lcs + 1 = 3 ↔ s.lcs = 2 := by omega
      simp only [kmEnd, h1, h3]
  -- messages of a session (R411, R413 to R415)
  · exact ⟨_, rfl, _, (askLock_unlocked hw h hs ht).after, rfl⟩
  · exact ⟨_, rfl, _, (askStart_locked hw h hs ht).after, rfl⟩
  · exact ⟨_, rfl, _, (askStop_error hw h hs ht).after, rfl⟩
  · exact ⟨_, rfl, by rw [inSession_inside h hs]; exact ⟨_, State.look_updPart_self h _, rfl⟩⟩
  · exact ⟨_, rfl, by rw [inSession_inside h hs]; exact ⟨_, (ideSwitch_quiet h hq).after, rfl⟩⟩
  · exact ⟨_, rfl, fun P h => ⟨_, exchangeNow_session hk h, rfl⟩⟩
  · exact ⟨_, rfl, _, challengeNow_signed hk n⟩
  · obtain ⟨m, hm⟩ := Option.isSome_iff_exists.1 hm
    exact ⟨_, rfl, _, measurementsNow_signed hk hm raw⟩
  -- the peer's message (R419)
  · obtain ⟨hkm, hnext, hout, hlook⟩ := peerMessage_agreed h hw
    exact ⟨_, rfl, kmEnd_done hkm, hnext, hout, _, hlook, rfl, rfl⟩
  · obtain ⟨hkm, hslots, hlook⟩ := peerMessage_refused h hw hp
    exact ⟨_, rfl, kmEnd_done hkm, hslots, _, hlook, rfl⟩

end Sys2Proof.Machine
end

section
/-!
PROOF that RegisterWritesAndTrips fails (14 R306, R321; 09 R217): a write of PCARVE may mark the inputs of an open region.

Two tiles of one partition: tile 1 runs a launch whose group has a region open with an input on a line of HBM; the L2 of tile 0,
where no launch is resident, holds the line, and the tile's write queue a reduction to it. PCARVE's new TM region takes effect on
tile 0 at once, so the line leaves its L2 and the reduction is applied: a write of the line, which marks the input as conflicted.
The groups are then not as before, as the statement's clause on offset 0x040 says.
-/

namespace Sys2Proof.Machine

/-- The address of the region's input. -/
def carvePa : Nat := 0x40010000

/-- An open region with one input, not conflicted. -/
def carveRegion : Region :=
  { fb := 0x1000, ser := false, lanes := [0], snapS := [], snapSPsn := [], snapP := [], cnt := 0, tags := [], ltags := [],
    inputs := [⟨carvePa, 2, 0, false, false, false⟩], stores := [], cons := [], start := 0, commit := false }

/-- The launch on tile 1, and its group. -/
def carveLaunch : Launch :=
  { part := 0, q := 0, level := 0, seq := 0, rc := placedRec 0x1000, args := [], tm := [], scr := [], slots := [(1, 0, 0)],
    cbars := [], tbars := [], phase := [], halt := none, engErr := none, times := [], fabric := none, calls := [],
    reserve := false, startSeq := 0, starting := false, ended := [] }
def carveGroup : Group :=
  { Group.start 0 0 (placedRec 0x1000) { lin := 0, tile := 1, core := 0, slot := 0, pos := 0, win := 0 } with region := some carveRegion }

/-- Tile 0: the line in its L2, and a pending reduction to it. -/
def carveTile : Tile :=
  { Tile.reset with l2 := [(lineOf carvePa, 0)], wq := [⟨lineOf carvePa, 0, .n32, 0, [(0, 1)]⟩] }

def carvePart : Part := Part.fresh 1 [0, 1] 0 0

def carveState : State :=
  { State.reset with parts := [(0, carvePart)], launches := [(0, carveLaunch)], groups := [(1, carveGroup)], tiles := [(0, carveTile)] }

/-- PCARVE with RSV 12 and SCRMAX 32 as at reset, and TMMAX 40 in place of 48. -/
def carveValue : BitVec 64 := 0xC2820

/-- Is an input of some open region conflicted (09 R217)? -/
def anyConflict (groups : FMap Group) : Bool :=
  groups.any (fun e => e.2.region.any (fun r => r.inputs.any RInput.conflicted))

theorem carveState_no_conflict : anyConflict carveState.groups = false := by decide

theorem carveWrite_conflict :
    anyConflict (pfWrite carveState 0 carvePart 0x040 carveValue.toNat).groups = true := by decide

theorem exec_carveWrite : exec (.registerWrite .pf 0 0x040 carveValue) carveState =
    .next (pfWrite carveState 0 carvePart 0x040 carveValue.toNat) := rfl

/-- Refutes O60: the write of PCARVE marks an input of an open region, so the groups change. -/
theorem not_registerWritesAndTrips : ¬ Obligations.RegisterWritesAndTrips := by
  unfold Obligations.RegisterWritesAndTrips
  intro h
  obtain ⟨-, -, -, -, hP⟩ := h.1 carveState 0 carveValue
  obtain ⟨-, hunlocked, -⟩ := hP carvePart rfl
  obtain ⟨⟨t, ht, hgroups, -⟩, -⟩ := hunlocked rfl
  obtain rfl : pfWrite carveState 0 carvePart 0x040 carveValue.toNat = t := Host.Outcome.next.inj (exec_carveWrite.symm.trans ht)
  have hc := carveWrite_conflict
  rw [hgroups, carveState_no_conflict] at hc
  cases hc

end Sys2Proof.Machine
end

section
/-!
PROOF of FloatResults (05 R130 to R135, R138 to R141; 03 R89, R90): vector words whose lanes compute independently run as lane forms,
and a lane form writes what `laneOp_wrote` says.
-/

namespace Sys2Proof.Machine

/-! ### Words that run as lane forms (05 R121) -/

/-- The word runs as `laneOp` with the hints, the destination, the sources and the function of its rule, which is a lane form. -/
def RunsAsLaneForm (i : Instr) (r : ResultRule) : Prop :=
  ∃ c d wide srcs f, r = laneForm c d wide srcs f ∧ ∀ s, exec i s = laneOp c d wide srcs s f

theorem executes_of_laneForms {rule : Instr → Option ResultRule} (h : ∀ i r, rule i = some r → RunsAsLaneForm i r) :
    Executes rule := by
  intro i r s x s1 hrule hready _
  obtain ⟨c, d, wide, srcs, f, rfl, hexec⟩ := h i r hrule
  rw [hexec]
  exact laneOp_wrote f hready

section
variable {i : Instr} {c : Ctl} {o : OpA}

theorem laneForm_runs {d : Dst} {wide : Bool} {srcs : List (Src × Bool)} {f : Ctx → Nat → FEnv → FEnv × Nat}
    (h : ∀ s, exec i s = laneOp c d wide srcs s f) : RunsAsLaneForm i (laneForm c d wide srcs f) :=
  ⟨c, d, wide, srcs, f, rfl, h⟩

/-- Element by element, element 0 first (03 R90; 05 R130). -/
theorem fpForm_runs {srcs : List Src} {f : Ctx → Nat → FEnv → Nat → FEnv × Nat}
    (h : ∀ s, exec i s = fpOp c o srcs s f) : RunsAsLaneForm i (fpForm c o srcs f) :=
  laneForm_runs h

/-- Sums of products and addends, rounded once (05 R130). -/
theorem fpSumForm_runs {srcs : List Src} {f : Ctx → Nat → Nat → List (Fv × Fv) × List Fv}
    (h : ∀ s, exec i s = fpSum c o srcs s f) : RunsAsLaneForm i (fpSumForm c o srcs f) :=
  fpForm_runs h

/-- Approximated functions (05 R135; log 7). -/
theorem approxForm_runs {fn : Config.Approx} (h : ∀ s, exec i s = fpApprox fn c o s) : RunsAsLaneForm i (approxForm fn c o) :=
  fpForm_runs h

end

/-! ### Floating-point instructions and conversions -/

theorem floatRule_runs (i : Instr) (r : ResultRule) (h : floatRule i = some r) : RunsAsLaneForm i r := by
  cases i <;> simp only [floatRule, Option.some.injEq, reduceCtorEq] at h <;> subst h
  case fadd | fsub | fmul | ffma => exact fpSumForm_runs fun _ => rfl
  case fmin | fmax | fcmp | fclass => exact fpForm_runs fun _ => rfl
  case fdiv | fsqrt | fround | fscale => exact fpForm_runs fun _ => rfl
  case frcp | frsq | fexp2 | flog2 | fsin | fcos | ftanh => exact approxForm_runs fun _ => rfl
  case fdot2 => exact laneForm_runs fun _ => rfl

theorem convertRule_runs (i : Instr) (r : ResultRule) (h : convertRule i = some r) : RunsAsLaneForm i r := by
  cases i <;> simp only [convertRule, Option.some.injEq, reduceCtorEq] at h <;> subst h
  case cvt | cvtbx | cvtxf | cvtpk => exact laneForm_runs fun _ => rfl
  case cvtf8 c o =>
    -- a byte of the source into FP32, or two converted bytes beside the half that is kept (05 R140)
    by_cases hty : o.ty == .f32
    · rw [if_pos hty]
      exact laneForm_runs fun _ => if_pos hty
    · rw [if_neg hty]
      exact laneForm_runs fun _ => if_neg hty

/-- Settles O15: every word of the two tables runs as the lane form of its rule. -/
theorem floatResults : Obligations.FloatResults := by
  unfold Obligations.FloatResults
  exact ⟨executes_of_laneForms floatRule_runs, executes_of_laneForms convertRule_runs⟩

end Sys2Proof.Machine
end

section
/-!
PROOF of VectorResults (05 R121 to R127; RND's R142): a vector integer word runs as the lane form of its shape, which leaves each lane's
flags and draws as they are (05 R128); what a lane form writes is said for all of them by `executes_of_laneForms`.
-/

namespace Sys2Proof.Machine

/-! ### The shapes of vector integer words (05 R120, R123) -/

section
variable {i : Instr} {c : Ctl} {o : OpA}

/-- A form without flags or draws is the lane form of its value (05 R128). -/
theorem plainForm_runs {d : Dst} {wide : Bool} {srcs : List (Src × Bool)} {f : Ctx → Nat → Nat}
    (h : ∀ s, exec i s = laneOp c d wide srcs s (pureLane f)) : RunsAsLaneForm i (plainForm c d wide srcs f) :=
  laneForm_runs h

theorem vecForm1_runs {f : Nat → Nat → Nat} (h : ∀ s, exec i s = vec1 c o s f) : RunsAsLaneForm i (vecForm1 c o f) :=
  plainForm_runs h

/-- The signedness that a two-operand word hands to its function is that of its type. -/
theorem vecForm2_runs {f : Bool → Nat → Nat → Nat → Nat} (h : ∀ s, exec i s = vec2 c o s f) :
    RunsAsLaneForm i (vecForm2 c o (f o.ty.signed)) :=
  plainForm_runs h

theorem vecForm3_runs {f : Nat → Nat → Nat → Nat} (h : ∀ s, exec i s = vec3 c o s f) : RunsAsLaneForm i (vecForm3 c o f) :=
  plainForm_runs h

theorem vecFormS_runs {f : Nat → Nat → Nat → Nat} (h : ∀ s, exec i s = vecShift c o s f) : RunsAsLaneForm i (vecFormS c o f) :=
  plainForm_runs h

end

/-! ### Vector integer instructions -/

theorem vectorRule_runs (i : Instr) (r : ResultRule) (h : vectorRule i = some r) : RunsAsLaneForm i r := by
  cases i <;> simp only [vectorRule, Option.some.injEq, reduceCtorEq] at h <;> subst h
  -- arithmetic, logic, fields (05 R124, R125)
  case vadd c o => exact vecForm2_runs (f := fun sg w a b => if o.sat then iAddSat sg w a b else iAdd w a b) fun _ => rfl
  case vsub c o => exact vecForm2_runs (f := fun sg w a b => if o.sat then iSubSat sg w a b else iSub w a b) fun _ => rfl
  case vmul => exact vecForm2_runs (f := fun _ => iMul) fun _ => rfl
  case vmulh => exact vecForm2_runs (f := iMulh) fun _ => rfl
  case vand => exact vecForm2_runs (f := fun _ _ => iAnd) fun _ => rfl
  case vor => exact vecForm2_runs (f := fun _ _ => iOr) fun _ => rfl
  case vxor => exact vecForm2_runs (f := fun _ _ => iXor) fun _ => rfl
  case vmin => exact vecForm2_runs (f := iMin) fun _ => rfl
  case vmax => exact vecForm2_runs (f := iMax) fun _ => rfl
  case vext c o => exact vecForm2_runs (f := fun sg _ a b => iExt sg 32 a b (o.aux.toNat % 32 + 1)) fun _ => rfl
  case vabs | vclz | vpopc | vmov => exact vecForm1_runs fun _ => rfl
  case vshl | vshr | vsar => exact vecFormS_runs fun _ => rfl
  case vmad | vlop3 | vins | vdot4 => exact vecForm3_runs fun _ => rfl
  -- a choice by a predicate, a relation, a constant, and a draw of a given key (05 R124, R126, R142)
  case vsel | vcmp | vmovi | rnd => exact plainForm_runs fun _ => rfl

/-- Settles O14: every word of the table runs as the lane form of its rule. -/
theorem vectorResults : Obligations.VectorResults := by
  unfold Obligations.VectorResults
  exact executes_of_laneForms vectorRule_runs

end Sys2Proof.Machine
end

section
/-!
SUPPORT. A word whose own part is done (01 R19, R31; 02 R47): what it leaves when its part leaves the groups as it found them, and
writes one destination or none.
-/

namespace Sys2Proof.Machine

/-! ### Tables -/

theorem FMap.remove_insert' {α : Type} (m : FMap α) (k : Nat) (a : α) : (m.insert' k a).remove k = m.remove k := by
  induction m with
  | nil => simp [FMap.insert', FMap.remove]
  | cons e m ih =>
    obtain ⟨j, b⟩ := e
    unfold FMap.insert'
    split
    · simp [FMap.remove]
    · simp only [FMap.remove, ih]

theorem FMap.remove_remove {α : Type} (m : FMap α) (k : Nat) : (m.remove k).remove k = m.remove k := by
  induction m with
  | nil => rfl
  | cons e m ih =>
    obtain ⟨j, b⟩ := e
    by_cases hj : j = k <;> simp [FMap.remove, hj, ih]

/-- An entry set twice is set to what it was set to last. -/
theorem FMap.setAt_setAt {α : Type} (m : FMap α) (k : Nat) (a b : α) : (m.setAt k a).setAt k b = m.setAt k b := by
  unfold FMap.setAt
  rw [FMap.remove_insert', FMap.remove_remove]

theorem State.setGroup_setGroup (s : State) (g : Nat) (A B : Group) : (s.setGroup g A).setGroup g B = s.setGroup g B := by
  unfold State.setGroup
  simp only [FMap.setAt_setAt]

theorem State.look_setGroup_self (s : State) (g : Nat) (G : Group) : (s.setGroup g G).groups.look g = some G :=
  (State.look_setGroup s g G g).trans (if_pos rfl)

/-! ### What a word that is done leaves -/

section
variable {c : Ctl} {m : Meta} {s s1 sX : State} {x : Ctx}

/-- A group left as the word found it. -/
theorem ready_look (h : ready c m s = some (x, s1)) (hX : sX.groups = s1.groups) : sX.groups.look x.g = some x.G := by
  obtain ⟨G0, hs⟩ := ready_seen h
  rw [hX, hs.look, if_pos rfl]

/-- One destination written, and outside the group the machine as the word's own part leaves it. -/
theorem done_wrote_dst (h : ready c m s = some (x, s1)) (hX : sX.groups = s1.groups) (d : Dst) (wide : Bool) (val : Nat → Nat)
    (psn : Nat → Bool) :
    Wrote c x (sX.under s) (settle x c s1 (.done (sX.updGroup x.g (fun G => putDst x G d wide val psn none)) [])) d wide
      (fun i => (x.env i, val i)) psn x.next := by
  rw [State.updGroup_of_look (ready_look h hX)]
  exact plain_wrote_in h sX hX d wide x.G (Touched.refl _) rfl val psn none []

/-- Setting the group of a word to what it is changes nothing of what the word leaves. -/
theorem settle_done_setGroup (h : ready c m s = some (x, s1)) (hX : sX.groups = s1.groups) (npc : FMap (BitVec 64)) :
    settle x c s1 (.done (sX.setGroup x.g x.G) npc) = settle x c s1 (.done sX npc) := by
  rw [settle_done npc (ready_look h hX), settle_done npc (State.look_setGroup_self _ _ _),
    State.setGroup_setGroup]
  rfl

/-- No destination written. -/
theorem done_passed (h : ready c m s = some (x, s1)) (hX : sX.groups = s1.groups) :
    Passed c x s sX (settle x c s1 (.done sX [])) := by
  rw [← settle_done_setGroup h hX]
  exact plain_wrote_in h sX hX (.acc 0) false x.G (Touched.refl _) rfl (fun _ => 0) (fun _ => false) none []

/-- A predicate of the group, complete at once (07 R178). -/
theorem donePred_wrote (h : ready c m s = some (x, s1)) (hX : sX.groups = s1.groups) (d : Dst) (b : Bool) :
    Wrote c x (sX.under s) (settle x c s1 (donePred x sX d b)) d false (fun i => (x.env i, b.toNat)) (fun _ => false) x.next :=
  done_wrote_dst h hX d false (fun _ => b.toNat) (fun _ => false)

end

end Sys2Proof.Machine
end

section
/-!
SUPPORT. One write, one atomic and one reduction of a word in scratch, HBM or TM, where no reduction is pending (07 R175, R180;
14 R320, R321): the bytes of the word, and that no other byte changes.
-/

namespace Sys2Proof.Machine

/-! ### Numbers of several bytes -/

theorem State.writeN_rest (s : State) (l n v : Nat) : s.writeN l n v = { s with mem := (s.writeN l n v).mem } := by
  induction n generalizing s l v with
  | zero => rfl
  | succ n ih => rw [State.writeN, ih]; rfl

/-- A number read where it was written, modulo the size of its place. -/
theorem State.readN_writeN (s : State) (l n v : Nat) : (s.writeN l n v).readN l n = v % 256 ^ n := by
  induction n generalizing s l v with
  | zero => simp [State.readN, Nat.mod_one]
  | succ n ih =>
    rw [State.readN, State.writeN, ih, State.byteAt_writeN_of_outside _ _ _ _ _ (by omega), State.byteAt_setByte, if_pos rfl,
      BitVec.toNat_ofNat, pow_succ' 256 n, Nat.mod_mul]

theorem State.toNat_byteAt_writeN (s : State) (l n v k : Nat) (h : k < n) :
    ((s.writeN l n v).byteAt (l + k)).toNat = v / 256 ^ k % 256 := by
  rw [State.byteAt_writeN_of_inside s l n v k h, BitVec.toNat_ofNat]

/-- The bytes of a type's word hold the numbers below 2^w. -/
theorem pow_bytes_tyW (t : Ty) : 256 ^ (tyW t / 8) = 2 ^ tyW t := by
  unfold tyW
  split <;> decide

/-! ### What bookkeeping of an access leaves as it was -/

/-- The bytes, the poison, the directory and the cores of two states are the same. -/
structure SameBytes (s t : State) : Prop where
  mem : t.mem = s.mem
  poison : t.poison = s.poison
  dir : t.dir = s.dir
  cores : t.cores = s.cores

/-- The tiles are the same too, and with them their write queues. -/
structure SameStore (s t : State) : Prop extends SameBytes s t where
  tiles : t.tiles = s.tiles

section
variable {s t u : State}

theorem SameBytes.trans (h : SameBytes s t) (k : SameBytes t u) : SameBytes s u :=
  ⟨k.mem.trans h.mem, k.poison.trans h.poison, k.dir.trans h.dir, k.cores.trans h.cores⟩

/-- Where a byte stands follows from the directory and the MAPS entries of the cores (14 R322). -/
theorem SameBytes.locOf (h : SameBytes s t) (a : Nat) : Machine.locOf t a = Machine.locOf s a := by
  simp only [Machine.locOf, mapsLoc, State.coreAt, h.dir, h.cores]

theorem SameBytes.byteAt (h : SameBytes s t) (l : Nat) : t.byteAt l = s.byteAt l := by rw [State.byteAt, h.mem, State.byteAt]
theorem SameBytes.readN (h : SameBytes s t) (l n : Nat) : t.readN l n = s.readN l n := State.readN_of_mem h.mem l n
theorem SameBytes.isPoisoned (h : SameBytes s t) (l : Nat) : t.isPoisoned l = s.isPoisoned l := by
  rw [State.isPoisoned, h.poison, State.isPoisoned]

theorem SameStore.refl (s : State) : SameStore s s := ⟨⟨rfl, rfl, rfl, rfl⟩, rfl⟩

theorem SameStore.trans (h : SameStore s t) (k : SameStore t u) : SameStore s u :=
  ⟨h.toSameBytes.trans k.toSameBytes, k.tiles.trans h.tiles⟩

theorem SameStore.quiet (h : SameStore s t) {line : Nat} (hq : s.quiet line) : t.quiet line := by
  unfold State.quiet; rw [h.tiles]; exact hq
theorem SameStore.still (h : SameStore s t) (hs : s.still) : t.still := by unfold State.still; rw [h.tiles]; exact hs

end

theorem updTile_sameBytes (s : State) (k : Nat) (f : Tile → Tile) : SameBytes s (s.updTile k f) := ⟨rfl, rfl, rfl, rfl⟩

theorem updPart_sameStore (s : State) (p : Nat) (f : Part → Part) : SameStore s (s.updPart p f) := by
  rw [State.updPart_rest]; exact ⟨⟨rfl, rfl, rfl, rfl⟩, rfl⟩

theorem touchFrame_sameStore (s : State) (a : Nat) : SameStore s (touchFrame s a) := by
  rw [touchFrame_rest]; exact ⟨⟨rfl, rfl, rfl, rfl⟩, rfl⟩

theorem markLine_sameStore (s : State) (w : Option Nat) (line : Nat) : SameStore s (markLine s w line) :=
  ⟨⟨rfl, rfl, rfl, rfl⟩, rfl⟩

theorem markDirty_sameStore (s : State) (p a : Nat) : SameStore s (markDirty s p a) := by
  unfold markDirty
  split
  · exact updPart_sameStore _ _ _
  · exact .refl s

theorem noteWrite_sameStore (s : State) (p a : Nat) : SameStore s (noteWrite s p a) := by
  unfold noteWrite
  split
  · exact .refl s
  · exact markDirty_sameStore _ _ _

theorem State.still.quiet {s : State} (h : s.still) (line : Nat) : s.quiet line := by
  intro e he q hq
  rw [h e he] at hq
  cases hq

theorem writeN_locOf (s : State) (l n v a : Nat) : locOf (s.writeN l n v) a = locOf s a := by rw [State.writeN_rest]; rfl

/-! ### A write (07 R164; 14 R321) -/

/-- A write in HBM or TM is a write of its bytes in a state that differs in bookkeeping alone. -/
theorem writePa_of_quiet (s : State) (w : Option Nat) (p a n v : Nat) (ha : spaceOf a < 2) (hq : s.quiet (lineOf a)) :
    ∃ u, SameStore s u ∧ writePa s w p a n v = u.writeN (locOf s a) n v := by
  have h0 : SameStore s (touchFrame s a) := touchFrame_sameStore s a
  have h2 := (h0.trans (markLine_sameStore _ w (lineOf a))).trans (noteWrite_sameStore _ p a)
  refine ⟨_, h2, ?_⟩
  have hx : ∀ t, countTx t p a n = t := fun t => if_neg (by omega)
  have hs : ¬ (spaceOf a = 2 ∧ w.isSome = true) := by omega
  simp only [writePa, drainLine_of_quiet _ _ (h0.quiet hq), hx, if_neg hs, h2.locOf]

section
variable (s : State) (w : Option Nat) (p a n v : Nat) (ha : spaceOf a < 2) (hq : s.quiet (lineOf a))
include ha hq

theorem byteAt_writePa_inside (k : Nat) (hk : k < n) :
    ((writePa s w p a n v).byteAt (locOf s a + k)).toNat = v / 256 ^ k % 256 := by
  obtain ⟨u, -, h⟩ := writePa_of_quiet s w p a n v ha hq
  rw [h, State.toNat_byteAt_writeN _ _ _ _ _ hk]

theorem byteAt_writePa_outside (l : Nat) (hl : l < locOf s a ∨ locOf s a + n ≤ l) :
    (writePa s w p a n v).byteAt l = s.byteAt l := by
  obtain ⟨u, hu, h⟩ := writePa_of_quiet s w p a n v ha hq
  rw [h, State.byteAt_writeN_of_outside _ _ _ _ _ hl, hu.byteAt]

end

/-! ### An atomic of one word (07 R175, R180) -/

/-- An atomic in HBM or TM: the old value, and the new one written unless the line is poisoned. -/
theorem atomicPa_of_quiet (s : State) (w : Option Nat) (p a : Nat) (t : Ty) (f : Nat → Nat) (ha : spaceOf a < 2)
    (hq : s.quiet (lineOf a)) :
    ∃ u, SameStore s u ∧ atomicPa s w p a t f =
      (if s.isPoisoned (locOf s a) then u else u.writeN (locOf s a) (tyW t / 8) (f (s.readN (locOf s a) (tyW t / 8))),
        s.readN (locOf s a) (tyW t / 8), s.isPoisoned (locOf s a)) := by
  have h0 := touchFrame_sameStore s a
  have hp : poisonedPa (touchFrame s a) a = s.isPoisoned (locOf s a) := by rw [poisonedPa, h0.locOf, h0.isPoisoned]
  simp only [atomicPa, readPa_of_quiet s a _ hq, hp]
  cases s.isPoisoned (locOf s a)
  · obtain ⟨u, hu, h⟩ := writePa_of_quiet (touchFrame s a) w p a (tyW t / 8) (f (s.readN (locOf s a) (tyW t / 8))) ha (h0.quiet hq)
    rw [h0.locOf] at h
    exact ⟨u, h0.trans hu, by simp only [Bool.false_eq_true, if_false, h]⟩
  · exact ⟨_, h0, rfl⟩

theorem atomicPlace_plain (s : State) (g p : Nat) (t : Ty) (f : Nat → Nat) (pl : Place) (l : Nat) (hpl : pl.plain s)
    (hl : placeLoc s pl = some l) :
    ∃ u, SameStore s u ∧ atomicPlace s g p t f pl =
      (if s.isPoisoned l then u else u.writeN l (tyW t / 8) (f (s.readN l (tyW t / 8))), s.readN l (tyW t / 8), s.isPoisoned l) := by
  cases pl with
  | rv o => cases hl
  | cst o => cases hl
  | loc k =>
    obtain rfl : k = l := Option.some.inj hl
    refine ⟨s, .refl s, ?_⟩
    simp only [atomicPlace]
    cases s.isPoisoned k <;> rfl
  | pa a stb =>
    obtain rfl : locOf s a = l := Option.some.inj hl
    exact atomicPa_of_quiet s (some g) p a t f hpl.1 hpl.2

/-! ### A reduction that waits at its home (14 R320, R321) -/

theorem FMap.insert'_split {α : Type} (m : FMap α) (k : Nat) (a : α) :
    ∃ pre post, m.insert' k a = pre ++ (k, a) :: post ∧ pre ++ post = m := by
  induction m with
  | nil => exact ⟨[], [], rfl, rfl⟩
  | cons e m ih =>
    obtain ⟨j, b⟩ := e
    obtain ⟨pre, post, h1, h2⟩ := ih
    unfold FMap.insert'
    split
    · exact ⟨[], _, rfl, rfl⟩
    · exact ⟨(j, b) :: pre, post, by rw [h1]; rfl, by rw [← h2]; rfl⟩

/-- A table with entry k set is that entry among entries of the table. -/
theorem FMap.setAt_split {α : Type} (m : FMap α) (k : Nat) (a : α) :
    ∃ pre post, m.setAt k a = pre ++ (k, a) :: post ∧ ∀ e ∈ pre ++ post, e ∈ m := by
  obtain ⟨pre, post, h1, h2⟩ := FMap.insert'_split (m.remove k) k a
  exact ⟨pre, post, h1, fun e he => (FMap.mem_remove m k e (h2 ▸ he)).1⟩

theorem FMap.mem_of_look {α : Type} {m : FMap α} {k : Nat} {a : α} (h : m.look k = some a) : (k, a) ∈ m := by
  induction m with
  | nil => cases h
  | cons e m ih =>
    rw [FMap.look_cons] at h
    split at h
    · rename_i he
      obtain rfl := Option.some.inj h
      exact he ▸ List.mem_cons_self
    · exact List.mem_cons_of_mem _ (ih h)

theorem State.still.wq_tileAt {s : State} (h : s.still) (tile : Nat) : (s.tileAt tile).wq = [] := by
  unfold State.tileAt FMap.lookD
  cases hl : s.tiles.look tile with
  | none => rfl
  | some t => exact h _ (FMap.mem_of_look hl)

/-- An entry put into a tile's queue. -/
def queueEntry (s : State) (tile : Nat) (e : WqEnt) : State := s.updTile tile (fun x => { x with wq := x.wq ++ [e] })

/-- Entry e of one tile is the only one of any queue: to drain its line is to apply it. -/
theorem drainLine_of_one {s : State} {tile : Nat} {X : Tile} {e : WqEnt} {pre post : FMap Tile}
    (ht : s.tiles = pre ++ (tile, X) :: post) (hX : X.wq = [e]) (hother : ∀ y ∈ pre ++ post, y.2.wq = []) :
    SameBytes (applyEnt tile s e) (drainLine s e.line) := by
  have hpre : ∀ y ∈ pre, y.2.wq = [] := fun y hy => hother y (List.mem_append_left _ hy)
  have hpost : ∀ y ∈ post, y.2.wq = [] := fun y hy => hother y (List.mem_append_right _ hy)
  unfold drainLine
  rw [ht, List.foldl_append, List.foldl_cons, foldl_eq_self _ s pre (fun y hy => by rw [hpre y hy]; rfl),
    foldl_eq_self _ _ post (fun y hy => by rw [hpost y hy]; rfl), hX, List.foldl_cons, List.foldl_nil, if_pos rfl]
  exact updTile_sameBytes _ _ _

theorem drainLine_queueEntry {s m : State} (hs : s.still) (tile : Nat) (e : WqEnt) (hm : SameStore (queueEntry s tile e) m) :
    SameBytes (applyEnt tile m e) (drainLine m e.line) := by
  obtain ⟨pre, post, htiles, hsub⟩ := FMap.setAt_split s.tiles tile { s.tileAt tile with wq := (s.tileAt tile).wq ++ [e] }
  refine drainLine_of_one (hm.tiles.trans htiles) ?_ (fun y hy => hs y (hsub y hy))
  show (s.tileAt tile).wq ++ [e] = [e]
  rw [hs.wq_tileAt]; rfl

/-- An entry of one word applied where the line is not poisoned. -/
theorem applyEnt_one (tile : Nat) (s : State) (e : WqEnt) (off : Nat) (v : DWord) (he : e.parts = [(off, v)])
    (hp : s.isPoisoned (locOf s (e.line * lineBytes + off)) = false) :
    ∃ u, SameStore s u ∧ applyEnt tile s e = u.writeN (locOf s (e.line * lineBytes + off)) (tyW e.ty / 8)
      (atomOp e.op e.ty (s.readN (locOf s (e.line * lineBytes + off)) (tyW e.ty / 8)) v.toNat) := by
  have h : SameStore s (touchFrame (markDirty (markLine s none e.line) (partOfTile s tile) (e.line * lineBytes)) (e.line * lineBytes)) :=
    ((markLine_sameStore _ _ _).trans (markDirty_sameStore _ _ _)).trans (touchFrame_sameStore _ _)
  refine ⟨_, h, ?_⟩
  simp only [applyEnt, he, List.foldl_cons, List.foldl_nil, h.locOf, h.isPoisoned, h.readN, hp, Bool.false_eq_true, if_false]

/-- The next read of a word whose reduction waits in a queue, where no other waits, finds the operation's value. -/
theorem readPa_queueEntry {s : State} (hs : s.still) (tile a : Nat) (e : WqEnt) (off : Nat) (v : DWord) (he : e.parts = [(off, v)])
    (ha : e.line * lineBytes + off = a) (hline : e.line = lineOf a) (hp : s.isPoisoned (locOf s a) = false) :
    (readPa (queueEntry s tile e) a (tyW e.ty / 8)).2 =
      atomOp e.op e.ty (s.readN (locOf s a) (tyW e.ty / 8)) v.toNat % 2 ^ tyW e.ty := by
  have h1 : SameStore (queueEntry s tile e) (touchFrame (queueEntry s tile e) a) := touchFrame_sameStore _ _
  have h : SameBytes s (touchFrame (queueEntry s tile e) a) := (updTile_sameBytes s tile _).trans h1.toSameBytes
  subst ha
  obtain ⟨u, hu, happly⟩ := applyEnt_one tile _ e off v he ((h.isPoisoned _).trans (by rw [h.locOf]; exact hp))
  have hdrain := drainLine_queueEntry hs tile e h1
  have hend := hdrain.locOf (e.line * lineBytes + off)
  rw [happly, h.locOf, h.readN] at hdrain hend
  show (drainLine (touchFrame _ _) (lineOf _)).readN (locOf (drainLine (touchFrame _ _) (lineOf _)) _) _ = _
  rw [← hline, hend, writeN_locOf, hu.locOf, h.locOf, hdrain.readN, State.readN_writeN, pow_bytes_tyW]

/-- The entry that a reduction makes where its home has none (14 R320). -/
def newEntry (s : State) (a op : Nat) (t : Ty) (v : Nat) : WqEnt :=
  { line := lineOf a, op, ty := t, since := s.clock, parts := [(a % lineBytes, BitVec.ofNat 64 v)] }

theorem mergeRed_of_still {s : State} (hs : s.still) (h a op : Nat) (t : Ty) (v : Nat) :
    mergeRed s h a op t v = queueEntry (touchFrame s a) h (newEntry (touchFrame s a) a op t v) := by
  have hw := ((touchFrame_sameStore s a).still hs).wq_tileAt h
  simp only [mergeRed, hw, List.find?_nil, newEntry, queueEntry]

/-- A reduction merged at its home is seen by the next read of its word (14 R321). -/
theorem readPa_mergeRed {s : State} (hs : s.still) (h a op : Nat) (t : Ty) (v : Nat) (hp : s.isPoisoned (locOf s a) = false) :
    (readPa (mergeRed s h a op t v) a (tyW t / 8)).2 =
      atomOp op t (s.readN (locOf s a) (tyW t / 8)) (v % 2 ^ 64) % 2 ^ tyW t := by
  have h0 : SameStore s (touchFrame s a) := touchFrame_sameStore s a
  have hr := readPa_queueEntry (h0.still hs) h a (newEntry (touchFrame s a) a op t v) (a % lineBytes) (BitVec.ofNat 64 v) rfl
    (Nat.div_add_mod' a lineBytes) rfl (by rw [h0.locOf, h0.isPoisoned]; exact hp)
  rw [h0.locOf, h0.readN, BitVec.toNat_ofNat] at hr
  rw [mergeRed_of_still hs]
  exact hr

end Sys2Proof.Machine
end

section
/-!
PROOF of AtomicResults (07 R174 to R177, R180) and ReductionResults (07 R163, R175; 14 R321).
-/

namespace Sys2Proof.Machine

section
variable {c : Ctl} {o : OpT} {op : Nat} {s s1 s2 : State} {x : Ctx} {ps : List LaneAcc} {bad : List (Nat × Nat × WFault)}

/-- What a returning atomic does when its accesses may be performed. -/
theorem atomicOp_go (hr : ready c (atomicMeta o op) s = some (x, s1)) (hord : ordStop s1 x (isRel o.ord.toNat) o.sc.toNat = none)
    (hp : prepare x s1 .atomic false false (tyW o.ty / 8) (x.act.map (fun j => (j, eaT x.G j o))) = .go s2 ps bad) :
    let r := atomLanes x.g (s1.partNo x.G) x.G.tile op o.ty (fun j => srcLane x.G j o.ty (tyW o.ty) o.b)
      (fun j => srcLane x.G j o.ty (tyW o.ty) o.c) s2 ps
    atomicOp c o op s = .next (settle x c s1 (.done (r.1.updGroup x.g (fun G => putDst x G o.dst o.ty.is64
      (fun j => (r.2.lookD (0, false) j).1) (fun j => (r.2.lookD (0, false) j).2) none)) [])) := by
  unfold atomicOp
  refine (issueWord_ready hr _).trans ?_
  simp only [hord, hp]

/-- What a reduction does when its accesses may be performed, those of faulting lanes left to the side log. -/
theorem redOp_go {s3 : State} (hr : ready c { (({} : Meta).tSrcs o false) with chnOk := false } s = some (x, s1))
    (hord : ordStop s1 x (isRel o.ord.toNat) o.sc.toNat = none)
    (hp : prepare x s1 .atomic true false (tyW o.ty / 8) (x.act.map (fun j => (j, eaT x.G j o))) = .go s2 ps bad)
    (hlog : retireSlog s2 x false (tyW o.ty / 8) 2 (some op) o.ty o.ord.toNat o.sc.toNat bad
      (fun j => srcLane x.G j o.ty (tyW o.ty) o.b) (fun _ => false) = some s3) :
    redOp c o op s = .next (settle x c s1 (.done (ps.foldl (redLane x.g (s1.partNo x.G) op o.ty
      (fun j => srcLane x.G j o.ty (tyW o.ty) o.b)) s3) [])) := by
  unfold redOp
  refine (issueWord_ready hr _).trans ?_
  simp only [hord, hp, hlog]

end

theorem exec_of_atomicRule {i : Instr} {c : Ctl} {o : OpT} {op : Nat} (h : atomicRule i = some (c, o, op)) (s : State) :
    exec i s = atomicOp c o op s := by
  cases i <;> simp only [atomicRule, Option.some.injEq, Prod.mk.injEq, reduceCtorEq] at h
  all_goals
    obtain ⟨rfl, rfl, rfl⟩ := h
    rfl

theorem exec_of_redRule {i : Instr} {c : Ctl} {o : OpT} {op : Nat} (h : redRule i = some (c, o, op)) (s : State) :
    exec i s = redOp c o op s := by
  cases i <;> simp only [redRule, Option.some.injEq, Prod.mk.injEq, reduceCtorEq] at h
  all_goals
    obtain ⟨rfl, rfl, rfl⟩ := h
    rfl

/-- Settles O23: a word's lanes, one lane's word, and what each operation makes of the old value. -/
theorem atomicResults : Obligations.AtomicResults := by
  unfold Obligations.AtomicResults
  refine ⟨?_, ?_, ?_⟩
  · intro i c o op s s1 s2 x ps bad hrule hr hord hp r hgroups
    refine ⟨_, (exec_of_atomicRule hrule s).trans (atomicOp_go hr hord hp), ?_⟩
    exact done_wrote_dst hr hgroups o.dst o.ty.is64 (fun j => (r.2.lookD (0, false) j).1) (fun j => (r.2.lookD (0, false) j).2)
  · intro s g p t f pl l hpl hl
    obtain ⟨u, hu, h⟩ := atomicPlace_plain s g p t f pl l hpl hl
    simp only [h]
    refine ⟨trivial, fun hpsn => ?_, fun hclean => ⟨fun k hk => ?_, fun loc hloc => ?_⟩⟩
    · rw [if_pos hpsn]
      exact hu.mem
    · rw [hclean, if_neg Bool.false_ne_true]
      exact State.toNat_byteAt_writeN _ _ _ _ _ hk
    · rw [hclean, if_neg Bool.false_ne_true, State.byteAt_writeN_of_outside _ _ _ _ _ hloc, hu.byteAt]
  · exact fun t old b e => ⟨rfl, rfl, rfl, rfl, rfl, rfl, rfl, rfl, rfl⟩

/-- Settles O24: a reduction passes, and one merged at its home is seen by the next read of its word. -/
theorem reductionResults : Obligations.ReductionResults := by
  unfold Obligations.ReductionResults
  constructor
  · intro i c o op s s1 s2 s3 x ps bad hrule hr hord hp hlog s4 hgroups
    exact ⟨_, (exec_of_redRule hrule s).trans (redOp_go hr hord hp hlog), done_passed hr hgroups⟩
  · intro s g p op a v h t ha hmap hhome hstill hpsn
    have hred : redPlace s g p op t v (.pa a false) = mergeRed s h a op t v := by
      simp only [redPlace, hmap, hhome, Bool.or_false, decide_eq_true_eq, if_neg (Nat.not_le.2 ha)]
    rw [hred]
    exact readPa_mergeRed hstill h a op t v hpsn

end Sys2Proof.Machine
end

section
/-!
PROOF of NeighbourStores (07 R169): what an STN of the group does by its checks, and what one lane's neighbour store writes.
-/

namespace Sys2Proof.Machine

/-! ### The word -/

/-- The first of rising numbers of which f holds. -/
theorem find?_eq_of_first {l : List Nat} {f : Nat → Bool} {i : Nat} (hl : l.Pairwise (· < ·)) (hi : i ∈ l) (hf : f i = true)
    (hlow : ∀ j ∈ l, j < i → f j = false) : l.find? f = some i := by
  induction l with
  | nil => cases hi
  | cons a l ih =>
    obtain ⟨ha, hl⟩ := List.pairwise_cons.1 hl
    rcases List.mem_cons.1 hi with rfl | hi
    · exact List.find?_cons_of_pos hf
    · rw [List.find?_cons_of_neg (by rw [hlow a List.mem_cons_self (ha i hi)]; decide)]
      exact ih hl hi (fun j hj => hlow j (List.mem_cons_of_mem _ hj))

/-- Bytes of an STN's datum. -/
def stnBytes (e : BitVec 1) : Nat := if e = 0 then 4 else 8

def stnNeed (e : BitVec 1) (o : OpM) : Meta := { ((({} : Meta).addr true .tile o).data o.dst (stnBytes e == 8)) with chnOk := false }

/-- A lane's offset in the neighbour's range. -/
def stnOff (x : Ctx) (o : OpM) (i : Nat) : Nat := eaOf x.G i .tile o % 2 ^ 32

/-- Is a lane's offset misaligned, or past the range? -/
def stnBad (x : Ctx) (L : Launch) (e : BitVec 1) (o : OpM) (i : Nat) : Bool :=
  stnOff x o i % stnBytes e != 0 || decide (L.rc.tmb < stnOff x o i + stnBytes e)

theorem stnBad_eq_false {x : Ctx} {L : Launch} {e : BitVec 1} {o : OpM} {i : Nat} :
    stnBad x L e o i = false ↔ stnOff x o i % stnBytes e = 0 ∧ stnOff x o i + stnBytes e ≤ L.rc.tmb := by
  simp [stnBad]

theorem stnBad_eq_true {x : Ctx} {L : Launch} {e : BitVec 1} {o : OpM} {i : Nat} :
    stnBad x L e o i = true ↔ stnOff x o i % stnBytes e ≠ 0 ∨ L.rc.tmb < stnOff x o i + stnBytes e := by
  simp [stnBad]

section
variable {c : Ctl} {d : BitVec 2} {e : BitVec 1} {o : OpM} {s s1 : State} {x : Ctx} {L : Launch} {nb : Nat}
variable (hr : ready c (stnNeed e o) s = some (x, s1)) (hL : s1.launchOf x.G = some L)
include hr hL

theorem exec_stn_beyond_grid (hnb : neighbour x.G.tile d.toNat = none) :
    exec (.stn c d e o) s = .next (trapIssue s1 x { code := 0x07, addr := eaOf x.G x.low .tile o }) := by
  show execStn c d e o s = _
  unfold execStn
  refine (issueWord_ready hr _).trans ?_
  simp only [hL, hnb]
  rfl

theorem exec_stn_bad_offset (hnb : neighbour x.G.tile d.toNat = some nb) {i : Nat} (hbad : x.act.find? (stnBad x L e o) = some i) :
    exec (.stn c d e o) s = .next (trapIssue s1 x
      { code := if stnOff x o i % stnBytes e ≠ 0 then 0x06 else 0x05, addr := eaOf x.G i .tile o }) := by
  show execStn c d e o s = _
  unfold execStn
  refine (issueWord_ready hr _).trans ?_
  unfold stnBad stnOff stnBytes at hbad
  simp only [hL, hnb, hbad, settle, bne_iff_ne]
  rfl

/-- An STN that its checks let go on writes lane after lane. -/
theorem exec_stn_go {s2 : State} (hnb : neighbour x.G.tile d.toNat = some nb) (hok : x.act.find? (stnBad x L e o) = none)
    (hord : ordStop s1 x (o.ord == 2) o.sc.toNat = none)
    (hown : ownPending s1 x.g x.G true (stnBytes e) (x.act.map (fun i => ([i], eaOf x.G i .tile o))) = [])
    (hhold : holdAll s1 x.g x.G true false (x.act.filterMap (fun i => (stnPa x L (s1.partOf x.G) nb (i, stnOff x o i)).map
      (fun pa => ⟨i, eaOf x.G i .tile o, .pa pa false⟩))) = (s2, none)) :
    exec (.stn c d e o) s = .next (settle x c s1 (.done (x.act.foldl (fun s i =>
      stnLane x L (stnBytes e) nb (storeData x.G o.dst (stnBytes e)) s (i, stnOff x o i)) s2) [])) := by
  show execStn c d e o s = _
  unfold execStn
  refine (issueWord_ready hr _).trans ?_
  unfold stnBad stnOff stnBytes at hok
  unfold stnBytes at hown
  unfold stnOff at hhold
  simp only [hL, hnb, hok, hord, hown, hhold, List.isEmpty_nil, Bool.not_true, Bool.false_eq_true, if_false]
  rfl

end

/-! ### One lane -/

section
variable {x : Ctx} {L : Launch} {s : State} {P : Part} {n nb i off : Nat} (val : Nat → Nat × Bool)
variable (hL : s.launchOf x.G = some L) (hP : s.parts.look L.part = some P)
include hL hP

theorem partOf_of_launch : s.partOf x.G = some P := by
  simp only [State.partOf, State.partNo, hL, hP]

/-- A neighbour of no or another partition: the packet is dropped, with its record (18 R383). -/
theorem stnLane_elsewhere (hnb : P.tiles.contains nb = false) :
    stnLane x L n nb val s (i, off) =
      noteDrop s x.G.tile nb P.tag 3 (2 ^ 45 + nb * 2 ^ 24 + off % 2 ^ 24 / 64 * 64) [x.G.launch] := by
  simp only [stnLane, partOf_of_launch hL hP, Option.any_some, hnb, Bool.not_false, if_true]

/-- The unit that receives: the first of the level with the sender's index on that tile (07 R169; log 27). -/
theorem stnPa_in_partition {lv : Nat} (hlv : L.rc.lowest 3 = some lv) (hnb : P.tiles.contains nb = true) :
    stnPa x L (s.partOf x.G) nb (i, off) =
      (L.tm.find? (fun q => q.tile == nb && L.rc.idx lv (q.unit * L.rc.lanesOf lv) == L.rc.idx lv (x.G.lin + i))).map
        (fun q => tmPa nb (q.base + off)) := by
  simp only [stnPa, partOf_of_launch hL hP, Option.any_some, hnb, Bool.not_true, Bool.false_eq_true, if_false, hlv]

/-- A tile of the partition without the counterpart. -/
theorem stnLane_no_unit {lv : Nat} (hlv : L.rc.lowest 3 = some lv) (hnb : P.tiles.contains nb = true)
    (hq : L.tm.find? (fun q => q.tile == nb && L.rc.idx lv (q.unit * L.rc.lanesOf lv) == L.rc.idx lv (x.G.lin + i)) = none) :
    stnLane x L n nb val s (i, off) = s.updPart L.part (fun p => { p with stndrop := (p.stndrop + 1) % 2 ^ 32 }) := by
  have hpa := stnPa_in_partition (i := i) (off := off) hL hP hlv hnb
  rw [hq, partOf_of_launch hL hP] at hpa
  simp only [stnLane, partOf_of_launch hL hP, Option.any_some, hnb, Bool.not_true, Bool.false_eq_true, if_false, hpa,
    Option.map_none, hlv, Option.isNone_some]

/-- The counterpart's bytes take the datum; its poison mark, when it has one, marks the line. -/
theorem stnLane_bytes {lv : Nat} {q : Alloc} (hlv : L.rc.lowest 3 = some lv) (hnb : P.tiles.contains nb = true)
    (hq : L.tm.find? (fun q => q.tile == nb && L.rc.idx lv (q.unit * L.rc.lanesOf lv) == L.rc.idx lv (x.G.lin + i)) = some q) (l : Nat) :
    (stnLane x L n nb val s (i, off)).byteAt l =
      (writePa s (some x.g) L.part (tmPa nb (q.base + off)) n (val i).1).byteAt l := by
  have hpa := stnPa_in_partition (i := i) (off := off) hL hP hlv hnb
  rw [hq, partOf_of_launch hL hP] at hpa
  simp only [stnLane, partOf_of_launch hL hP, Option.any_some, hnb, Bool.not_true, Bool.false_eq_true, if_false, hpa,
    Option.map_some]
  split
  · rfl
  · rfl

end

theorem noteDrop_mem_groups (s : State) (src dst tag cls addr : Nat) (who : List Nat) :
    (noteDrop s src dst tag cls addr who).mem = s.mem ∧ (noteDrop s src dst tag cls addr who).groups = s.groups := by
  unfold noteDrop
  dsimp only
  split
  · rw [State.updPart_rest]
    exact ⟨rfl, rfl⟩
  · exact ⟨rfl, rfl⟩

/-- Settles O22: the word by its checks, and one lane's store by what the neighbour tile holds. -/
theorem neighbourStores : Obligations.NeighbourStores := by
  unfold Obligations.NeighbourStores
  constructor
  · intro c d e o s s1 x L n off hr hL
    refine ⟨fun hnb => exec_stn_beyond_grid hr hL hnb, fun nb hnb => ⟨?_, ?_⟩⟩
    · intro i hi hbad hlow hact
      refine exec_stn_bad_offset hr hL hnb (find?_eq_of_first hact hi (stnBad_eq_true.2 hbad) ?_)
      exact fun j hj hji => stnBad_eq_false.2 (hlow j hj hji)
    · intro s2 hok hord hown hhold s3 hgroups
      have hnone : x.act.find? (stnBad x L e o) = none :=
        List.find?_eq_none.2 (fun i hi => by rw [stnBad_eq_false.2 (hok i hi)]; decide)
      exact ⟨_, exec_stn_go hr hL hnb hnone hord hown hhold, done_passed hr hgroups⟩
  · intro x L n nb i off val s P lv _ hL hP hlv hstill
    refine ⟨fun hnb => ?_, fun hnb => ⟨stnLane_no_unit val hL hP hlv hnb, ?_⟩⟩
    · rw [stnLane_elsewhere val hL hP hnb]
      exact noteDrop_mem_groups _ _ _ _ _ _ _
    · intro q hq hspace l
      have hb := stnLane_bytes (n := n) (off := off) val hL hP hlv hnb hq
      have hspace' : spaceOf (tmPa nb (q.base + off)) < 2 := by omega
      refine ⟨fun k hk => ?_, fun loc hloc => ?_⟩
      · rw [hb]
        exact byteAt_writePa_inside s _ _ _ _ _ hspace' (hstill.quiet _) k hk
      · rw [hb]
        exact byteAt_writePa_outside s _ _ _ _ _ hspace' (hstill.quiet _) loc hloc

end Sys2Proof.Machine
end

section
/-!
PROOF of PassingAndMapsWords (07 R163, R167, R171 to R173; 12 R282; 14 R322).
-/

namespace Sys2Proof.Machine

/-! ### Fences, prefetches, hints -/

section
variable {c : Ctl} {o : OpM} {s s1 : State} {x : Ctx}

theorem fenceAcq_go (hr : ready c { chnOk := false } s = some (x, s1)) (hred : slgReds s1 x.g x.G x.act = false) :
    execFenceAcq c o s = .next (settle x c s1 (.done s1 [])) := by
  unfold execFenceAcq
  refine (issueWord_ready hr _).trans ?_
  simp only [hred, Bool.false_eq_true, if_false]

theorem fenceWait_go (hr : ready c { chnOk := false } s = some (x, s1))
    (hstop : relStop s1 x x.act (decide (4 ≤ o.sc.toNat)) = none) :
    fenceWait c o s = .next (settle x c s1 (.done s1 [])) := by
  unfold fenceWait
  refine (issueWord_ready hr _).trans ?_
  simp only [hstop]

end

/-- A word of the table passes once what it waits for has come. -/
theorem exec_of_passRule {i : Instr} {c : Ctl} {m : Meta} {may : State → Ctx → Bool} {s s1 : State} {x : Ctx}
    (h : passRule i = some (c, m, may)) (hr : ready c m s = some (x, s1)) (hmay : may s1 x = true) :
    exec i s = .next (settle x c s1 (.done s1 [])) := by
  cases i <;> simp only [passRule, Option.some.injEq, Prod.mk.injEq, reduceCtorEq] at h
  case fenceAcq c o =>
    obtain ⟨rfl, rfl, rfl⟩ := h
    exact fenceAcq_go (o := o) hr (by simpa using hmay)
  case fenceRel c o | fenceFull c o =>
    obtain ⟨rfl, rfl, rfl⟩ := h
    exact fenceWait_go hr (by simpa using hmay)
  case prf c o =>
    obtain ⟨rfl, rfl, rfl⟩ := h
    show execPrf c o s = _
    unfold execPrf
    exact issueWord_ready hr _
  case rgn c o =>
    obtain ⟨rfl, rfl, rfl⟩ := h
    show execRgn c o s = _
    unfold execRgn
    exact issueWord_ready hr _

/-! ### SFLUSH.c (12 R282) -/

theorem State.coreAt_updCore (s : State) (tile core : Nat) (f : Core → Core) :
    (s.updCore tile core f).coreAt tile core = f (s.coreAt tile core) := by
  unfold State.updCore State.coreAt
  rw [State.setCore_cores, FMap.lookD_setAt, if_pos rfl]

/-- An entry of a filtered table is one that the filter accepts. -/
theorem FMap.look_keep_some {α : Type} {m : FMap α} {f : Nat → α → Bool} {k : Nat} {a : α} (h : (m.keep f).look k = some a) :
    f k a = true := by
  induction m with
  | nil => cases h
  | cons e m ih =>
    unfold FMap.keep at h ih
    rw [List.filter_cons] at h
    split at h
    · rename_i he
      rw [FMap.look_cons] at h
      split at h
      · rename_i hk
        rw [← hk, ← Option.some.inj h]
        exact he
      · exact ih h
    · exact ih h

/-- Of a state, write-backs of dirty lines change the partitions alone, whose dirty logs may note them (17 R371). -/
theorem noteBack_rest (s : State) (ls : List (Nat × Nat)) : noteBack s ls = { s with parts := (noteBack s ls).parts } := by
  have hdirty : ∀ (t : State) (p a : Nat), markDirty t p a = { t with parts := (markDirty t p a).parts } := by
    intro t p a
    unfold markDirty
    split
    · exact State.updPart_rest _ _ _
    · rfl
  unfold noteBack
  split
  · refine List.foldlRecOn ls _ (motive := fun t : State => t = { s with parts := t.parts }) rfl (fun t ht b _ => ?_)
    rw [hdirty, ht]
  · rfl

theorem noteBack_groups (s : State) (ls : List (Nat × Nat)) : (noteBack s ls).groups = s.groups := by rw [noteBack_rest]
theorem noteBack_cores (s : State) (ls : List (Nat × Nat)) : (noteBack s ls).cores = s.cores := by rw [noteBack_rest]

theorem writeBackL1_groups (s : State) (tile core : Nat) : (writeBackL1 s tile core).groups = s.groups := noteBack_groups _ _

theorem writeBackL1_cores (s : State) (tile core : Nat) :
    (writeBackL1 s tile core).cores = (s.updCore tile core (fun c => { c with l1 := c.l1.keep (fun _ d => !d) })).cores :=
  noteBack_cores _ _

/-- The core's L1 keeps its clean lines alone. -/
theorem writeBackL1_l1 (s : State) (tile core : Nat) :
    ((writeBackL1 s tile core).coreAt tile core).l1 = (s.coreAt tile core).l1.keep (fun _ d => !d) := by
  rw [State.coreAt, writeBackL1_cores, ← State.coreAt, State.coreAt_updCore]

/-- A word's end changes the groups alone. -/
theorem settle_done_cores (x : Ctx) (c : Ctl) (s sX : State) (npc : FMap (BitVec 64)) :
    (settle x c s (.done sX npc)).cores = sX.cores := by
  show (sX.updGroup x.g _).cores = _
  unfold State.updGroup
  split <;> rfl

theorem exec_sflushC_go {c : Ctl} {o : OpE} {s s1 : State} {x : Ctx} (hr : ready c { sOnly := true, chnOk := false } s = some (x, s1)) :
    exec (.sflushC c o) s = .next (settle x c s1 (.done (writeBackL1 s1 x.G.tile x.G.core) [])) := by
  show execSflushC c o s = _
  unfold execSflushC
  exact issueWord_ready hr _

/-! ### MAPS and MAPS.un (07 R173; 14 R322) -/

/-- The entry that a map makes. -/
theorem mapsDo_entry (x : Ctx) (L : Launch) (n va len off : Nat) (pas : List (Nat × Nat)) (s : State) :
    ((mapsDo x L n va len off pas s).coreAt x.G.tile x.G.core).maps.look n =
      some ⟨x.G.launch, L.part, va, len, pas, off, storeLoc x.G.tile x.G.core (L.scrBase x.G.lin + off)⟩ := by
  unfold mapsDo
  rw [State.coreAt_updCore]
  show (FMap.setAt _ n _).look n = _
  rw [FMap.look_setAt, if_pos rfl]

/-- The launch's own entry, or none, and no live entry's range met: MAPS may have the entry. -/
def mapsFree (x : Ctx) (L : Launch) (n va len : Nat) (s : State) : Bool :=
  ((s.coreAt x.G.tile x.G.core).maps.look n).all (fun e => e.launch == x.G.launch) &&
    !(s.coreAt x.G.tile x.G.core).maps.any (fun e => e.2.part == L.part && decide (e.2.va < va + len) && decide (va < e.2.va + e.2.len))

section
variable {c : Ctl} {o : OpE} {s s1 : State} {x : Ctx}

/-- A MAPS that its address checks and the walks let go on maps the range where it may have the entry. -/
theorem exec_maps_go {s2 : State} {L : Launch} {pas : List (Nat × Nat)} {va off len : Nat}
    (hr : ready c { (((({} : Meta).read false o.a false).read false o.b false).write o.dst false) with chnOk := false } s = some (x, s1))
    (hL : s1.launchOf x.G = some L) (hva : src64 x o.a = va) (hoff : src64 x o.b % 2 ^ 32 = off) (hlen : src64 x o.b / 2 ^ 32 = len)
    (ha : va % 4096 = 0) (hb : off % 4096 = 0) (hc : len % 4096 = 0) (h0 : len ≠ 0) (htop : va + len ≤ 2 ^ 48)
    (hscr : off + len ≤ L.rc.scr)
    (hpas : mapsPages x L.part ((va + len - va / granBytes * granBytes + granBytes - 1) / granBytes) s1 (va / granBytes * granBytes) [] =
      (s2, .ok pas))
    (hlock : mapsFree x L (o.bits 48 45) va len s2 = true → (mapsLines va len pas).find? (s2.lockedFor (some x.g)) = none) :
    exec (.maps c o) s = .next (settle x c s1 (donePred x
      (if mapsFree x L (o.bits 48 45) va len s2 then mapsDo x L (o.bits 48 45) va len off pas s2 else s2) o.dst
      (mapsFree x L (o.bits 48 45) va len s2))) := by
  show execMaps c o s = _
  unfold execMaps
  refine (issueWord_ready hr _).trans ?_
  have hmis : (va % 4096 != 0 || off % 4096 != 0 || len % 4096 != 0 || len == 0) = false := by simp [ha, hb, hc, h0]
  simp only [hva, hoff, hlen, hL, hmis, Bool.false_eq_true, if_false, if_neg (Nat.not_lt.2 htop), if_neg (Nat.not_lt.2 hscr), hpas]
  unfold mapsFree at hlock ⊢
  -- another launch's entry, or a range met, answers false; else the range is mapped
  generalize hcl : List.any (s2.coreAt x.G.tile x.G.core).maps _ = clash at hlock ⊢
  cases hlook : (s2.coreAt x.G.tile x.G.core).maps.look (o.bits 48 45) with
  | none =>
    rw [hlook] at hlock
    cases clash
    · simp only [Option.all_none, Bool.not_false, Bool.and_self, Bool.or_self, Bool.false_eq_true, if_false, if_true, hlock rfl]
    · simp only [Option.all_none, Bool.not_true, Bool.and_false, Bool.or_true, Bool.false_eq_true, if_false, if_true]
  | some e =>
    rw [hlook] at hlock
    cases hown : e.launch == x.G.launch
    · simp only [Option.all_some, bne, hown, Bool.not_false, Bool.false_and, Bool.true_or, Bool.false_eq_true, if_false, if_true]
    · cases clash
      · have hfree := hlock (by simp only [Option.all_some, hown, Bool.not_false, Bool.and_self])
        simp only [Option.all_some, bne, hown, Bool.not_false, Bool.not_true, Bool.and_self, Bool.or_self, Bool.false_eq_true,
          if_false, if_true, hfree]
      · simp only [Option.all_some, Bool.not_true, Bool.and_false, Bool.or_true, Bool.false_eq_true, if_false, if_true]

/-- Has the launch of the group an entry of this number on the core? -/
def mapsOwn (x : Ctx) (n : Nat) (s : State) : Bool :=
  match (s.coreAt x.G.tile x.G.core).maps.look n with | some e => e.launch == x.G.launch | none => false

theorem exec_mapsUn_go (hr : ready c { (({} : Meta).write o.dst false) with chnOk := false } s = some (x, s1)) :
    exec (.mapsUn c o) s = .next (settle x c s1 (donePred x
      (if mapsOwn x (o.bits 48 45) s1 then unmapEntry s1 x.G.tile x.G.core (o.bits 48 45) else s1) o.dst
      (mapsOwn x (o.bits 48 45) s1))) := by
  show execMapsUn c o s = _
  unfold execMapsUn
  refine (issueWord_ready hr _).trans ?_
  unfold mapsOwn
  cases hlook : (s1.coreAt x.G.tile x.G.core).maps.look (o.bits 48 45) with
  | none => simp only [hlook, Bool.false_eq_true, if_false]
  | some e =>
    by_cases he : e.launch = x.G.launch
    · simp only [hlook, he, if_true, beq_self_eq_true]
    · simp only [hlook, he, if_false, beq_eq_false_iff_ne.2 he, Bool.false_eq_true]

end

/-- Settles O25: what passes, SFLUSH.c, and MAPS with its end. -/
theorem passingAndMapsWords : Obligations.PassingAndMapsWords := by
  unfold Obligations.PassingAndMapsWords
  refine ⟨?_, ?_, ?_, ?_⟩
  · intro i c m may s s1 x hrule hr hmay
    exact ⟨_, exec_of_passRule hrule hr hmay, done_passed hr rfl⟩
  · intro c o s s1 x hr
    refine ⟨_, exec_sflushC_go hr, done_passed hr (writeBackL1_groups _ _ _), fun l d hd => ?_⟩
    rw [State.coreAt, settle_done_cores, ← State.coreAt, writeBackL1_l1] at hd
    simpa using FMap.look_keep_some hd
  · intro c o s s1 s2 x L pas n va off len v0 hr hL ha hb hc h0 htop hscr hpas live free hlock s3 hgroups
    refine ⟨⟨_, exec_maps_go hr hL rfl rfl rfl ha hb hc h0 htop hscr hpas hlock, donePred_wrote hr hgroups o.dst free⟩, ?_⟩
    intro hfree
    rw [show s3 = mapsDo x L n va len off pas s2 from if_pos hfree]
    exact mapsDo_entry x L n va len off pas s2
  · intro c o s s1 x own s2 hr hgroups
    exact ⟨_, exec_mapsUn_go hr, donePred_wrote hr hgroups o.dst own⟩

end Sys2Proof.Machine
end

section
/-!
SUPPORT. Translation, the claim of a line, and a read leave the clock as it is: the time of an access counts by what holds it, not in
its own step (15 R332; 14 R312 to R317; log 77).
-/

namespace Sys2Proof.Machine

theorem foldl_clock {β : Type} {f : State → β → State} (hf : ∀ s b, (f s b).clock = s.clock) (l : List β) (s : State) :
    (l.foldl f s).clock = s.clock :=
  List.foldlRecOn l f (motive := fun t : State => t.clock = s.clock) rfl (fun t ht b _ => (hf t b).trans ht)

/-! ### Reads (14 R321) -/

@[simp] theorem State.updPart_clock (s : State) (p : Nat) (f : Part → Part) : (s.updPart p f).clock = s.clock := by
  rw [State.updPart_rest]

@[simp] theorem State.updGroup_clock (s : State) (g : Nat) (f : Group → Group) : (s.updGroup g f).clock = s.clock := by
  unfold State.updGroup
  split <;> rfl

@[simp] theorem State.updTile_clock (s : State) (k : Nat) (f : Tile → Tile) : (s.updTile k f).clock = s.clock := rfl
@[simp] theorem State.updCore_clock (s : State) (t k : Nat) (f : Core → Core) : (s.updCore t k f).clock = s.clock := rfl

@[simp] theorem touchFrame_clock (s : State) (a : Nat) : (touchFrame s a).clock = s.clock := by rw [touchFrame_rest]

@[simp] theorem markDirty_clock (s : State) (p a : Nat) : (markDirty s p a).clock = s.clock := by
  unfold markDirty
  split
  · exact State.updPart_clock _ _ _
  · rfl

@[simp] theorem State.writeN_clock (s : State) (l n v : Nat) : (s.writeN l n v).clock = s.clock := by rw [State.writeN_rest]

@[simp] theorem applyEnt_clock (tile : Nat) (s : State) (e : WqEnt) : (applyEnt tile s e).clock = s.clock := by
  unfold applyEnt
  refine (foldl_clock (fun s q => ?_) _ _).trans (by simp [markLine])
  dsimp only
  split
  · rfl
  · exact State.writeN_clock _ _ _ _

@[simp] theorem drainLine_clock (s : State) (line : Nat) : (drainLine s line).clock = s.clock := by
  refine foldl_clock (fun s t => foldl_clock (fun s e => ?_) _ _) _ _
  split
  · simp
  · rfl

@[simp] theorem readPa_clock (s : State) (a n : Nat) : (readPa s a n).1.clock = s.clock := by simp [readPa]

@[simp] theorem countRx_clock (s : State) (p a n : Nat) : (countRx s p a n).clock = s.clock := by
  unfold countRx
  split
  · exact State.updPart_clock _ _ _
  · rfl

@[simp] theorem readPlace_clock (s : State) (g tile n : Nat) (pl : Place) : (readPlace s g tile n pl).1.clock = s.clock := by
  cases pl with
  | rv o => rfl
  | loc l => rfl
  | cst o => rfl
  | pa a stb =>
    simp only [readPlace]
    split
    · unfold stableRead
      dsimp only
      split <;> simp
    · simp

/-! ### Translation (15 R327 to R332) -/

@[simp] theorem fillWalks_clock (s : State) (tile p stage root a : Nat) (seen : List (Nat × Nat)) (s2 : Nat → List (Nat × Nat)) :
    (fillWalks s tile p stage root a seen s2).clock = s.clock := by
  unfold fillWalks
  split <;> rfl

@[simp] theorem countHost_clock (s : State) (p ipa pa : Nat) (mg : Bool) : (countHost s p ipa pa mg).clock = s.clock := by
  unfold countHost
  split
  · exact State.updPart_clock _ _ _
  · rfl

@[simp] theorem s2Levels_clock (s : State) (a k tbl : Nat) (seen : List (Nat × Nat)) : (s2Levels s a k tbl seen).1.clock = s.clock := by
  induction k generalizing s tbl seen with
  | zero => rfl
  | succ k ih =>
    unfold s2Levels
    dsimp only
    repeat' split
    all_goals simp [ih]

@[simp] theorem stage2At_clock (s : State) (tile p : Nat) (P : Part) (ipa : Nat) : (stage2At s tile p P ipa).1.clock = s.clock := by
  unfold stage2At
  split
  · rfl
  · dsimp only
    split <;> simp

@[simp] theorem s1Levels_clock (s : State) (tile p : Nat) (P : Part) (va k tbl : Nat) (used : List (Nat × Nat)) :
    (s1Levels s tile p P va k tbl used).1.clock = s.clock := by
  induction k generalizing s tbl used with
  | zero => rfl
  | succ k ih =>
    unfold s1Levels
    dsimp only
    have h2 := stage2At_clock s tile p P (tbl + 8 * lvlIndex (4 - k) va)
    generalize stage2At s tile p P (tbl + 8 * lvlIndex (4 - k) va) = q at h2 ⊢
    obtain ⟨s1, r⟩ := q
    replace h2 : s1.clock = s.clock := h2
    cases r with
    | fabric pa r w rw => exact h2
    | fault r => exact h2
    | busy r w x tm =>
      dsimp only
      repeat' split
      all_goals exact h2
    | page b z pa r w x mg =>
      dsimp only
      repeat' split
      all_goals simp [ih, h2]

@[simp] theorem stage1_clock (s : State) (tile p : Nat) (P : Part) (va : Nat) : (stage1 s tile p P va).1.clock = s.clock := by
  unfold stage1
  split
  · split <;> simp
  · rfl

@[simp] theorem finishWalk_clock (s : State) (tile p : Nat) (P : Part) (n : Need) (priv : Bool) (va b1 z1 i1 : Nat)
    (w1 x1 so stb : Bool) (used : List (Nat × Nat)) :
    (finishWalk s tile p P n priv va b1 z1 i1 w1 x1 so stb used).1.clock = s.clock := by
  unfold finishWalk
  dsimp only
  have h2 := stage2At_clock s tile p P (i1 + (va - b1))
  generalize stage2At s tile p P (i1 + (va - b1)) = q at h2 ⊢
  obtain ⟨s1, r⟩ := q
  replace h2 : s1.clock = s.clock := h2
  split
  · rfl
  · cases r <;> dsimp only <;> repeat' split
    all_goals simp only [State.updPart_clock, State.updTile_clock, h2]

@[simp] theorem translate_clock (s : State) (tile p : Nat) (n : Need) (priv : Bool) (va : Nat) :
    (translate s tile p n priv va).1.clock = s.clock := by
  unfold translate
  split
  · rfl
  · rename_i P _
    split
    · rfl
    · have h1 := stage1_clock s tile p P va
      generalize stage1 s tile p P va = q at h1 ⊢
      obtain ⟨s1, r⟩ := q
      cases r with
      | fault f => exact h1
      | busy i => exact h1
      | page b z i w x so stb used => exact (finishWalk_clock _ _ _ _ _ _ _ _ _ _ _ _ _ _ _).trans h1

@[simp] theorem coreTranslate_clock (s : State) (tile core p : Nat) (n : Need) (priv : Bool) (va : Nat) :
    (coreTranslate s tile core p n priv va).1.clock = s.clock := by
  unfold coreTranslate
  split
  · rfl
  · have h1 := translate_clock s tile p n priv va
    generalize translate s tile p n priv va = q at h1 ⊢
    obtain ⟨s1, r⟩ := q
    cases r with
    | ok e pa =>
      dsimp only
      split
      · exact h1
      · exact h1
    | trap c => exact h1
    | fault f => exact h1
    | busy i => exact h1

theorem resolveLane_clock (G : Group) (L : Launch) (p : Nat) (how : How) (n : Nat) (r : Prep) (a : Nat × Nat) :
    (resolveLane G L p how n r a).s.clock = r.s.clock := by
  unfold resolveLane
  split
  · rfl
  · split
    case h_6 va _ =>
      split
      · rfl
      · have h1 := coreTranslate_clock r.s G.tile G.core p how.need G.priv va
        generalize coreTranslate r.s G.tile G.core p how.need G.priv va = q at h1 ⊢
        obtain ⟨s1, q⟩ := q
        cases q with
        | ok e pa =>
          dsimp only
          split
          · exact h1
          · exact h1
        | trap c => exact h1
        | fault f => exact h1
        | busy i => exact h1
    all_goals rfl

theorem resolveAll_clock (s : State) (G : Group) (how : How) (n : Nat) (accs : List (Nat × Nat)) :
    (resolveAll s G how n accs).s.clock = s.clock := by
  unfold resolveAll
  split
  · rfl
  · exact List.foldlRecOn accs _ (motive := fun r : Prep => r.s.clock = s.clock) rfl
      (fun r hr a _ => (resolveLane_clock _ _ _ _ _ r a).trans hr)

/-! ### The claim of a line (14 R312 to R317) -/

@[simp] theorem noteBack_clock (s : State) (ls : List (Nat × Nat)) : (noteBack s ls).clock = s.clock := by rw [noteBack_rest]

@[simp] theorem dropLines_clock (s : State) (on sel : Nat → Bool) : (dropLines s on sel).clock = s.clock := noteBack_clock _ _
@[simp] theorem cleanLines_clock (s : State) (on sel : Nat → Bool) : (cleanLines s on sel).clock = s.clock := noteBack_clock _ _

@[simp] theorem updDir_clock (s : State) (line : Nat) (f : DirEnt → DirEnt) : (updDir s line f).clock = s.clock := by
  unfold updDir
  dsimp only
  split <;> rfl

@[simp] theorem evictL2_clock (s : State) (line : Nat) : (evictL2 s line).clock = s.clock := by
  unfold evictL2
  dsimp only
  repeat' split
  all_goals simp

@[simp] theorem fillL2_clock (s : State) (home line : Nat) : (fillL2 s home line).clock = s.clock := by
  unfold fillL2
  dsimp only
  repeat' split
  all_goals simp

@[simp] theorem evictRdc_clock (s : State) (tile line : Nat) : (evictRdc s tile line).clock = s.clock := by simp [evictRdc]

@[simp] theorem fillRdc_clock (s : State) (tile line : Nat) (dirty : Bool) : (fillRdc s tile line dirty).clock = s.clock := by
  unfold fillRdc
  dsimp only
  repeat' split
  all_goals simp

@[simp] theorem evictL1_clock (s : State) (tile core line : Nat) : (evictL1 s tile core line).clock = s.clock := by
  unfold evictL1
  dsimp only
  repeat' split
  all_goals simp

@[simp] theorem fillL1_clock (s : State) (tile core line : Nat) (dirty : Bool) : (fillL1 s tile core line dirty).clock = s.clock := by
  unfold fillL1
  dsimp only
  repeat' split
  all_goals simp

@[simp] theorem fillLine_clock (s : State) (tile core pa : Nat) (write rmw : Bool) : (fillLine s tile core pa write rmw).clock = s.clock := by
  unfold fillLine
  dsimp only
  repeat' split
  all_goals simp

@[simp] theorem dirClaim_clock (s : State) (tile core pa : Nat) (write rmw : Bool) : (dirClaim s tile core pa write rmw).1.clock = s.clock := by
  unfold dirClaim
  dsimp only
  repeat' split
  all_goals simp

@[simp] theorem classClaim_clock (s : State) (tile core pa : Nat) (write rmw : Bool) :
    (classClaim s tile core pa write rmw).1.clock = s.clock := by
  unfold classClaim
  dsimp only
  repeat' split
  all_goals simp

@[simp] theorem gateHold_clock (s : State) (pa : Nat) : (gateHold s pa).1.clock = s.clock := by
  unfold gateHold
  dsimp only
  repeat' split
  all_goals rfl

@[simp] theorem State.queueUp_clock (s : State) (me : Asker) (b : Block) : (s.queueUp me b).clock = s.clock := by
  unfold State.queueUp
  split <;> rfl

@[simp] theorem claim_clock (s : State) (me : Asker) (tile core pa : Nat) (write rmw : Bool) :
    (claim s me tile core pa write rmw).1.clock = s.clock := by
  unfold claim
  have hg := gateHold_clock s pa
  have hc := classClaim_clock (gateHold s pa).1 tile core pa write rmw
  repeat' split
  all_goals simp_all [State.served]

theorem holdAll_clock (s : State) (g : Nat) (G : Group) (write rmw : Bool) (ps : List LaneAcc) :
    (holdAll s g G write rmw ps).1.clock = s.clock := by
  refine List.foldlRecOn ps _ (motive := fun r : State × Option Block => r.1.clock = s.clock) rfl (fun r hr a _ => ?_)
  repeat' split
  all_goals simp [hr]

theorem countReqs_clock (s : State) (p : Nat) (req : List (Nat × Nat × Bool)) : (countReqs s p req).clock = s.clock := by
  refine List.foldlRecOn req _ (motive := fun r : State × List Nat => r.1.clock = s.clock) rfl (fun r hr q _ => ?_)
  split
  · exact hr
  · exact (countHost_clock _ _ _ _ _).trans hr

/-- An instruction's accesses that may be performed stand at the time at which it issued. -/
theorem prepare_clock {x : Ctx} {s s2 : State} {how : How} {posted whole : Bool} {n : Nat} {accs : List (Nat × Nat)}
    {ps : List LaneAcc} {bad : List (Nat × Nat × WFault)} (h : prepare x s how posted whole n accs = .go s2 ps bad) :
    s2.clock = s.clock := by
  have hr := resolveAll_clock s x.G how n accs
  have hh := holdAll_clock (resolveAll s x.G how n accs).s x.g x.G how.need.w (how == .atomic) (resolveAll s x.G how n accs).ok
  unfold prepare at h
  dsimp only at h
  grind [countReqs_clock]

end Sys2Proof.Machine
end

section
/-!
PROOF of WaitWords (07 R177, R178; 10 R229, R230; 12 R271): words whose active lanes block, and what a release and a report do.
-/

namespace Sys2Proof.Machine

/-! ### Lanes that block (01 R46) -/

theorem Seen.scalars {c : Ctl} {s s1 : State} {x : Ctx} {G0 : Group} (h : Seen c s x s1 G0) : x.G.s = G0.s := by
  rw [h.group]
  cases hr : G0.region with
  | none => rw [countRegion_none _ (by exact hr)]; rfl
  | some r => rw [countRegion_some _ r (by exact hr)]; rfl

theorem LaneRegsStay.of_begun {l k l' : Lane} (hk : LaneRegsStay (begun l) k) (h' : LaneRegsStay k l') : LaneRegsStay l l' := by
  obtain ⟨b1, b2, b3, b4, b5⟩ := begun_regs l
  obtain ⟨k1, k2, k3, k4, k5⟩ := hk
  obtain ⟨h1, h2, h3, h4, h5⟩ := h'
  exact ⟨h1.trans (k1.trans b1), h2.trans (k2.trans b2), h3.trans (k3.trans b3), h4.trans (k4.trans b4), h5.trans (k5.trans b5)⟩

theorem LaneRegsStay.retired (l : Lane) (pc : BitVec 64) (chn : Bool) : LaneRegsStay l (retired pc chn l) := by
  obtain ⟨h1, h2, h3, h4, h5, -⟩ := retired_regs l pc chn
  exact ⟨h1, h2, h3, h4, h5⟩

theorem retired_block (l : Lane) (pc : BitVec 64) (chn : Bool) : (Machine.retired pc chn l).block = l.block := by rw [retired_stays]

theorem retired_pc (l : Lane) (pc : BitVec 64) (chn : Bool) : (Machine.retired pc chn l).pc = pc := by rw [retired_stays]

/-- A word that blocks its active lanes with b, whatever shifts in the latches of the others: `G1` is the group as it leaves it. -/
theorem done_waits {c : Ctl} {m : Meta} {s s1 sX : State} {x : Ctx} {b : Block} {G1 : Group} (h : ready c m s = some (x, s1))
    (hX : sX.groups = s1.groups) (hclk : sX.clock = s.clock) (hsame : Same x.G G1) (hs : G1.s = x.G.s)
    (hl : ∀ i, ∃ f : Lane → Lane, (∀ l, Shifted l (f l)) ∧ G1.lane? i = (x.G.lane? i).map (fun l =>
      if x.act.contains i then { l with block := b } else if x.iss.contains i then f l else l))
    (npc : FMap (BitVec 64)) (pcs : Nat → BitVec 64) (hact : ∀ i ∈ x.act, npc.lookD (x.u.pc + 12) i = pcs i)
    (hidle : ∀ i, i ∉ x.act → npc.lookD (x.u.pc + 12) i = x.u.pc + 12) :
    Waits c x s sX (settle x c s1 (.done (sX.setGroup x.g G1) npc)) b pcs := by
  obtain ⟨G0, hseen⟩ := ready_seen h
  rw [settle_done npc (State.look_setGroup_self _ _ _)]
  set G := hints (G1.updLanes x.iss (fun i l => retired (npc.lookD (x.u.pc + 12) i) c.chn l)) (sX.setGroup x.g G1).clock c with hG
  refine ⟨G0, G, ⟨hseen.before, State.look_setGroup_self _ _ _, rfl, fun g hg => ?_⟩, ?_, hs.trans hseen.scalars, ?_⟩
  · show ((sX.setGroup x.g G1).setGroup x.g G).groups.look g = s.groups.look g
    rw [State.look_setGroup, if_neg hg, State.look_setGroup, if_neg hg, hX, hseen.look, if_neg hg]
  · rw [← hclk]
    exact hints_taken hseen (hsame.trans (Same.updLanes _ _ _)) sX.clock
  · intro i l hl0
    obtain ⟨f, hf, h1⟩ := hl i
    have hlane : G.lane? i = some (if i ∈ x.iss then retired (npc.lookD (x.u.pc + 12) i) c.chn
        (if i ∈ x.act then { begun l with block := b } else f (begun l)) else l) := by
      rw [hG, hints_lane?, Group.lane?_updLanes, h1, hseen.lane_group, hl0]
      by_cases hi : i ∈ x.iss
      · by_cases ha : i ∈ x.act <;> simp [hi, ha]
      · have ha : i ∉ x.act := fun ha => hi (hseen.act_sub ha)
        simp [hi, ha]
    refine ⟨_, hlane, ?_, fun hi => if_neg hi, fun hi ha => ?_, fun ha => ?_⟩
    · by_cases hi : i ∈ x.iss
      · rw [if_pos hi]
        refine LaneRegsStay.of_begun ?_ (LaneRegsStay.retired _ _ _)
        split
        · exact ⟨rfl, rfl, rfl, rfl, rfl⟩
        · exact (hf (begun l)).regs.2
      · rw [if_neg hi]
        exact ⟨rfl, rfl, rfl, rfl, rfl⟩
    · rw [if_pos hi, retired_pc, hidle i ha]
    · rw [if_pos (hseen.act_sub ha), if_pos ha, retired_pc, retired_block, hact i ha]
      exact ⟨rfl, rfl⟩

/-! ### WAITA (07 R178) -/

section
variable {c : Ctl} {s s1 sX : State} {x : Ctx}

/-- Active lanes blocked with their results still to come. -/
theorem blockAct_waits {m : Meta} (h : ready c m s = some (x, s1)) (hX : sX.groups = s1.groups) (hclk : sX.clock = s.clock)
    (d : Dst) (b : Block) : Waits c x s sX (settle x c s1 (blockAct x sX d b)) b x.next := by
  unfold blockAct
  rw [State.updGroup_of_look (ready_look h hX)]
  refine done_waits h hX hclk ((Same.shiftLanes _ _ _ _).trans (Same.updLanes _ _ _)) rfl (fun i => ?_) [] _ (fun _ _ => rfl)
    (fun _ _ => rfl)
  obtain ⟨f, hf, hl⟩ := shiftLanes_lane? x.G (idleOf x) d false i
  refine ⟨f, hf, ?_⟩
  rw [Group.lane?_updLanes, hl, Option.map_map]
  congr 1
  funext l
  by_cases ha : i ∈ x.act <;> by_cases hi : i ∈ x.iss <;> simp [idleOf, ha, hi]

def waitaNeed (o : OpT) : Meta :=
  { (((({} : Meta).read false o.base false).read false o.c false).write o.dst false) with chnOk := false }

/-- The word as a WAITA tests it: at its home, whose value no tile's copy stands for. -/
def waitaRead (x : Ctx) (o : OpT) (s : State) (a : LaneAcc) : State × Nat × Bool :=
  readPlace s x.g x.G.tile (tyW o.ty / 8) (match a.place with | .pa q _ => .pa q false | q => q)

/-- Has the word reached the threshold? -/
def waitaMet (x : Ctx) (o : OpT) (v : Nat) : Bool :=
  decide (valOf o.ty.signed (tyW o.ty) (srcScalar x o.ty (tyW o.ty) o.c) ≤ valOf o.ty.signed (tyW o.ty) v)

section
variable {o : OpT} {s2 : State} {a : LaneAcc} {bad : List (Nat × Nat × WFault)}
variable (hr : ready c (waitaNeed o) s = some (x, s1))
variable (hp : prepare x s1 .waita false true (tyW o.ty / 8) [(x.low, eaT x.G x.low o)] = .go s2 [a] bad)
include hr hp

theorem exec_waita_done (hq : waitaMet x o (waitaRead x o s2 a).2.1 = true ∨
      256 ≤ ((waitaRead x o s2 a).1.tileAt (waiterAt (waitaRead x o s2 a).1 (s1.partNo x.G) x.G.tile a.place).1).waiters.length) :
    exec (.waita c o) s = .next (settle x c s1 (donePred x (waitaRead x o s2 a).1 o.dst (waitaMet x o (waitaRead x o s2 a).2.1))) := by
  show execWaita c o s = _
  unfold execWaita
  refine (issueWord_ready hr _).trans ?_
  simp only [hp]
  by_cases hmet : waitaMet x o (waitaRead x o s2 a).2.1 = true
  · rw [hmet]
    exact congrArg _ (congrArg _ (if_pos (of_decide_eq_true hmet)))
  · have hfull := hq.resolve_left hmet
    rw [Bool.not_eq_true] at hmet
    rw [hmet]
    exact congrArg _ (congrArg _ ((if_neg (of_decide_eq_false hmet)).trans (if_pos hfull)))

theorem exec_waita_block (hmet : waitaMet x o (waitaRead x o s2 a).2.1 = false)
    (hroom : ¬ 256 ≤ ((waitaRead x o s2 a).1.tileAt (waiterAt (waitaRead x o s2 a).1 (s1.partNo x.G) x.G.tile a.place).1).waiters.length) :
    let r := waitaRead x o s2 a
    let wt := waiterAt r.1 (s1.partNo x.G) x.G.tile a.place
    exec (.waita c o) s = .next (settle x c s1 (blockAct x
      (r.1.updTile wt.1 (fun t => { t with waiters := t.waiters ++ [{ pa := wt.2, g := x.g }] })) o.dst
      (.waita wt.1 wt.2 (predDst o.dst)))) := by
  show execWaita c o s = _
  unfold execWaita
  refine (issueWord_ready hr _).trans ?_
  simp only [hp]
  exact congrArg _ (congrArg _ ((if_neg (of_decide_eq_false hmet)).trans (if_neg hroom)))

end
end

/-! ### A release (07 R177) -/

/-- A lane that a WAITA holds on a word that is released (07 R178). -/
theorem releaseWaita_lane {s : State} {g : Nat} {G : Group} {i : Nat} {l : Lane} {tile pa : Nat} {pd : BitVec 4} (sel : Nat → Bool)
    (res : Bool) (hG : s.groups.look g = some G) (hl : G.lane? i = some l) (hb : l.block = .waita tile pa pd) (hsel : sel pa = true) :
    ∃ G', (releaseWaita s g sel res).groups.look g = some G' ∧
      G'.lane? i = some { ((l.setPred pd.toNat res).shift (if res then 1 else 0) false) with block := .free } := by
  unfold releaseWaita
  rw [State.updGroup_of_look hG]
  refine ⟨_, (State.look_setGroup _ _ _ _).trans (if_pos rfl), ?_⟩
  show (G.lanes.map _)[i]? = _
  rw [List.getElem?_map, show G.lanes[i]? = some l from hl]
  simp only [Option.map_some, hb, hsel, if_true]

/-! ### WAITC (10 R229, R230) -/

/-- The errors of a class due when a lane next issues at K (12 R271). -/
def errsDue (cls : Nat) (es : List EngErr) : List EngErr := es.map (fun e => if e.cls = cls then { e with due := true } else e)

section
variable {c : Ctl} {o : OpE} {s s1 : State} {x : Ctx} (hr : ready c { chnOk := false } s = some (x, s1))
include hr

theorem exec_waitc_blocks (hn : o.bits 46 41 < x.G.counter (o.bits 48 47)) :
    exec (.waitc c o) s = .next (settle x c s1 (waitHere x s1 (.waitc (o.bits 48 47) (o.bits 46 41)))) := by
  show execWaitc c o s = _
  unfold execWaitc
  refine (issueWord_ready hr _).trans ?_
  simp only [if_pos hn]

theorem exec_waitc_no_error (hn : x.G.counter (o.bits 48 47) ≤ o.bits 46 41)
    (he : x.G.errs.find? (fun e => e.cls == o.bits 48 47) = none) :
    exec (.waitc c o) s = .next (settle x c s1 (.done s1 [])) := by
  show execWaitc c o s = _
  unfold execWaitc
  refine (issueWord_ready hr _).trans ?_
  simp only [if_neg (Nat.not_lt.2 hn), he]

theorem exec_waitc_error {e : EngErr} (hn : x.G.counter (o.bits 48 47) ≤ o.bits 46 41)
    (he : x.G.errs.find? (fun e => e.cls == o.bits 48 47) = some e) :
    exec (.waitc c o) s = .next (if x.G.priv then
      settle x c s1 (.done (s1.updGroup x.g (fun G => { G with errs := errsDue (o.bits 48 47) G.errs })) [])
      else trapIssue (s1.updGroup x.g (fun G => { G with errs := G.errs.erase e })) x e.trap) := by
  show execWaitc c o s = _
  unfold execWaitc
  refine (issueWord_ready hr _).trans ?_
  simp only [if_neg (Nat.not_lt.2 hn), he]
  cases x.G.priv <;> rfl

/-- Active lanes blocked at the word itself, which executes again. -/
theorem waitHere_waits (b : Block) : Waits c x s s1 (settle x c s1 (waitHere x s1 b)) b (fun _ => x.u.pc) := by
  obtain ⟨G0, hseen⟩ := ready_seen hr
  have hnpc : ∀ i, FMap.lookD (x.act.map (fun i => (i, x.u.pc))) (x.u.pc + 12) i =
      if i ∈ x.act then x.u.pc else x.u.pc + 12 := fun i => by
    rw [FMap.lookD, look_mapped]
    split <;> rfl
  unfold waitHere
  rw [State.updGroup_of_look (ready_look hr rfl)]
  refine done_waits hr rfl (by rw [hseen.state]; rfl) (Same.updLanes _ _ _) rfl (fun i => ?_) _ _
    (fun i hi => (hnpc i).trans (if_pos hi)) (fun i hi => (hnpc i).trans (if_neg hi))
  refine ⟨id, fun l => ⟨0, false, Or.inr rfl⟩, ?_⟩
  rw [Group.lane?_updLanes]
  simp only [id_eq, ite_self]

/-- Setting a group's engine errors before a word passes, or after, is the same. -/
theorem settle_done_errs (f : List EngErr → List EngErr) :
    settle x c s1 (.done (s1.updGroup x.g (fun G => { G with errs := f G.errs })) []) =
      (settle x c s1 (.done s1 [])).updGroup x.g (fun G => { G with errs := f x.G.errs }) := by
  have hlook : s1.groups.look x.g = some x.G := ready_look hr rfl
  rw [State.updGroup_of_look hlook, settle_done [] hlook, settle_done [] (State.look_setGroup_self _ _ _),
    State.updGroup_of_look (State.look_setGroup_self _ _ _), State.setGroup_setGroup, State.setGroup_setGroup]
  rfl

end

/-- A report of an engine error that a WAITC at S has met (12 R271). -/
theorem dueReport_engine {G : Group} {iss : List Nat} {e : EngErr} (hden : deniedOf G iss = none) (hm : G.mreset = false)
    (hfind : G.errs.find? EngErr.due = some e) (hpriv : G.priv = false) :
    dueReport G iss = some (e.trap, { G with errs := G.errs.erase e }) := by
  simp only [dueReport, hden, hm, hpriv, hfind, Option.isSome_none, Bool.false_and, Bool.false_eq_true, if_false]

/-- Settles O26: WAITA and its release, WAITC by its counter and errors, and the report that falls due. -/
theorem waitWords : Obligations.WaitWords := by
  unfold Obligations.WaitWords
  refine ⟨⟨?_, ?_⟩, ?_, fun G iss e hden hm hfind hpriv => dueReport_engine hden hm hfind hpriv⟩
  · intro c o s s1 s2 x a bad hr hp r wt full done s3 hgroups
    obtain ⟨G0, hseen⟩ := ready_seen hr
    have hclk : s3.clock = s.clock := by
      show r.1.clock = _
      rw [readPlace_clock, prepare_clock hp, hseen.state]
      rfl
    refine ⟨fun hq => ?_, fun hmet hroom => ?_⟩
    · exact ⟨_, exec_waita_done hr hp (hq.imp_right of_decide_eq_true), donePred_wrote hr hgroups o.dst done⟩
    · exact ⟨_, exec_waita_block hr hp hmet (of_decide_eq_false hroom), blockAct_waits hr (sX := s3) hgroups hclk _ _⟩
  · intro s g sel res G i l tile pa pd hG hl hb hsel
    obtain ⟨G', hG', hl'⟩ := releaseWaita_lane sel res hG hl hb hsel
    refine ⟨G', _, hG', hl', rfl, fun hpd => ?_, ?_⟩
    · have h15 : pd.toNat ≠ 15 := fun h => hpd (BitVec.eq_of_toNat_eq h)
      show (l.setPred pd.toNat res).pred pd.toNat = res
      rw [Lane.pred_setPred _ _ _ _ pd.isLt, if_pos ⟨rfl, h15⟩]
    · show (l.setPred pd.toNat res).v = l.v
      rw [setPred_stays]
  · intro c o s s1 x hr cls n
    refine ⟨fun hn => ?_, fun hn he => ?_, fun hn hpriv he => ?_, fun hn hpriv e he => ?_⟩
    · exact ⟨_, exec_waitc_blocks hr hn, waitHere_waits hr _⟩
    · exact ⟨_, exec_waitc_no_error hr hn he, done_passed hr rfl⟩
    · obtain ⟨e, he⟩ := Option.isSome_iff_exists.1 ((List.find?_isSome (p := fun e : EngErr => e.cls == cls)).2 (List.any_eq_true.1 he))
      refine ⟨_, _, (exec_waitc_error hr hn he).trans (congrArg _ (if_pos hpriv)), done_passed hr rfl, ?_⟩
      exact settle_done_errs hr (errsDue cls)
    · have hcls : e.cls = cls := by simpa using List.find?_some he
      rw [exec_waitc_error hr hn he, if_neg (Bool.eq_false_iff.1 hpriv), ← hcls]
      rfl

end Sys2Proof.Machine
end

section
/-!
PROOF that HomesAndUnits fails (14 R306, R321; 09 R217): PCARVE taking effect on a tile may mark the inputs of an open region.

The state is that of `carveState`, with PCARVE's new TM region written but not yet in effect on tile 0, which no launch uses. When it
takes effect the line leaves the tile's L2, its pending reduction is applied, and that write marks the input of the region that is
open on tile 1. The statement's clause on PCARVE says that the groups are as before.
-/

namespace Sys2Proof.Machine

/-- `carvePart` once PCARVE holds 40 in place of 48 as the TM region's size. -/
def carvedPart : Part := { carvePart with pcarve := (12, 40, 32) }

def carvedState : State := { carveState with parts := [(0, carvedPart)] }

theorem exec_carveEffect : exec (.pcarveTakeEffect 0 0) carvedState = .next (carveIdle carvedState 0 [0]) := rfl

theorem carvedState_no_conflict : anyConflict carvedState.groups = false := by decide

theorem carveEffect_conflict : anyConflict (carveIdle carvedState 0 [0]).groups = true := by decide

/-- Refutes O43: PCARVE taking effect marks an input of an open region, so the groups change. -/
theorem not_homesAndUnits : ¬ Obligations.HomesAndUnits := by
  unfold Obligations.HomesAndUnits
  rintro ⟨-, h⟩
  obtain ⟨-, -, -, -, -, -, -, -, hcarve, -⟩ := h carvedState 0
  obtain ⟨t, ht, -, hgroups, -⟩ := hcarve 0 carvedPart rfl rfl rfl
  obtain rfl : carveIdle carvedState 0 [0] = t := Host.Outcome.next.inj (exec_carveEffect.symm.trans ht)
  have hc := carveEffect_conflict
  rw [hgroups, carvedState_no_conflict] at hc
  cases hc

end Sys2Proof.Machine
end

section
/-!
SUPPORT. Control words (08; 01 R44 to R46): what such a word leaves in its group and its lanes when its own part is done.
-/

namespace Sys2Proof.Machine

/-- B is A but for its lanes and the fields that control words set. -/
def Steered (A B : Group) : Prop :=
  B = { A with lanes := B.lanes, ra := B.ra, grow := B.grow, shrnk := B.shrnk, enq := B.enq, v := B.v }

theorem Steered.same {A B : Group} (h : Steered A B) : Same A B := by
  unfold Steered at h
  constructor <;> rw [h]

theorem Steered.updLanes (G : Group) (ls : List Nat) (f : Nat → Lane → Lane) : Steered G (G.updLanes ls f) := rfl

theorem SameControl.refl (G : Group) : SameControl G G := ⟨rfl, rfl, rfl, rfl, rfl⟩

theorem SameControl.trans {A B C : Group} (h : SameControl A B) (k : SameControl B C) : SameControl A C := by
  obtain ⟨h1, h2, h3, h4, h5⟩ := h
  obtain ⟨k1, k2, k3, k4, k5⟩ := k
  exact ⟨k1.trans h1, k2.trans h2, k3.trans h3, k4.trans h4, k5.trans h5⟩

theorem countRegion_stays (G : Group) : countRegion G = { G with arstat := (countRegion G).arstat } := by
  unfold countRegion
  split <;> rfl

/-- A ready word finds its group as it was but for its lanes and the count of an open region's words. -/
theorem Seen.eq_but_lanes {c : Ctl} {s s1 : State} {x : Ctx} {G0 : Group} (h : Seen c s x s1 G0) :
    x.G = { G0 with lanes := x.G.lanes, arstat := x.G.arstat } := by
  rw [h.group, countRegion_stays]
  rfl

theorem Seen.sameControl {c : Ctl} {s s1 : State} {x : Ctx} {G0 : Group} (h : Seen c s x s1 G0) : SameControl G0 x.G := by
  rw [h.eq_but_lanes]
  exact SameControl.refl _

theorem LaneRegsStay.refl (l : Lane) : LaneRegsStay l l := ⟨rfl, rfl, rfl, rfl, rfl⟩

theorem LaneRegsStay.begun (l : Lane) : LaneRegsStay l (begun l) := begun_regs l

theorem begun_block (l : Lane) : (begun l).block = .free := by rw [begun_stays]
theorem begun_arr (l : Lane) : (begun l).arr = l.arr := by rw [begun_stays]
theorem begun_exited (l : Lane) : (begun l).exited = l.exited := by rw [begun_stays]
theorem retired_arr (l : Lane) (pc : BitVec 64) (chn : Bool) : (retired pc chn l).arr = l.arr := by rw [retired_stays]
theorem retired_exited (l : Lane) (pc : BitVec 64) (chn : Bool) : (retired pc chn l).exited = l.exited := by rw [retired_stays]

theorem Shifted.stays {l l' : Lane} (h : Shifted l l') : l' = { l with lat := l'.lat } := by
  obtain ⟨y, p, rfl | rfl⟩ := h <;> rfl

/-- What a control word does to the lanes of its group: `a` in the active ones; in the others that issue at most a shift of the latches. -/
def ActsOn (x : Ctx) (A B : Group) (a : Nat → Lane → Lane) : Prop :=
  ∀ i, ∃ k : Lane → Lane, (∀ l, Shifted l (k l)) ∧
    B.lane? i = (A.lane? i).map (fun l => if x.act.contains i then a i l else if x.iss.contains i then k l else l)

theorem ActsOn.updLanes (x : Ctx) (G : Group) (a : Nat → Lane → Lane) : ActsOn x G (G.updLanes x.act a) a := fun i =>
  ⟨id, fun _ => ⟨0, false, Or.inr rfl⟩, by rw [Group.lane?_updLanes]; simp only [id_eq, ite_self]⟩

/-- Latches of the lanes that issue but are not active shifted first. -/
theorem ActsOn.shiftLanes (x : Ctx) (G : Group) (d : Dst) (wide : Bool) (a : Nat → Lane → Lane) :
    ActsOn x G ((shiftLanes G (idleOf x) d wide).updLanes x.act a) a := fun i => by
  obtain ⟨f, hf, hl⟩ := shiftLanes_lane? G (idleOf x) d wide i
  refine ⟨f, hf, ?_⟩
  rw [Group.lane?_updLanes, hl, Option.map_map]
  congr 1
  funext l
  by_cases ha : i ∈ x.act <;> by_cases hi : i ∈ x.iss <;> simp [idleOf, ha, hi]

/-- A control word that is done: `G1` is the group as its own part leaves it, `a` what that part does in the active lanes. -/
theorem done_moved {c : Ctl} {m : Meta} {s s1 sX : State} {x : Ctx} {G1 : Group} {a : Nat → Lane → Lane}
    {q : Group → Group → Prop} {f : Nat → Lane → Lane → Prop} (h : ready c m s = some (x, s1)) (hX : sX.groups = s1.groups)
    (hst : Steered x.G G1) (hq : ∀ G0 G, SameControl G0 x.G → SameControl G1 G → q G0 G) (hl : ActsOn x x.G G1 a)
    (hregs : ∀ i l, LaneRegsStay l (a i l)) (npc : FMap (BitVec 64)) (hout : ∀ i l, i ∉ x.iss → f i l l)
    (hidle : ∀ i l k, i ∈ x.iss → i ∉ x.act → Shifted (begun l) k → f i l (retired (npc.lookD (x.u.pc + 12) i) c.chn k))
    (hact : ∀ i l, i ∈ x.act → i ∈ x.iss → x.G.lane? i = some (begun l) →
      f i l (retired (npc.lookD (x.u.pc + 12) i) c.chn (a i (begun l)))) :
    Moved c x (sX.under s) (settle x c s1 (.done (sX.setGroup x.g G1) npc)) q f := by
  obtain ⟨G0, hseen⟩ := ready_seen h
  rw [settle_done npc (State.look_setGroup_self _ _ _)]
  set G := hints (G1.updLanes x.iss (fun i l => retired (npc.lookD (x.u.pc + 12) i) c.chn l)) (sX.setGroup x.g G1).clock c with hG
  refine ⟨G0, G, ⟨hseen.before, State.look_setGroup_self _ _ _, rfl, fun g hg => ?_⟩, ?_, ?_, ?_, ?_⟩
  · show ((sX.setGroup x.g G1).setGroup x.g G).groups.look g = s.groups.look g
    rw [State.look_setGroup, if_neg hg, State.look_setGroup, if_neg hg, hX, hseen.look, if_neg hg]
  · exact hints_taken hseen (hst.same.trans (Same.updLanes _ _ _)) sX.clock
  · exact hq G0 G hseen.sameControl ⟨rfl, rfl, rfl, rfl, rfl⟩
  · unfold Steered at hst
    rw [hseen.eq_but_lanes] at hst
    rw [hG, hst]
    rfl
  · intro i l hl0
    obtain ⟨k, hk, hlane⟩ := hl i
    have hafter : G.lane? i = some (if i ∈ x.iss then retired (npc.lookD (x.u.pc + 12) i) c.chn
        (if i ∈ x.act then a i (begun l) else k (begun l)) else l) := by
      rw [hG, hints_lane?, Group.lane?_updLanes, hlane, hseen.lane_group, hl0]
      by_cases hi : i ∈ x.iss
      · by_cases ha : i ∈ x.act <;> simp [hi, ha]
      · have ha : i ∉ x.act := fun ha => hi (hseen.act_sub ha)
        simp [hi, ha]
    refine ⟨_, hafter, ?_⟩
    by_cases hi : i ∈ x.iss
    · rw [if_pos hi]
      by_cases ha : i ∈ x.act
      · rw [if_pos ha]
        exact ⟨LaneRegsStay.of_begun (hregs i _) (LaneRegsStay.retired _ _ _), fun h => absurd hi h, hact i l ha hi (hseen.env hi hl0)⟩
      · rw [if_neg ha]
        exact ⟨LaneRegsStay.of_begun (hk _).regs.2 (LaneRegsStay.retired _ _ _), fun h => absurd hi h, hidle i l _ hi ha (hk _)⟩
    · rw [if_neg hi]
      exact ⟨LaneRegsStay.refl l, fun _ => rfl, hout i l hi⟩

/-- The same for a word whose own part changes its active lanes alone. -/
theorem done_moved_active {c : Ctl} {m : Meta} {s s1 : State} {x : Ctx} {a : Nat → Lane → Lane} {f : Nat → Lane → Lane → Prop}
    (h : ready c m s = some (x, s1)) (hregs : ∀ i l, LaneRegsStay l (a i l)) (npc : FMap (BitVec 64))
    (hout : ∀ i l, i ∉ x.iss → f i l l)
    (hidle : ∀ i l k, i ∈ x.iss → i ∉ x.act → Shifted (begun l) k → f i l (retired (npc.lookD (x.u.pc + 12) i) c.chn k))
    (hact : ∀ i l, i ∈ x.act → i ∈ x.iss → x.G.lane? i = some (begun l) →
      f i l (retired (npc.lookD (x.u.pc + 12) i) c.chn (a i (begun l)))) :
    Moved c x s (settle x c s1 (.done (s1.updGroup x.g (fun G => G.updLanes x.act a)) npc)) SameControl f := by
  obtain ⟨G0, hseen⟩ := ready_seen h
  rw [State.updGroup_of_look (ready_look h rfl)]
  have hmoved := done_moved h (sX := s1) rfl (Steered.updLanes x.G x.act a) (q := SameControl) (fun _ _ h0 h1 => h0.trans h1)
    (ActsOn.updLanes x x.G a) hregs npc hout hidle hact
  rwa [show s1.under s = s from hseen.under] at hmoved

end Sys2Proof.Machine
end

section
/-!
PROOF of BarrierArrival (08 R193, R195; 19 R407): what BAR, BARA and BARW do in the lanes that execute them.
-/

namespace Sys2Proof.Machine

/-- What a word that reaches a barrier needs of the checks. -/
def barNeed (o : OpE) : Meta := { chnOk := false, bar := some (barDom o, barId o) }

/-- Has the lane arrived in phase P of the word's barrier? -/
def cameTo (o : OpE) (P : Nat) (l : Lane) : Bool := l.arrived (barDom o) (barId o) == some P

/-- A lane's arrival, which then waits or goes on. -/
def comeTo (o : OpE) (P : Nat) (b : Block) (l : Lane) : Lane := { l with arr := l.arr.setAt (16 * barDom o + barId o) P, block := b }

/-- The active lanes that have arrived in phase P already. -/
def cameBefore (x : Ctx) (o : OpE) (P : Nat) : List Nat := x.act.filter (fun i => x.G.laneTest i (cameTo o P))

/-- BAR or BARA in an active lane (08 R193). -/
def arriveLane (x : Ctx) (o : OpE) (u P : Nat) (bar : Bool) (i : Nat) (l : Lane) : Lane :=
  if (cameBefore x o P).contains i then { l with block := .bar (barDom o) u (barId o) P false }
  else comeTo o P (if bar then .bar (barDom o) u (barId o) P true else .free) l

/-- BARW in an active lane (08 R193). -/
def awaitLane (o : OpE) (u P : Nat) (l : Lane) : Lane :=
  if l.arrived (barDom o) (barId o) = some P then { l with block := .bar (barDom o) u (barId o) P true } else l

theorem arriveLane_stays (x : Ctx) (o : OpE) (u P : Nat) (bar : Bool) (i : Nat) (l : Lane) :
    arriveLane x o u P bar i l = { l with arr := (arriveLane x o u P bar i l).arr, block := (arriveLane x o u P bar i l).block } := by
  unfold arriveLane
  split <;> rfl

theorem awaitLane_stays (o : OpE) (u P : Nat) (l : Lane) : awaitLane o u P l = { l with block := (awaitLane o u P l).block } := by
  unfold awaitLane
  split <;> rfl

theorem arrived_comeTo (o : OpE) (P : Nat) (b : Block) (l : Lane) : (comeTo o P b l).arrived (barDom o) (barId o) = some P := by
  unfold Lane.arrived comeTo
  rw [FMap.look_setAt, if_pos rfl]

theorem arrived_begun (o : OpE) (l : Lane) : (begun l).arrived (barDom o) (barId o) = l.arrived (barDom o) (barId o) := by
  unfold Lane.arrived
  rw [begun_arr]

section
variable {c : Ctl} {o : OpE} {s s1 : State} {x : Ctx} {u P : Nat}

/-- A lane is among those that came before when it is active and has arrived. -/
theorem mem_cameBefore {i : Nat} {l : Lane} (ha : i ∈ x.act) (hl : x.G.lane? i = some (begun l)) :
    i ∈ cameBefore x o P ↔ l.arrived (barDom o) (barId o) = some P := by
  unfold cameBefore Group.laneTest cameTo
  simp only [List.mem_filter, ha, true_and, hl, arrived_begun, beq_iff_eq]

/-- Those that came before stay at the word; the others go on. -/
theorem pc_of_cameBefore (i : Nat) : FMap.lookD ((cameBefore x o P).map (fun i => (i, x.u.pc))) (x.u.pc + 12) i =
    if i ∈ cameBefore x o P then x.u.pc else x.u.pc + 12 := by
  rw [FMap.lookD, look_mapped]
  split <;> rfl

variable (hr : ready c (barNeed o) s = some (x, s1)) (hb : barOf s1 x.G o = some (u, P))
include hr hb

theorem exec_arrive_go {bar : Bool} (hstop : relStop s1 x x.act (barFar s1 x.G (barDom o)) = none)
    (hcut : (bar && fabricLost s1 x.G (barDom o)) = false) :
    exec (if bar then .bar c o else .bara c o) s = .next (settle x c s1 (.done
      (s1.updGroup x.g (fun G => G.updLanes x.act (arriveLane x o u P bar))) ((cameBefore x o P).map (fun i => (i, x.u.pc))))) := by
  have hexec : exec (if bar then .bar c o else .bara c o) s = arrive bar c o s := by cases bar <;> rfl
  rw [hexec]
  unfold arrive
  refine (issueWord_ready hr _).trans ?_
  simp only [hstop, hb, hcut, Bool.false_eq_true, if_false]
  rfl

theorem exec_bar_cut (hstop : relStop s1 x x.act (barFar s1 x.G (barDom o)) = none) (hcut : fabricLost s1 x.G (barDom o) = true) :
    exec (.bar c o) s = .next (trapIssue (s1.updGroup x.g (fun G =>
      G.updLanes x.act (fun _ l => { l with arr := l.arr.setAt (16 * barDom o + barId o) P }))) x { code := 0x11 }) := by
  show arrive true c o s = _
  unfold arrive
  refine (issueWord_ready hr _).trans ?_
  simp only [hstop, hb, hcut, Bool.and_self, if_true, settle]

theorem exec_barw_cut (hcut : fabricLost s1 x.G (barDom o) = true) (hcame : x.act.any (fun i => x.G.laneTest i (cameTo o P)) = true) :
    exec (.barw c o) s = .next (trapIssue s1 x { code := 0x11 }) := by
  unfold cameTo at hcame
  show execBarw c o s = _
  unfold execBarw
  refine (issueWord_ready hr _).trans ?_
  simp only [hb, hcut, hcame, Bool.and_self, if_true, settle]

theorem exec_barw_go (hcut : (fabricLost s1 x.G (barDom o) && x.act.any (fun i => x.G.laneTest i (cameTo o P))) = false) :
    exec (.barw c o) s = .next (settle x c s1 (.done (s1.updGroup x.g (fun G =>
      G.updLanes x.act (fun _ => awaitLane o u P))) [])) := by
  unfold cameTo at hcut
  show execBarw c o s = _
  unfold execBarw
  refine (issueWord_ready hr _).trans ?_
  simp only [hb, hcut, Bool.false_eq_true, if_false]
  rfl

/-- BARW wherever the cut of 19 R407 does not strike: unless the wafer is cut off and a lane has arrived. -/
theorem barw_moved (hcut : (fabricLost s1 x.G (barDom o) && x.act.any (fun i => x.G.laneTest i (cameTo o P))) = false) :
    ∃ t, exec (.barw c o) s = .next t ∧ Moved c x s t SameControl (fun i l l' =>
      l'.exited = l.exited ∧ l'.arr = l.arr ∧ (i ∈ x.iss → l'.pc = x.u.pc + 12) ∧
      (i ∈ x.act → l'.block = if l.arrived (barDom o) (barId o) = some P then .bar (barDom o) u (barId o) P true else .free)) := by
  obtain ⟨G0, hs⟩ := ready_seen hr
  refine ⟨_, exec_barw_go hr hb hcut, done_moved_active hr (fun i l => ?_) _ (fun i l hi => ?_) (fun i l k hi ha hk => ?_)
    (fun i l ha hi _ => ?_)⟩
  · rw [awaitLane_stays]
    exact LaneRegsStay.refl l
  · exact ⟨rfl, rfl, fun h => absurd h hi, fun h => absurd (hs.act_sub h) hi⟩
  · rw [retired_exited, retired_pc, retired_arr, hk.stays]
    exact ⟨begun_exited l, begun_arr l, fun _ => rfl, fun h => absurd h ha⟩
  · rw [retired_exited, retired_pc, retired_arr, retired_block]
    refine ⟨by rw [awaitLane_stays]; exact begun_exited l, by rw [awaitLane_stays]; exact begun_arr l, fun _ => rfl, fun _ => ?_⟩
    rw [awaitLane, arrived_begun]
    split
    · rfl
    · exact begun_block l

/-- BAR and BARA wherever the cut of 19 R407 does not strike. -/
theorem arrive_moved (hstop : relStop s1 x x.act (barFar s1 x.G (barDom o)) = none) {bar : Bool}
    (hcut : (bar && fabricLost s1 x.G (barDom o)) = false) :
    ∃ t, exec (if bar then .bar c o else .bara c o) s = .next t ∧ Moved c x s t SameControl (fun i l l' =>
      l'.exited = l.exited ∧ (i ∈ x.iss → i ∉ x.act → l'.pc = x.u.pc + 12 ∧ l'.arr = l.arr) ∧
      (i ∈ x.act → l.arrived (barDom o) (barId o) = some P →
        l'.pc = x.u.pc ∧ l'.arr = l.arr ∧ l'.block = .bar (barDom o) u (barId o) P false) ∧
      (i ∈ x.act → l.arrived (barDom o) (barId o) ≠ some P → l'.pc = x.u.pc + 12 ∧
        l'.arrived (barDom o) (barId o) = some P ∧ l'.block = if bar then .bar (barDom o) u (barId o) P true else .free)) := by
  obtain ⟨G0, hs⟩ := ready_seen hr
  refine ⟨_, exec_arrive_go hr hb hstop hcut, done_moved_active hr (fun i l => ?_) _ (fun i l hi => ?_) (fun i l k hi ha hk => ?_)
    (fun i l ha hi hlane => ?_)⟩
  · rw [arriveLane_stays]
    exact LaneRegsStay.refl l
  · exact ⟨rfl, fun h => absurd h hi, fun h => absurd (hs.act_sub h) hi, fun h => absurd (hs.act_sub h) hi⟩
  · have hnew : i ∉ cameBefore x o P := fun h => ha (List.mem_of_mem_filter h)
    rw [pc_of_cameBefore, if_neg hnew, retired_exited, retired_pc, retired_arr, hk.stays]
    exact ⟨begun_exited l, fun _ _ => ⟨rfl, begun_arr l⟩, fun h => absurd h ha, fun h => absurd h ha⟩
  · rw [pc_of_cameBefore, retired_exited, retired_pc, retired_arr, retired_block]
    refine ⟨by rw [arriveLane_stays]; exact begun_exited l, fun _ h => absurd ha h, fun _ hold => ?_, fun _ hnew => ?_⟩
    · have hmem := (mem_cameBefore ha hlane).2 hold
      rw [if_pos hmem, arriveLane, if_pos (List.contains_iff_mem.2 hmem)]
      exact ⟨rfl, begun_arr l, rfl⟩
    · have hmem := mt (mem_cameBefore ha hlane).1 hnew
      rw [if_neg hmem, arriveLane, if_neg (fun h => hmem (List.contains_iff_mem.1 h))]
      refine ⟨rfl, ?_, rfl⟩
      unfold Lane.arrived
      rw [retired_arr]
      exact arrived_comeTo o P _ (begun l)

end

/-- Settles O28: an arrival by whether the lane has come in the open phase before, and BARW's wait. -/
theorem barrierArrival : Obligations.BarrierArrival := by
  unfold Obligations.BarrierArrival
  intro c o s s1 x u P hr hb cut
  refine ⟨fun hstop bar hbar => arrive_moved hr hb hstop ?_, fun hstop hcut => exec_bar_cut hr hb hstop hcut, fun hcut => ?_,
    fun hcut => ?_⟩
  · cases bar
    · rfl
    · exact hbar rfl
  -- `cut && came = b` reads as `cut && decide (came = b)`
  · rw [Bool.and_eq_true, decide_eq_true_eq] at hcut
    exact exec_barw_cut hr hb hcut.1 hcut.2
  · rw [Bool.and_eq_true, decide_eq_true_eq] at hcut
    exact barw_moved hr hb (Bool.and_eq_false_iff.2 (Or.inr hcut.2))

end Sys2Proof.Machine
end

section
/-!
PROOF of QueueAndWindowWords (08 R184, R198 to R202; 01 R46): the words ENQ, GROW and SHRNK.
-/

namespace Sys2Proof.Machine

/-! ### What the word leaves in its group -/

theorem settle_done_look {x : Ctx} {c : Ctl} {s s' : State} {G : Group} (npc : FMap (BitVec 64)) (h : s'.groups.look x.g = some G) :
    (settle x c s (.done s' npc)).groups.look x.g =
      some (hints (G.updLanes x.iss (fun i l => retired (npc.lookD (x.u.pc + 12) i) c.chn l)) s'.clock c) := by
  rw [settle_done npc h]
  exact State.look_setGroup_self _ _ _

theorem retired_lat (l : Lane) (pc : BitVec 64) (chn : Bool) : (retired pc chn l).lat = l.lat := by rw [retired_stays]

/-! ### ENQ (08 R198, R199) -/

/-- A release that reaches no other wafer waits for nothing but the side log (07 R163). -/
theorem relStop_near {s : State} {x : Ctx} {ls : List Nat} (h : slgHolds s x.g x.G ls = false) : relStop s x ls false = none := by
  simp only [relStop, h, Bool.false_and, Bool.false_eq_true, if_false]

def enqNeed (o : OpE) : Meta :=
  { (((({} : Meta).read false o.a false).read false o.b false).write o.dst false) with chnOk := false }

/-- The request that an ENQ makes of the words of its record. -/
def enqOf (x : Ctx) (o : OpE) (ws : FMap (Nat × Bool)) : EnqReq :=
  ⟨BitVec.ofNat 64 (src64 x o.b), o.bits 44 43, src64 x o.a, ws.flatMap (fun e => leBytes 8 e.2.1), ws.any (fun e => e.2.2), false,
    x.act, (scaDst o.dst).1, (scaDst o.dst).2, BitVec.ofNat 4 (o.bits 48 45), false⟩

/-- The group as an ENQ leaves it: latches shifted by a status that is still to come. -/
def enqAsked (x : Ctx) (o : OpE) (e : EnqReq) (G : Group) : Group :=
  { ((shiftLanes G (idleOf x) o.dst false).updLanes x.act (fun _ l => l.shiftEnq)) with enq := some e }

section
variable {c : Ctl} {o : OpE} {s s1 s2 : State} {x : Ctx} {ps : List LaneAcc} {bad : List (Nat × Nat × WFault)}

theorem exec_enq_go (hr : ready c (enqNeed o) s = some (x, s1)) (hslg : slgHolds s1 x.g x.G x.act = false)
    (hnone : x.G.enq = none) (hspace : noSpace (src64 x o.a) = false) (halign : src64 x o.a % 64 = 0)
    (hp : prepare x s1 .load false true 8 ((List.range 32).map (fun i => (x.low, src64 x o.a + 8 * i))) = .go s2 ps bad) :
    let q := readLanes x.g x.G.tile 8 (fun v => v) s2 ps
    exec (.enq c o) s = .next (settle x c s1 (.done (q.1.updGroup x.g (enqAsked x o (enqOf x o q.2))) [])) := by
  show execEnq c o s = _
  unfold execEnq
  refine (issueWord_ready hr _).trans ?_
  simp only [relStop_near hslg, hnone, Option.isSome_none, hspace, halign, hp, bne_self_eq_false, Bool.false_eq_true, if_false]
  rfl

/-- An ENQ that has handed its record over: its lanes go on, with a latch that waits for the status. -/
theorem enq_moved {m : Meta} (hr : ready c m s = some (x, s1)) {sX : State} (hX : sX.groups = s1.groups) (e : EnqReq) :
    Moved c x (sX.under s) (settle x c s1 (.done (sX.updGroup x.g (enqAsked x o e)) []))
      (fun G0 G => G.ra = G0.ra ∧ G.grow = G0.grow ∧ G.shrnk = G0.shrnk ∧ G.v = G0.v ∧ G.enq = some e)
      (fun i l l' => l'.exited = l.exited ∧ (i ∈ x.iss → l'.pc = x.u.pc + 12 ∧ l'.block = .free) ∧
        (i ∈ x.act → l'.lat.l0.enq = true ∧ l'.lat.l1.val = l.lat.l0.val)) := by
  obtain ⟨G0, hs⟩ := ready_seen hr
  rw [State.updGroup_of_look (ready_look hr hX)]
  refine done_moved hr hX (G1 := enqAsked x o e x.G) (a := fun _ l => l.shiftEnq) rfl (fun G0 G h0 h1 => ?_) (ActsOn.shiftLanes x x.G o.dst false _)
    (fun _ l => ⟨rfl, rfl, rfl, rfl, rfl⟩) [] (fun i l hi => ?_) (fun i l k hi ha hk => ?_) (fun i l ha hi _ => ?_)
  · obtain ⟨r0, g0, h0, -, v0⟩ := h0
    obtain ⟨r1, g1, h1, e1, v1⟩ := h1
    exact ⟨r1.trans r0, g1.trans g0, h1.trans h0, v1.trans v0, e1⟩
  · exact ⟨rfl, fun h => absurd h hi, fun h => absurd (hs.act_sub h) hi⟩
  · rw [retired_exited, retired_pc, retired_block, hk.stays]
    exact ⟨begun_exited l, fun _ => ⟨rfl, begun_block l⟩, fun h => absurd h ha⟩
  · rw [retired_exited, retired_pc, retired_block, retired_lat]
    exact ⟨begun_exited l, fun _ => ⟨rfl, begun_block l⟩, fun _ => ⟨rfl, (begun_lats l).1⟩⟩

end

/-! ### GROW (08 R200) -/

def growNeed (o : OpE) : Meta := { (({} : Meta).write o.dst false) with chnOk := false }

/-- The group with a GROW pending, the larger count of two. -/
def growAsked (n : Nat) (G : Group) : Group := { G with grow := some (max n (G.grow.getD 0)) }

section
variable {c : Ctl} {o : OpE} {s s1 : State} {x : Ctx} (hr : ready c (growNeed o) s = some (x, s1))
include hr

theorem exec_grow_declared (hv : countOf o ≤ x.G.v) : exec (.grow c o) s = .next (settle x c s1 (donePred x s1 o.dst true)) := by
  show execGrow c o s = _
  unfold execGrow
  refine (issueWord_ready hr _).trans ?_
  simp only [if_pos hv]

theorem exec_grow_beyond (hv : x.G.v < countOf o) :
    exec (.grow c o) s = .next (settle x c s1 (blockAct x (s1.updGroup x.g (growAsked (countOf o))) o.dst (.grow (predDst o.dst)))) := by
  show execGrow c o s = _
  unfold execGrow
  refine (issueWord_ready hr _).trans ?_
  simp only [if_neg (Nat.not_le.2 hv)]
  rfl

end

/-- Active lanes that block after the group has changed in what control words set. -/
theorem blockAct_waits_in {c : Ctl} {m : Meta} {s s1 : State} {x : Ctx} (h : ready c m s = some (x, s1)) {ask : Group → Group}
    (hst : Steered x.G (ask x.G)) (hlanes : (ask x.G).lanes = x.G.lanes) (d : Dst) (b : Block) :
    ∃ G, Waits c x s s1 (settle x c s1 (blockAct x (s1.updGroup x.g ask) d b)) b x.next ∧
      (settle x c s1 (blockAct x (s1.updGroup x.g ask) d b)).groups.look x.g = some G ∧ SameControl (ask x.G) G := by
  obtain ⟨G0, hs⟩ := ready_seen h
  have hbody : blockAct x (s1.updGroup x.g ask) d b = .done (s1.setGroup x.g
      ((shiftLanes (ask x.G) (idleOf x) d false).updLanes x.act (fun _ l => { l with block := b }))) [] := by
    unfold blockAct
    rw [State.updGroup_of_look (ready_look h rfl), State.updGroup_of_look (State.look_setGroup_self _ _ _), State.setGroup_setGroup]
  rw [hbody]
  have hscalars : (ask x.G).s = x.G.s := by unfold Steered at hst; rw [hst]
  refine ⟨_, done_waits h rfl (by rw [hs.state]; rfl) (hst.same.trans ((Same.shiftLanes _ _ _ _).trans (Same.updLanes _ _ _)))
    hscalars (fun i => ?_) [] _ (fun _ _ => rfl) (fun _ _ => rfl), settle_done_look [] (State.look_setGroup_self _ _ _),
    SameControl.refl _⟩
  have hlane := ActsOn.shiftLanes x (ask x.G) d false (fun _ l => { l with block := b }) i
  rwa [show (ask x.G).lane? i = x.G.lane? i from congrArg (fun ls => ls[i]?) hlanes] at hlane

/-! ### SHRNK (08 R202) -/

/-- A lane without the registers from n up. -/
def Lane.below (n : Nat) (l : Lane) : Lane :=
  { l with v := l.v.keep (fun k _ => decide (k < n)), vPsn := l.vPsn.filter (· < n) }

theorem Lane.vreg_below (n : Nat) (l : Lane) (k : Nat) : (l.below n).vreg k = if k < n then l.vreg k else 0 := by
  show FMap.lookD (l.v.keep (fun k _ => decide (k < n))) 0 k = _
  rw [FMap.lookD, FMap.look_keep_keys l.v (fun k => decide (k < n)) k]
  by_cases hk : k < n
  · rw [if_pos (decide_eq_true hk), if_pos hk]
    rfl
  · rw [if_neg (by simpa using hk), if_neg hk]
    rfl

theorem shrinkGroup_of_lt {G : Group} {n : Nat} (h : n < G.v) :
    shrinkGroup G n = { G with v := n, lanes := G.lanes.map (Lane.below n) } := if_pos h

theorem shrinkGroup_lane? {G : Group} {n : Nat} (h : n < G.v) (i : Nat) :
    (shrinkGroup G n).lane? i = (G.lane? i).map (Lane.below n) := by
  rw [shrinkGroup_of_lt h]
  exact List.getElem?_map ..

/-- A SHRNK that waits for the group's outstanding writes, the lower count of two. -/
def shrnkAsked (x : Ctx) (n : Nat) (G : Group) : Group :=
  { (G.updLanes x.act (fun _ l => { l with block := .shrnk })) with shrnk := some (min n (G.shrnk.getD n)) }

section
variable {c : Ctl} {o : OpE} {s s1 : State} {x : Ctx} (hr : ready c { chnOk := false } s = some (x, s1))
include hr

theorem exec_shrnk_declared (hv : x.G.v ≤ countOf o) : exec (.shrnk c o) s = .next (settle x c s1 (.done s1 [])) := by
  show execShrnk c o s = _
  unfold execShrnk
  refine (issueWord_ready hr _).trans ?_
  simp only [if_pos hv]

theorem exec_shrnk_waits (hv : countOf o < x.G.v) (hsb : x.G.sb.any (fun e => e.2 != 0) = true) :
    exec (.shrnk c o) s = .next (settle x c s1 (.done (s1.updGroup x.g (shrnkAsked x (countOf o))) [])) := by
  show execShrnk c o s = _
  unfold execShrnk
  refine (issueWord_ready hr _).trans ?_
  simp only [if_neg (Nat.not_le.2 hv), hsb, if_true]
  rfl

theorem exec_shrnk_drops (hv : countOf o < x.G.v) (hsb : x.G.sb.any (fun e => e.2 != 0) = false) :
    exec (.shrnk c o) s = .next (settle x c s1 (.done (s1.updGroup x.g (fun G => shrinkGroup G (countOf o))) [])) := by
  show execShrnk c o s = _
  unfold execShrnk
  refine (issueWord_ready hr _).trans ?_
  simp only [if_neg (Nat.not_le.2 hv), hsb, Bool.false_eq_true, if_false]

theorem shrnk_waits (n : Nat) : ∃ G, Waits c x s s1 (settle x c s1 (.done (s1.updGroup x.g (shrnkAsked x n)) [])) .shrnk x.next ∧
    (settle x c s1 (.done (s1.updGroup x.g (shrnkAsked x n)) [])).groups.look x.g = some G ∧
    G.shrnk = some (min n (x.G.shrnk.getD n)) ∧ G.v = x.G.v := by
  obtain ⟨G0, hs⟩ := ready_seen hr
  rw [State.updGroup_of_look (ready_look hr rfl)]
  exact ⟨_, done_waits hr rfl (by rw [hs.state]; rfl) (G1 := shrnkAsked x n x.G) ⟨rfl, rfl, rfl, rfl⟩ rfl
    (ActsOn.updLanes x x.G (fun _ l => { l with block := .shrnk })) [] _ (fun _ _ => rfl) (fun _ _ => rfl), settle_done_look [] (State.look_setGroup_self _ _ _), rfl, rfl⟩

/-- A SHRNK without outstanding writes: the count falls, and the registers beyond it go. -/
theorem shrnk_drops {n : Nat} (hv : n < x.G.v) :
    let t := settle x c s1 (.done (s1.updGroup x.g (fun G => shrinkGroup G n)) [])
    ∃ G, t.groups.look x.g = some G ∧ G.v = n ∧ G.s = x.G.s ∧ (∀ h, h ≠ x.g → t.groups.look h = s.groups.look h) ∧
      t = { s with groups := t.groups } ∧
      ∀ i l, x.G.lane? i = some l → ∃ l', G.lane? i = some l' ∧ l'.p = l.p ∧ (i ∈ x.iss → l'.pc = x.u.pc + 12) ∧
        ∀ k, l'.vreg k = if k < n then l.vreg k else 0 := by
  obtain ⟨G0, hs⟩ := ready_seen hr
  intro t
  have ht : t = settle x c s1 (.done (s1.setGroup x.g (shrinkGroup x.G n)) []) := by
    rw [← State.updGroup_of_look (ready_look hr rfl) (fun G => shrinkGroup G n)]
  rw [settle_done [] (State.look_setGroup_self _ _ _)] at ht
  refine ⟨_, by rw [ht]; exact State.look_setGroup_self _ _ _, ?_, ?_, fun h hne => ?_, ?_, fun i l hl => ?_⟩
  · rw [shrinkGroup_of_lt hv]
    rfl
  · rw [shrinkGroup_of_lt hv]
    rfl
  · rw [ht, State.look_setGroup, if_neg hne, State.look_setGroup, if_neg hne, hs.look, if_neg hne]
  · rw [ht, hs.state]
    rfl
  · rw [hints_lane?, Group.lane?_updLanes, shrinkGroup_lane? hv, hl]
    have hafter : ∀ k : Lane, k.p = (if x.iss.contains i then retired (FMap.lookD [] (x.u.pc + 12) i) c.chn k else k).p ∧
        k.v = (if x.iss.contains i then retired (FMap.lookD [] (x.u.pc + 12) i) c.chn k else k).v := fun k => by
      split
      · rw [retired_stays]
        exact ⟨rfl, rfl⟩
      · exact ⟨rfl, rfl⟩
    refine ⟨_, rfl, (hafter (l.below n)).1.symm, fun hi => ?_, fun k => ?_⟩
    · dsimp only
      rw [if_pos (List.contains_iff_mem.2 hi), retired_pc]
      rfl
    · rw [← Lane.vreg_below]
      exact congrArg (fun v => FMap.lookD v 0 k) (hafter (l.below n)).2.symm

end

/-- Settles O29: ENQ's hand-over, GROW's answer or wait, and SHRNK's three cases. -/
theorem queueAndWindowWords : Obligations.QueueAndWindowWords := by
  unfold Obligations.QueueAndWindowWords
  refine ⟨?_, ?_, ?_⟩
  · intro c o s s1 s2 x ps bad hr hslg hnone hspace halign hp q hq
    exact ⟨_, exec_enq_go hr hslg hnone hspace halign hp, enq_moved hr hq _⟩
  · intro c o s s1 x hr
    obtain ⟨G0, hs⟩ := ready_seen hr
    refine ⟨fun hv => ⟨_, exec_grow_declared hr hv, ?_⟩, fun hv => ?_⟩
    · have hw := donePred_wrote hr (sX := s1) rfl o.dst true
      rwa [show s1.under s = s from hs.under] at hw
    · obtain ⟨G, hw, hG, -, hgrow, -, -, hcount⟩ := blockAct_waits_in (ask := growAsked (countOf o)) hr rfl rfl o.dst (.grow (predDst o.dst))
      exact ⟨_, G, exec_grow_beyond hr hv, hw, hG, hgrow, hcount⟩
  · intro c o s s1 x hr
    refine ⟨fun hv => ⟨_, exec_shrnk_declared hr hv, done_passed hr rfl⟩, fun hv hsb => ?_, fun hv hsb => ?_⟩
    · obtain ⟨G, hw, hG, hshrnk, hcount⟩ := shrnk_waits hr (countOf o)
      exact ⟨_, G, exec_shrnk_waits hr hv hsb, hw, hG, hshrnk, hcount⟩
    · obtain ⟨G, hrest⟩ := shrnk_drops hr hv
      exact ⟨_, G, exec_shrnk_drops hr hv hsb, hrest⟩

end Sys2Proof.Machine
end

section
/-!
SUPPORT. A group or a launch updated: its entry, and that nothing else of the machine changes.
-/

namespace Sys2Proof.Machine

@[simp] theorem State.look_updGroup (s : State) (g : Nat) (f : Group → Group) (h : Nat) :
    (s.updGroup g f).groups.look h = if h = g then (s.groups.look g).map f else s.groups.look h := by
  unfold State.updGroup
  cases hG : s.groups.look g with
  | none => split <;> simp_all
  | some G => simp

theorem State.updGroup_rest (s : State) (g : Nat) (f : Group → Group) :
    s.updGroup g f = { s with groups := (s.updGroup g f).groups } := by
  unfold State.updGroup
  cases s.groups.look g <;> rfl

@[simp] theorem State.updGroup_mem (s : State) (g : Nat) (f : Group → Group) : (s.updGroup g f).mem = s.mem := by rw [updGroup_rest]
@[simp] theorem State.updGroup_parts (s : State) (g : Nat) (f : Group → Group) : (s.updGroup g f).parts = s.parts := by
  rw [updGroup_rest]
@[simp] theorem State.updGroup_launches (s : State) (g : Nat) (f : Group → Group) : (s.updGroup g f).launches = s.launches := by
  rw [updGroup_rest]

@[simp] theorem State.updPart_groups (s : State) (p : Nat) (f : Part → Part) : (s.updPart p f).groups = s.groups := by
  rw [updPart_rest]

@[simp] theorem State.look_updLaunch (s : State) (n : Nat) (f : Launch → Launch) (k : Nat) :
    (s.updLaunch n f).launches.look k = if k = n then (s.launches.look n).map f else s.launches.look k := by
  unfold State.updLaunch
  cases hL : s.launches.look n with
  | none => split <;> simp_all
  | some L => simp

theorem State.updLaunch_rest (s : State) (n : Nat) (f : Launch → Launch) :
    s.updLaunch n f = { s with launches := (s.updLaunch n f).launches } := by
  unfold State.updLaunch
  cases s.launches.look n <;> rfl

@[simp] theorem State.updLaunch_parts (s : State) (n : Nat) (f : Launch → Launch) : (s.updLaunch n f).parts = s.parts := by
  rw [updLaunch_rest]
@[simp] theorem State.updLaunch_groups (s : State) (n : Nat) (f : Launch → Launch) : (s.updLaunch n f).groups = s.groups := by
  rw [updLaunch_rest]
@[simp] theorem State.updLaunch_cores (s : State) (n : Nat) (f : Launch → Launch) : (s.updLaunch n f).cores = s.cores := by
  rw [updLaunch_rest]

end Sys2Proof.Machine
end

section
/-!
PROOF of PhasesAndTokens (08 R193, R194; 09 R223; 19 R407): barrier phases, a fabric barrier's symbols and releases, the
serialisation token.
-/

namespace Sys2Proof.Machine

/-! ### A phase that passes (08 R193) -/

theorem Launch.phaseOf_next (L : Launch) (dom unit id n : Nat) :
    Launch.phaseOf { L with phase := L.phase.setAt (phaseKey dom unit id) n } dom unit id = n := by
  unfold Launch.phaseOf
  rw [FMap.lookD_setAt, if_pos rfl]

/-- The launch of an advanced phase, which counts one more. -/
theorem look_advancePhase {s : State} {n : Nat} {L : Launch} (dom unit id : Nat) (h : s.launches.look n = some L) :
    (advancePhase s n dom unit id).launches.look n =
      some { L with phase := L.phase.setAt (phaseKey dom unit id) (L.phaseOf dom unit id + 1) } := by
  unfold advancePhase
  rw [State.look_updLaunch, if_pos rfl, h, Option.map_some]

theorem exec_barrierPhase {s : State} {launch dom unit id : Nat} {L : Launch} (h : s.launches.look launch = some L) (hdom : dom ≠ 5)
    (hfull : phaseFull s (barGroups s launch dom unit) dom id (L.phaseOf dom unit id) = true) :
    exec (.barrierPhaseComplete launch dom unit id) s = .next (advancePhase s launch dom unit id) := by
  show execBarrierPhaseComplete launch dom unit id s = _
  unfold execBarrierPhaseComplete
  simp only [h, if_neg hdom, hfull, if_true]

/-! ### Symbols of a fabric barrier (19 R407) -/

/-- Flits change the ports alone. -/
theorem sendFlits_rest (s : State) (pa n : Nat) : sendFlits s pa n = { s with ports := (sendFlits s pa n).ports } := by
  unfold sendFlits
  split <;> rfl

/-- A symbol goes out; of the rest only the ports change. -/
theorem sendSymbol_rest (P : Part) (y : BarSym) (rank : Nat) (release : Bool) (s : State) (m : Nat) :
    sendSymbol P y rank release s m =
      { s with ports := (sendSymbol P y rank release s m).ports, out := .symbol (memberWafer P m) y rank release :: s.out } := by
  unfold sendSymbol
  rw [sendFlits_rest]
  rfl

/-- A symbol sent to each of some members. -/
theorem sendSymbols_sent (P : Part) (y : BarSym) (rank : Nat) (release : Bool) (ms : List Nat) (s : State) :
    (ms.foldl (sendSymbol P y rank release) s).launches = s.launches ∧
    (∀ r ∈ s.out, r ∈ (ms.foldl (sendSymbol P y rank release) s).out) ∧
    ∀ m ∈ ms, Reply.symbol (memberWafer P m) y rank release ∈ (ms.foldl (sendSymbol P y rank release) s).out := by
  induction ms generalizing s with
  | nil => exact ⟨rfl, fun _ h => h, fun _ h => nomatch h⟩
  | cons m ms ih =>
    have hm := sendSymbol_rest P y rank release s m
    have hlaunches : (sendSymbol P y rank release s m).launches = s.launches := by rw [hm]
    have hout : (sendSymbol P y rank release s m).out = .symbol (memberWafer P m) y rank release :: s.out := by rw [hm]
    obtain ⟨h1, h2, h3⟩ := ih (sendSymbol P y rank release s m)
    rw [hout] at h2
    refine ⟨h1.trans hlaunches, fun r hr => h2 r (List.mem_cons_of_mem _ hr), fun k hk => ?_⟩
    rcases List.mem_cons.1 hk with rfl | hk
    · exact h2 _ List.mem_cons_self
    · exact h3 k hk

/-- This wafer's own symbol of a fabric phase. -/
def ownSymbol (s : State) (P : Part) (L : Launch) (k launch unit id : Nat) : BarSym :=
  { job := fjobId P, launch := k, id, count := L.rc.bars.getD 3 0,
    live := phaseBegun (barGroups s launch 5 unit) 5 id (L.phaseOf 5 unit id) }

theorem exec_fabricPhase {s : State} {launch unit id k : Nat} {L : Launch} {P : Part} (h : s.launches.look launch = some L)
    (hP : s.parts.look L.part = some P) (hk : L.fabric = some k) (hstart : L.starting = false)
    (hfull : fabricFull s P (barGroups s launch 5 unit) id (L.phaseOf 5 unit id) = true)
    (hnew : hasSymbol P k id (fjobRank P) = false) :
    exec (.barrierPhaseComplete launch 5 unit id) s = .next (giveSymbol s L.part (ownSymbol s P L k launch unit id)) := by
  show execBarrierPhaseComplete launch 5 unit id s = _
  unfold execBarrierPhaseComplete
  simp only [h, hP, hk, hstart, hfull, hnew, Bool.not_true, Bool.or_self, Bool.false_eq_true, if_false, if_true]
  rfl

/-- A member other than rank 0 notes its symbol and sends it to rank 0. -/
theorem giveSymbol_member {s : State} {p : Nat} {P : Part} (y : BarSym) (hP : s.parts.look p = some P) (hrank : fjobRank P ≠ 0) :
    giveSymbol s p y = sendSymbol P y (fjobRank P) false
      (s.updPart p (fun P => { P with symbols := (y, fjobRank P) :: P.symbols })) 0 := by
  unfold giveSymbol
  simp only [hP, if_neg hrank]

/-- A phase released at a wafer advances its launch there. -/
theorem releasePhase_launches {s : State} {p k id n : Nat} {P : Part} {L : Launch} (hP : s.parts.look p = some P)
    (hn : fabricLaunch s p k = some (n, L)) :
    (releasePhase s p k id).launches = (advancePhase s n 5 (fjobRank P) id).launches := by
  have hadvance : ∀ f, (advancePhase (s.updPart p f) n 5 (fjobRank P) id).launches = (advancePhase s n 5 (fjobRank P) id).launches := by
    intro f
    rw [State.updPart_rest]
    unfold advancePhase State.updLaunch
    cases s.launches.look n <;> rfl
  unfold releasePhase
  simp only [hP, hn]
  split
  · split
    · rw [State.updPart_launches, hadvance]
    · rw [sendSymbol_rest]
      exact (State.updPart_launches _ _ _).trans (hadvance _)
  · exact hadvance _

theorem releasePhase_next {s : State} {p k id n : Nat} {P : Part} {L : Launch} (hP : s.parts.look p = some P)
    (hn : fabricLaunch s p k = some (n, L)) (hL : s.launches.look n = some L) :
    ∃ L', (releasePhase s p k id).launches.look n = some L' ∧
      L'.phaseOf 5 (fjobRank P) id = L.phaseOf 5 (fjobRank P) id + 1 := by
  rw [releasePhase_launches hP hn, look_advancePhase 5 (fjobRank P) id hL]
  exact ⟨_, rfl, Launch.phaseOf_next _ _ _ _ _⟩

/-- The release that rank 0 sends for a complete phase. -/
def releaseSymbol (P : Part) (k id : Nat) : BarSym :=
  { job := fjobId P, launch := k, id, count := ((phaseSyms P k id).head?.map (fun q => q.1.count)).getD 0, live := true }

theorem fabricAdvance_ready {s : State} {p k id : Nat} {P : Part} (hP : s.parts.look p = some P) (h : fabricReady P k id = true) :
    fabricAdvance s p k id =
      ((List.range (fjobMem P)).filter (· != 0)).foldl (sendSymbol P (releaseSymbol P k id) 0 true) (releasePhase s p k id) := by
  unfold fabricAdvance
  simp only [hP, h, if_true]
  rfl

/-- A complete phase at rank 0: it passes there, and every other member is sent its release. -/
theorem fabricAdvance_next {s : State} {p k id n : Nat} {P : Part} {L : Launch} (hP : s.parts.look p = some P)
    (hrank : fjobRank P = 0) (hready : fabricReady P k id = true) (hn : fabricLaunch s p k = some (n, L)) (hL : s.launches.look n = some L) :
    (∃ L', (fabricAdvance s p k id).launches.look n = some L' ∧ L'.phaseOf 5 0 id = L.phaseOf 5 0 id + 1) ∧
    ∀ m, 0 < m → m < fjobMem P → Reply.symbol (memberWafer P m) (releaseSymbol P k id) 0 true ∈ (fabricAdvance s p k id).out := by
  rw [fabricAdvance_ready hP hready]
  obtain ⟨hkeep, -, hsent⟩ := sendSymbols_sent P (releaseSymbol P k id) 0 true ((List.range (fjobMem P)).filter (· != 0))
    (releasePhase s p k id)
  refine ⟨?_, fun m h0 hm => hsent m (List.mem_filter.2 ⟨List.mem_range.2 hm, bne_iff_ne.2 (Nat.ne_of_gt h0)⟩)⟩
  have hnext := releasePhase_next (id := id) hP hn hL
  rw [hkeep]
  rwa [hrank] at hnext

/-- A symbol noted at rank 0. -/
def noteSymbol (y : BarSym) (rank : Nat) (P : Part) : Part := { P with symbols := (y, rank) :: P.symbols }

/-- A partition once a request held there has ended. -/
def withoutReq (i : HeldReq) (P : Part) : Part := { P with heldReqs := P.heldReqs.erase i }

theorem look_endReq {s : State} {p : Nat} {P : Part} (h : s.parts.look p = some P) (i : HeldReq) :
    (endReq s p i).parts.look p = some (withoutReq i P) := State.look_updPart_self h _

/-- A fabric barrier's state depends on the job and the symbols alone. -/
theorem fabricReady_of_symbols {P Q : Part} (hjob : Q.fjob = P.fjob) (hsyms : Q.symbols = P.symbols) (k id : Nat) :
    fabricReady Q k id = fabricReady P k id := by
  have hphase : phaseSyms Q k id = phaseSyms P k id := by unfold phaseSyms; rw [hsyms]
  have hhas : hasSymbol Q k id = hasSymbol P k id := by funext r; unfold hasSymbol; rw [hphase]
  unfold fabricReady fjobRank fjobMem
  rw [hphase, hhas, hjob]

@[simp] theorem endReq_launches (s : State) (p : Nat) (i : HeldReq) : (endReq s p i).launches = s.launches := State.updPart_launches _ _ _

theorem fabricLaunch_of_launches {s t : State} (h : t.launches = s.launches) (p k : Nat) : fabricLaunch t p k = fabricLaunch s p k := by
  unfold fabricLaunch
  rw [h]

section
variable {s : State} {part rank n : Nat} {y : BarSym} {P : Part} {L : Launch}
variable (hP : s.parts.look part = some P) (hgo : P.stopped = false) (hn : fabricLaunch s part y.launch = some (n, L))
variable (hen : fjobEn P = true) (hjob : y.job = fjobId P)
include hP hgo hn hen hjob

theorem exec_releaseSymbol (hrank : fjobRank P ≠ 0) (hown : hasSymbol P y.launch y.id (fjobRank P) = true) :
    exec (.fabricBarrierSymbol part y rank true) s =
      .next (releasePhase (endReq s part (.symbol y rank true)) part y.launch y.id) := by
  show Host.Outcome.next (fabricSymbol s part y rank true) = _
  unfold fabricSymbol
  simp only [hP, hgo, hn, hen, hjob, hown, bne_iff_ne.2 hrank, Option.isNone_some, Bool.and_false, Bool.false_and, Bool.or_self, Bool.not_true,
    bne_self_eq_false, Bool.and_self, Bool.false_eq_true, if_false, if_true]

theorem exec_memberSymbol (hrank : fjobRank P = 0) (hnew : hasSymbol P y.launch y.id rank = false) :
    exec (.fabricBarrierSymbol part y rank false) s =
      .next (fabricAdvance ((endReq s part (.symbol y rank false)).updPart part (noteSymbol y rank)) part y.launch y.id) := by
  show Host.Outcome.next (fabricSymbol s part y rank false) = _
  unfold fabricSymbol
  simp only [hP, hgo, hn, hen, hjob, hrank, hnew, Option.isNone_some, Bool.and_false, Bool.false_and, Bool.or_self, Bool.not_true,
    bne_self_eq_false, Bool.false_eq_true, if_false]
  rfl

end

/-! ### The serialisation token (09 R220, R223) -/

/-- Without a slot granted meanwhile, a region's end releases no other lane. -/
theorem Group.endWaits_of_none {G : Group} (h : ∀ l ∈ G.lanes, ∀ v d nw, l.block ≠ .cbgot v d nw) : G.endWaits = G := by
  unfold Group.endWaits
  rw [foldl_eq_self]
  · refine congrArg (fun ls => { G with lanes := ls }) ((List.map_congr_left (g := id) (fun l hl => ?_)).trans (List.map_id _))
    split
    · rename_i v d nw hb
      exact absurd hb (h l hl v d nw)
    · rfl
  · intro b hb
    obtain ⟨l, hl, rfl⟩ := List.mem_map.1 (List.mem_dedup.1 hb)
    split
    · rename_i v d nw hb
      exact absurd hb (h l hl v d nw)
    · rfl

/-- A lane of a region that aborts (09 R220). -/
def abortLane (r : Region) (i : Nat) (l : Lane) : Lane :=
  { (l.clearMarks) with p := r.snapP.lookD l.p i, pc := r.fb, chain := 0, chainPc := r.fb, block := .free }

/-- A group whose region aborts (09 R220). -/
def abortGroup (G : Group) (r : Region) (cause idx code : Nat) : Group :=
  Group.updLanes { G with
    s := r.snapS, sPsn := r.snapSPsn, region := none,
    arstat := arstatOf (min (r.cnt + 1) 255) (arIcnt G.arstat) idx code (arSer G.arstat) false cause } r.lanes (abortLane r)

theorem abortGroup_lane? (G : Group) (r : Region) (cause idx code i : Nat) :
    (abortGroup G r cause idx code).lane? i = (G.lane? i).map (fun l => if r.lanes.contains i then abortLane r i l else l) :=
  Group.lane?_updLanes _ _ _ _

theorem abortRegion_of_none {s : State} {g : Nat} {G : Group} {r : Region} (hG : s.groups.look g = some G) (hr : G.region = some r)
    (h : ∀ l ∈ G.lanes, ∀ v d nw, l.block ≠ .cbgot v d nw) (cause idx code : Nat) :
    abortRegion s g cause idx code = (dropToken s g G).setGroup g (abortGroup G r cause idx code) := by
  have hends : (abortGroup G r cause idx code).endWaits = abortGroup G r cause idx code := by
    refine Group.endWaits_of_none (fun l hl v d nw hb => ?_)
    obtain ⟨i, hi, rfl⟩ := List.mem_mapIdx.1 hl
    split at hb
    · cases hb
    · exact h _ (List.getElem_mem hi) v d nw hb
  unfold abortRegion
  simp only [hG, hr]
  exact congrArg _ hends

theorem exec_tokenTimeout {s : State} {g : Nat} {G : Group} {r : Region} {P : Part} (hG : s.groups.look g = some G)
    (hr : G.region = some r) (hP : s.partOf G = some P) (hq : P.tokenQ.contains g = true) (ht : r.start + 65536 ≤ s.clock) :
    exec (.serTokenTimeout g) s = .next (abortRegion s g 8 0 0) := by
  show execSerTokenTimeout g s = _
  unfold execSerTokenTimeout
  simp only [hG, hr, hP, hq, decide_eq_true ht, Bool.and_self, if_true]

theorem exec_tokenGrant {s : State} {part g : Nat} {rest : List Nat} {P : Part} (hP : s.parts.look part = some P)
    (ht : P.token = none) (hq : P.tokenQ = g :: rest) :
    exec (.serTokenGrant part) s = .next (s.updPart part (fun P => { P with token := some g, tokenQ := rest })) := by
  show execSerTokenGrant part s = _
  unfold execSerTokenGrant
  simp only [hP, ht, hq]

/-- Settles O37: a phase by its domain, the two symbols of a fabric barrier, the token's grant and its timeout. -/
theorem phasesAndTokens : Obligations.PhasesAndTokens := by
  unfold Obligations.PhasesAndTokens
  refine ⟨?_, ?_, ?_, ?_⟩
  · intro s launch dom unit id L hL
    refine ⟨fun hdom hfull => ⟨_, exec_barrierPhase hL hdom hfull, ?_⟩, ?_⟩
    · have hnext := look_advancePhase dom unit id hL
      refine ⟨State.updLaunch_rest _ _ _, fun k hk => by rw [advancePhase, State.look_updLaunch, if_neg hk],
        ⟨_, hnext, rfl, Launch.phaseOf_next _ _ _ _ _, fun k hk => ?_⟩, fun g G past hG => ?_⟩
      · rw [FMap.lookD_setAt, if_neg hk]
      · simp only [blockClear, State.launchOf, hG, hnext, Launch.phaseOf_next, Nat.lt_succ_self, decide_true]
    · rintro rfl P k hP hk hstart hrank hfull hnew
      refine ⟨_, exec_fabricPhase hL hP hk hstart hfull hnew, ?_⟩
      rw [giveSymbol_member _ hP hrank, sendSymbol_rest]
      exact ⟨_, _, State.look_updPart_self hP _, rfl, List.mem_cons_self, List.mem_cons_self, State.updPart_launches _ _ _,
        State.updPart_groups _ _ _⟩
  · intro s part rank n y P L hP hgo hn hL hen hjob
    have hfind : ∀ t : State, t.launches = s.launches → fabricLaunch t part y.launch = some (n, L) := fun t ht =>
      (fabricLaunch_of_launches ht part y.launch).trans hn
    refine ⟨fun hrank hown => ⟨_, exec_releaseSymbol hP hgo hn hen hjob hrank hown, ?_⟩, fun hrank hnew hready =>
      ⟨_, exec_memberSymbol hP hgo hn hen hjob hrank hnew, ?_⟩⟩
    · have hnext := releasePhase_next (id := y.id) (look_endReq hP (.symbol y rank true)) (hfind _ (endReq_launches _ _ _))
        (by rwa [endReq_launches])
      exact hnext
    · have hlaunches : ((endReq s part (.symbol y rank false)).updPart part (noteSymbol y rank)).launches = s.launches :=
        (State.updPart_launches _ _ _).trans (endReq_launches _ _ _)
      have hnoted := State.look_updPart_self (look_endReq hP (.symbol y rank false)) (noteSymbol y rank)
      have hready1 : fabricReady (noteSymbol y rank (withoutReq (.symbol y rank false) P)) y.launch y.id = true := by
        rw [← hready]
        exact fabricReady_of_symbols rfl rfl _ _
      obtain ⟨hnext, hsent⟩ := fabricAdvance_next hnoted hrank hready1 (hfind _ hlaunches) (by rwa [hlaunches])
      exact ⟨hnext, fun m h0 hm => ⟨_, hsent m h0 hm, rfl, rfl, rfl⟩⟩
  · intro s part g rest P hP ht hq
    exact ⟨_, exec_tokenGrant hP ht hq, State.updPart_only s part _ hP⟩
  · intro s g G r P hG hr hP hq ht hnone
    refine ⟨_, exec_tokenTimeout hG hr hP hq ht, ?_⟩
    rw [abortRegion_of_none hG hr hnone]
    refine ⟨State.updPart_mem _ _ _, fun h hne => ?_, abortGroup G r 8 0 0, State.look_setGroup_self _ _ _, rfl, rfl, rfl,
      fun i l hi hl => ?_, _, State.look_updPart_self (by exact hP) _, rfl⟩
    · rw [State.look_setGroup, if_neg hne, dropToken, State.updPart_groups]
    · refine ⟨abortLane r i l, ?_, rfl, rfl, rfl, rfl⟩
      rw [abortGroup_lane?, hl, Option.map_some, if_pos (List.contains_iff_mem.2 hi)]

end Sys2Proof.Machine
end

section
/-!
PROOF of GroupsGrowAndEnd (08 R188, R200, R201; 10 R230; 16 R354): growth granted or failed, and a group's end.
-/

namespace Sys2Proof.Machine

/-! ### A GROW that ends (08 R200) -/

/-- A lane whose GROW has ended with an answer. -/
def growLane (ok : Bool) (l : Lane) : Lane :=
  match l.block with
  | .grow pd => { ((l.setPred pd.toNat ok).shift (if ok then 1 else 0) false) with block := .free }
  | _ => l

theorem growDone_eq (G : Group) (ok : Bool) : growDone G ok = { G with grow := none, lanes := G.lanes.map (growLane ok) } := rfl

theorem growLane_of_grow {l : Lane} {pd : BitVec 4} (ok : Bool) (h : l.block = .grow pd) :
    growLane ok l = { ((l.setPred pd.toNat ok).shift (if ok then 1 else 0) false) with block := .free } := by
  unfold growLane
  rw [h]

theorem growLane_of_other {l : Lane} (ok : Bool) (h : ∀ pd, l.block ≠ .grow pd) : growLane ok l = l := by
  unfold growLane
  split
  · rename_i pd hb
    exact absurd hb (h pd)
  · rfl

/-- No GROW is left to end. -/
theorem growLane_growLane (ok ok' : Bool) (l : Lane) : growLane ok' (growLane ok l) = growLane ok l := by
  refine growLane_of_other ok' (fun pd hb => ?_)
  by_cases h : ∃ q, l.block = .grow q
  · obtain ⟨q, hq⟩ := h
    rw [growLane_of_grow ok hq] at hb
    cases hb
  · rw [growLane_of_other ok (fun q hq => h ⟨q, hq⟩)] at hb
    exact h ⟨pd, hb⟩

theorem growDone_growDone (G : Group) (ok ok' : Bool) : growDone (growDone G ok) ok' = growDone G ok := by
  simp only [growDone_eq, List.map_map, Function.comp_def, growLane_growLane]

theorem growDone_lane {G : Group} {i : Nat} {l : Lane} {pd : BitVec 4} (ok : Bool) (hl : G.lane? i = some l) (hb : l.block = .grow pd) :
    ∃ l', (growDone G ok).lane? i = some l' ∧ l'.block = .free ∧ l'.pc = l.pc ∧ l'.v = l.v ∧ (pd ≠ 15 → l'.pred pd.toNat = ok) := by
  refine ⟨growLane ok l, (List.getElem?_map ..).trans (congrArg _ hl), ?_⟩
  rw [growLane_of_grow ok hb, setPred_stays]
  refine ⟨rfl, rfl, rfl, fun hpd => ?_⟩
  have h15 : pd.toNat ≠ 15 := fun h => hpd (BitVec.eq_of_toNat_eq h)
  show (l.setPred pd.toNat ok).pred pd.toNat = ok
  rw [Lane.pred_setPred _ _ _ _ pd.isLt, if_pos ⟨rfl, h15⟩]

/-! ### A grant (08 R200, R201) -/

/-- Windows moved to their new bases. -/
def moveWindows (moved : List (Nat × Nat)) (s : State) : State :=
  moved.foldl (fun s m => s.updGroup m.1 (fun X => { X with win := m.2 })) s

/-- Windows that move change nothing else of their groups, and nothing else of the machine. -/
theorem moveWindows_rest (moved : List (Nat × Nat)) (s : State) :
    moveWindows moved s = { s with groups := (moveWindows moved s).groups } ∧
    ∀ h H, s.groups.look h = some H → ∃ H', (moveWindows moved s).groups.look h = some H' ∧ H' = { H with win := H'.win } := by
  induction moved generalizing s with
  | nil => exact ⟨rfl, fun h H hH => ⟨H, hH, rfl⟩⟩
  | cons m moved ih =>
    obtain ⟨hrest, hgroups⟩ := ih (s.updGroup m.1 (fun X => { X with win := m.2 }))
    have hcons : moveWindows (m :: moved) s = moveWindows moved (s.updGroup m.1 (fun X => { X with win := m.2 })) := rfl
    rw [hcons]
    refine ⟨?_, fun h H hH => ?_⟩
    · rw [hrest, State.updGroup_rest]
    · have hstep : ∃ H1, (s.updGroup m.1 (fun X => { X with win := m.2 })).groups.look h = some H1 ∧ H1 = { H with win := H1.win } := by
        rw [State.look_updGroup]
        split
        · rename_i hm
          rw [← hm, hH]
          exact ⟨_, rfl, rfl⟩
        · exact ⟨H, hH, rfl⟩
      obtain ⟨H1, h1, e1⟩ := hstep
      obtain ⟨H2, h2, e2⟩ := hgroups h H1 h1
      exact ⟨H2, h2, by rw [e2, e1]⟩

/-- A group granted a window of n registers a lane at b. -/
def grown (n b : Nat) (G : Group) : Group := { (growDone G true) with v := n, win := b }

theorem growTry_granted {s : State} {g n b : Nat} {G : Group} {moved : List (Nat × Nat)} (hG : s.groups.look g = some G)
    (hn : G.grow = some n) (hplace : growPlace s g G (page4 (n * G.w * 4)) = some (b, moved))
    (hwake : wakeStore s G.tile G.core (growRuns s b (page4 (n * G.w * 4)) moved) (page4 (n * G.w * 4) - G.winSize) = (s, true)) :
    growTry s g = some ((moveWindows moved s).updGroup g (grown n b)) := by
  unfold growTry
  simp only [hG, hn, hplace, hwake, Bool.not_true, Bool.false_eq_true, if_false]
  rfl

theorem exec_growGrant {s t : State} {tile core g : Nat} {G : Group}
    (hold : oldestOf ((coreGroups s tile core).filter (fun e => e.2.grow.isSome)) = some (g, G)) (hfrozen : G.frozen = false)
    (htry : growTry s g = some t) : exec (.growGrant tile core) s = .next t := by
  show execGrowGrant tile core s = _
  unfold execGrowGrant
  simp only [hold, hfrozen, htry, Bool.false_eq_true, if_false]

/-- A grant: the group grown, and other groups as they were but for their windows' places. -/
theorem grant_groups {s : State} {g : Nat} {G : Group} (n b : Nat) (moved : List (Nat × Nat)) (hG : s.groups.look g = some G) :
    let t := (moveWindows moved s).updGroup g (grown n b)
    t = { s with groups := t.groups } ∧ t.groups.look g = some (grown n b G) ∧
    ∀ h H, h ≠ g → s.groups.look h = some H → ∃ H', t.groups.look h = some H' ∧ H' = { H with win := H'.win } := by
  obtain ⟨hrest, hgroups⟩ := moveWindows_rest moved s
  refine ⟨by rw [State.updGroup_rest, hrest], ?_, fun h H hne hH => ?_⟩
  · obtain ⟨X, hX, e⟩ := hgroups g G hG
    rw [State.look_updGroup, if_pos rfl, hX, Option.map_some, e]
    rfl
  · rw [State.look_updGroup, if_neg hne]
    exact hgroups h H hH

/-! ### A core whose groups all wait for growth (08 R201) -/

/-- The requests of every group of a list but g fail. -/
def failOthers (g : Nat) (gs : List (Nat × Group)) (s : State) : State :=
  gs.foldl (fun s e => if e.1 = g then s else s.updGroup e.1 (fun G => growDone G false)) s

theorem failOthers_look_self (g : Nat) (gs : List (Nat × Group)) (s : State) : (failOthers g gs s).groups.look g = s.groups.look g := by
  induction gs generalizing s with
  | nil => rfl
  | cons e gs ih =>
    refine (ih _).trans ?_
    dsimp only
    split
    · rfl
    · rename_i he
      rw [State.look_updGroup, if_neg (Ne.symm he)]

theorem failOthers_look {g h : Nat} (hne : h ≠ g) (gs : List (Nat × Group)) (s : State) :
    (failOthers g gs s).groups.look h =
      if h ∈ gs.map Prod.fst then (s.groups.look h).map (fun G => growDone G false) else s.groups.look h := by
  induction gs generalizing s with
  | nil => rfl
  | cons e gs ih =>
    have hcons : failOthers g (e :: gs) s = failOthers g gs (if e.1 = g then s else s.updGroup e.1 (fun G => growDone G false)) := rfl
    rw [hcons, ih]
    simp only [List.map_cons, List.mem_cons]
    by_cases heh : h = e.1
    · rw [if_neg (fun he => hne (heh.trans he)), State.look_updGroup, if_pos heh, ← heh, if_pos (Or.inl rfl), Option.map_map]
      split
      · simp only [Function.comp_def, growDone_growDone]
      · rfl
    · have hstep : (if e.1 = g then s else s.updGroup e.1 (fun G => growDone G false)).groups.look h = s.groups.look h := by
        split
        · rfl
        · rw [State.look_updGroup, if_neg heh]
      simp only [hstep, heh, false_or]

/-- The groups of a core that are not frozen. -/
def thawed (s : State) (tile core : Nat) : List (Nat × Group) := (coreGroups s tile core).filter (fun e => !e.2.frozen)

theorem mem_thawed {s : State} {tile core h : Nat} {H : Group} (hH : s.groups.look h = some H) (ht : H.tile = tile) (hc : H.core = core)
    (hf : H.frozen = false) : h ∈ (thawed s tile core).map Prod.fst := by
  refine List.mem_map.2 ⟨(h, H), ?_, rfl⟩
  unfold thawed coreGroups
  simp only [List.mem_filter, FMap.mem_of_look hH, ht, hc, hf, beq_self_eq_true, Bool.and_self, Bool.not_false, and_self]

/-- The oldest group's request granted, begun, or failed: the state from which the others' requests fail. -/
def resolveOldest (s : State) (g : Nat) : State := (growTry s g).getD (s.updGroup g (fun G => growDone G false))

theorem exec_growDeadlock {s : State} {tile core g : Nat} {G : Group} (hall : (thawed s tile core).all (fun e => growBlocked e.2) = true)
    (hold : oldestOf (thawed s tile core) = some (g, G)) :
    exec (.growDeadlockResolve tile core) s = .next (
      if ((resolveOldest s g).groups.look g).any (fun X => X.grow.isSome) then resolveOldest s g
      else failOthers g (thawed s tile core) (resolveOldest s g)) := by
  unfold thawed at hall hold
  show execGrowDeadlockResolve tile core s = _
  unfold execGrowDeadlockResolve resolveOldest
  simp only [hall, hold]
  cases growTry s g <;> exact (apply_ite Host.Outcome.next _ _ _).symm

/-! ### The end of a group (08 R188; 10 R230; 16 R354) -/

theorem putRecord_memOnly (n : Nat) (s : State) (r : Ring) (b : List Byte) : MemOnly s (putRecord n s r b).1 :=
  State.writeBytes_memOnly _ _ _

theorem signalVf_rest (s : State) (p : Nat) (a b : Ring) : signalVf s p a b = { s with out := (signalVf s p a b).out } := by
  unfold signalVf
  split <;> rfl

/-- A partition event record: one more in the log; groups, launches and cores stay. -/
theorem postEvent_logged {s : State} {p : Nat} {P : Part} (etype : Nat) (body : List Byte) (h : s.parts.look p = some P) :
    (s.postEvent p etype body).groups = s.groups ∧ (s.postEvent p etype body).launches = s.launches ∧
    (s.postEvent p etype body).cores = s.cores ∧
    ∃ P', (s.postEvent p etype body).parts.look p = some P' ∧ P'.log.length = P.log.length + 1 := by
  unfold State.postEvent
  simp only [h]
  have ha := Ring.give_memOnly (putRecord_memOnly 32) s P.eventPf (eventRecord s.clock etype body P.evSeq)
  generalize Ring.give (putRecord 32) s P.eventPf (eventRecord s.clock etype body P.evSeq) = a at ha ⊢
  have hb := ha.trans (Ring.give_memOnly (putRecord_memOnly 32) a.1 P.eventVf (eventRecord s.clock etype body P.evSeq))
  generalize Ring.give (putRecord 32) a.1 P.eventVf (eventRecord s.clock etype body P.evSeq) = b at hb ⊢
  have hparts : b.1.parts.look p = some P := by rw [hb]; exact h
  rw [signalVf_rest, State.updPart_rest]
  refine ⟨by rw [hb], by rw [hb], by rw [hb], _, State.look_updPart_self hparts _, ?_⟩
  exact List.length_append

/-- One record for each error that no WAITC covered. -/
theorem postErrors_logged {p : Nat} (body : EngErr → List Byte) (errs : List EngErr) {s : State} {P : Part} (h : s.parts.look p = some P) :
    let t := errs.foldl (fun (s : State) e => s.postEvent p 4 (body e)) s
    t.groups = s.groups ∧ t.launches = s.launches ∧ t.cores = s.cores ∧
    ∃ P', t.parts.look p = some P' ∧ P'.log.length = P.log.length + errs.length := by
  induction errs generalizing s P with
  | nil => exact ⟨rfl, rfl, rfl, P, h, rfl⟩
  | cons e errs ih =>
    obtain ⟨hg, hl, hc, P1, h1, hlen1⟩ := postEvent_logged 4 (body e) h
    obtain ⟨hg', hl', hc', P2, h2, hlen2⟩ := ih h1
    exact ⟨hg'.trans hg, hl'.trans hl, hc'.trans hc, P2, h2, by rw [hlen2, hlen1, List.length_cons, Nat.add_assoc, Nat.add_comm 1]⟩

/-- A launch without MAPS entries on a core leaves it: of the groups, only whether they are frozen may change (17 R365). -/
theorem leaveCore_rest {s : State} {lid tile core : Nat} (hmaps : ∀ m ∈ (s.coreAt tile core).maps, m.2.launch ≠ lid) :
    (leaveCore s lid tile core).parts = s.parts ∧ (leaveCore s lid tile core).launches = s.launches ∧
    ∀ h, ∃ fr : Group → Bool, (leaveCore s lid tile core).groups.look h =
      (s.groups.look h).map (fun G => { G with frozen := fr G }) := by
  have hsame : ∀ (m : FMap Group) (h : Nat), m.look h = (m.look h).map (fun G => { G with frozen := G.frozen }) := fun m h => by
    cases m.look h <;> rfl
  unfold leaveCore
  set s1 := if (coreGroups s tile core).isEmpty then s.updCore tile core (fun c => { c with since := [] }) else s with hs1
  have hrest : s1.parts = s.parts ∧ s1.launches = s.launches ∧ s1.groups = s.groups := by
    rw [hs1]
    split <;> exact ⟨rfl, rfl, rfl⟩
  have hnone : (s1.coreAt tile core).maps.filter (fun e => e.2.launch == lid) = [] := by
    have heq : (s1.coreAt tile core).maps = (s.coreAt tile core).maps := by
      rw [hs1]
      split
      · rw [State.coreAt_updCore]
      · rfl
    rw [heq]
    exact List.filter_eq_nil_iff.2 (fun m hm => by simpa using hmaps m hm)
  obtain ⟨hp, hl, hg⟩ := hrest
  dsimp only
  rw [hnone, List.foldl_nil]
  split
  · exact ⟨hp, hl, fun h => ⟨_, by rw [hg]; exact hsame _ _⟩⟩
  · split
    · exact ⟨hp, hl, fun h => ⟨_, by rw [hg]; exact hsame _ _⟩⟩
    · refine ⟨hp, hl, fun h => ⟨fun G => if G.tile = tile ∧ G.core = core ∧ (s1.coreAt tile core).given.contains G.slot then false
        else G.frozen, ?_⟩⟩
      rw [FMap.look_mapV, State.setCore_groups, hg]
      congr 1
      funext G
      by_cases hthaw : G.tile = tile ∧ G.core = core ∧ (s1.coreAt tile core).given.contains G.slot
      · simp only [if_pos hthaw]
      · simp only [if_neg hthaw]

/-- What the launch keeps of a group that has ended, and the first of the errors that no WAITC covered. -/
def keepsEnded (s : State) (G : Group) (L : Launch) : Launch :=
  { L with
    engErr := match L.engErr with | some c => some c | none => G.errs.head?.map EngErr.code,
    ended := L.ended ++ [(G.tile, G.core, G.win, G.winSize, G.t * G.w * 128)],
    times := L.times.setAt G.tile ((match L.times.look G.tile with | some q => q.1 | none => s.clock), s.clock) }

/-- The state in which a group that ends has posted its errors and left its launch. -/
def groupLeft (s : State) (g : Nat) (G : Group) (L : Launch) : State :=
  let s2 := (G.errs.foldl (fun (s : State) e => s.postEvent L.part 4 (errBody L G e)) s).updLaunch G.launch (keepsEnded s G)
  { s2 with groups := s2.groups.remove g }

theorem exec_groupEnd {s : State} {g : Nat} {G : Group} {L : Launch} (hG : s.groups.look g = some G) (hover : groupOver s g G = true)
    (hL : s.launches.look G.launch = some L) :
    exec (.groupEnd g) s = .next (leaveCore (groupLeft s g G L) G.launch G.tile G.core) := by
  show execGroupEnd g s = _
  unfold execGroupEnd
  simp only [hG, hover, Bool.not_true, Bool.false_eq_true, if_false, State.launchOf, hL]
  rfl

theorem keepsEnded_engErr (s : State) (G : Group) (L : Launch) :
    (keepsEnded s G L).engErr = if L.engErr.isSome then L.engErr else G.errs.head?.map EngErr.code := by
  unfold keepsEnded
  cases L.engErr <;> rfl

/-- Settles O38: a grant, a core's deadlock resolved, what a GROW's end does, and a group's end. -/
theorem groupsGrowAndEnd : Obligations.GroupsGrowAndEnd := by
  unfold Obligations.GroupsGrowAndEnd
  refine ⟨⟨?_, ?_, ?_⟩, ?_⟩
  · intro s tile core g n b G moved hG hold hfrozen hn hplace hwake
    exact ⟨_, exec_growGrant hold hfrozen (growTry_granted hG hn hplace hwake), grant_groups n b moved hG⟩
  · intro s tile core g G gs hall hold
    refine ⟨_, exec_growDeadlock hall hold, fun hnone h H hH ht hc hf => ?_, fun s1 hsome => ?_⟩
    · have hfail : resolveOldest s g = s.updGroup g (fun G => growDone G false) := by rw [resolveOldest, hnone, Option.getD_none]
      have hended : ((resolveOldest s g).groups.look g).any (fun X => X.grow.isSome) = false := by
        rw [hfail, State.look_updGroup, if_pos rfl]
        cases s.groups.look g <;> rfl
      rw [hended, if_neg (by decide), hfail]
      by_cases hg : h = g
      · rw [hg, failOthers_look_self, State.look_updGroup, if_pos rfl, ← hg, hH, Option.map_some]
      · rw [failOthers_look hg, if_pos (mem_thawed hH ht hc hf), State.look_updGroup, if_neg hg, hH, Option.map_some]
    · have htry : resolveOldest s g = s1 := by rw [resolveOldest, hsome, Option.getD_some]
      rw [htry]
      refine ⟨fun hwaits => if_pos hwaits, fun hended => ?_⟩
      rw [hended, if_neg (by decide)]
      refine ⟨failOthers_look_self _ _ _, fun h H H1 hg hH ht hc hf hH1 => ?_⟩
      rw [failOthers_look hg, if_pos (mem_thawed hH ht hc hf), hH1, Option.map_some]
  · exact fun G ok => ⟨rfl, rfl, rfl, fun i l pd hl hb => growDone_lane ok hl hb⟩
  · intro s g G L P hG hover hL hP hmaps
    obtain ⟨hgroups, hlaunches, hcores, P', hP', hlen⟩ := postErrors_logged (errBody L G) G.errs hP
    have hleft : ∀ h, (groupLeft s g G L).groups.look h = if h = g then none else s.groups.look h := fun h => by
      unfold groupLeft
      dsimp only
      rw [FMap.look_remove, State.updLaunch_groups, hgroups]
    have hmaps1 : ∀ m ∈ ((groupLeft s g G L).coreAt G.tile G.core).maps, m.2.launch ≠ G.launch := by
      have hcore : (groupLeft s g G L).coreAt G.tile G.core = s.coreAt G.tile G.core := by
        unfold groupLeft State.coreAt
        dsimp only
        rw [State.updLaunch_cores, hcores]
      rw [hcore]
      exact hmaps
    obtain ⟨hparts2, hlaunches2, hgroups2⟩ := leaveCore_rest hmaps1
    refine ⟨_, exec_groupEnd hG hover hL, ?_, fun h H hne hH => ?_, ⟨P', ?_, hlen⟩, keepsEnded s G L, ?_, rfl, rfl,
      keepsEnded_engErr s G L⟩
    · obtain ⟨fr, hfr⟩ := hgroups2 g
      rw [hfr, hleft, if_pos rfl, Option.map_none]
    · obtain ⟨fr, hfr⟩ := hgroups2 h
      rw [hfr, hleft, if_neg hne, hH]
      exact ⟨_, rfl, rfl⟩
    · rw [hparts2]
      unfold groupLeft
      exact (congrArg (fun m : FMap Part => m.look L.part) (State.updLaunch_parts _ _ _)).trans hP'
    · rw [hlaunches2]
      unfold groupLeft
      refine (State.look_updLaunch _ _ _ _).trans ?_
      rw [if_pos rfl, hlaunches, hL, Option.map_some]

end Sys2Proof.Machine
end

section
/-!
PROOF of QueuesTakeRecords (08 R198, R199; 16 R346 to R348, R362): the host's writes to a queue, and an ENQ at the dispatcher.
-/

namespace Sys2Proof.Machine

/-! ### A queue of a partition changed -/

/-- A partition with one queue set. -/
def Part.withQueue (q : Nat) (Q : Queue) (P : Part) : Part := { P with queues := P.queues.setAt q Q }

theorem Part.queue_withQueue (q : Nat) (Q : Queue) (P : Part) (k : Nat) : (P.withQueue q Q).queue k = if k = q then Q else P.queue k :=
  FMap.lookD_setAt _ _ _ _ _

theorem Part.queue_withQueue_self (q : Nat) (Q : Queue) (P : Part) : (P.withQueue q Q).queue q = Q :=
  (Part.queue_withQueue q Q P q).trans (if_pos rfl)

theorem State.updQueue_only (s : State) (p q : Nat) (f : Queue → Queue) {P : Part} (h : s.parts.look p = some P) :
    OnlyPart s (s.updQueue p q f) p P (P.withQueue q (f (P.queue q))) := State.updPart_only s p _ h

@[simp] theorem State.updQueue_launches (s : State) (p q : Nat) (f : Queue → Queue) : (s.updQueue p q f).launches = s.launches :=
  State.updPart_launches _ _ _
@[simp] theorem State.updQueue_groups (s : State) (p q : Nat) (f : Queue → Queue) : (s.updQueue p q f).groups = s.groups :=
  State.updPart_groups _ _ _
@[simp] theorem State.updQueue_mem (s : State) (p q : Nat) (f : Queue → Queue) : (s.updQueue p q f).mem = s.mem := State.updPart_mem _ _ _

/-! ### The host's writes (16 R346 to R348) -/

/-- Two's complement of 64 bits (04 R97). -/
theorem valOf_toNat (v : BitVec 64) : valOf true 64 v.toNat = v.toInt := by
  have hlt : v.toNat < 2 ^ 64 := v.isLt
  rw [BitVec.toInt_eq_toNat_cond, valOf, Nat.mod_eq_of_lt hlt]
  by_cases h : 2 * v.toNat < 2 ^ 64
  · have hsign : ¬ 2 ^ (64 - 1) ≤ v.toNat := by omega
    simp only [hsign, h, decide_false, Bool.and_false, Bool.false_eq_true, if_false, if_true]
  · have hsign : 2 ^ (64 - 1) ≤ v.toNat := by omega
    simp only [hsign, h, decide_true, Bool.and_self, if_true, if_false]

section
variable {s : State} {part q : Nat} {P : Part} (hP : s.parts.look part = some P) (hq : q < 64)
include hP hq

theorem tailNow_only {lv : Nat} (v : BitVec 32) (hlv : lv < 4) :
    let Q := P.queue q
    let l := Q.lvl lv
    let ok := Q.en && !Q.dev && decide (diff32 v.toNat l.head ≤ Q.entries) && decide (diff32 v.toNat l.tail ≤ Q.entries)
    OnlyPart s (tailNow part q lv v s) part P
      (if ok then { P with queues := P.queues.setAt q (Q.setLvl lv { l with tail := v.toNat }), appended := P.appended ++ hostAppends Q q lv v.toNat }
        else { P with queues := P.queues.setAt q { Q with badtail := true } }) := by
  have hin : ¬ (64 ≤ q ∨ 4 ≤ lv) := by omega
  intro Q l ok
  have honly := State.updPart_only s part (fun P =>
    if 64 ≤ q ∨ 4 ≤ lv then P
    else
      let Q := P.queue q
      let l := Q.lvl lv
      if Q.en && !Q.dev && decide (diff32 v.toNat l.head ≤ Q.entries) && decide (diff32 v.toNat l.tail ≤ Q.entries) then
        { P with queues := P.queues.setAt q (Q.setLvl lv { l with tail := v.toNat }), appended := P.appended ++ hostAppends Q q lv v.toNat }
      else { P with queues := P.queues.setAt q { Q with badtail := true } }) hP
  rw [if_neg hin] at honly
  exact honly

theorem qbaddNow_only (v : BitVec 64) :
    OnlyPart s (qbaddNow part q v s) part P
      (P.withQueue q { P.queue q with budget := budgetAdd (P.queue q).budget v.toInt }) := by
  unfold qbaddNow
  rw [if_neg (Nat.not_le.2 hq), ← valOf_toNat]
  exact State.updQueue_only s part q _ hP

theorem queueControlNow_only {v : BitVec 64} (hen : (P.queue q).en = false) (h1 : bitsN v.toNat 63 19 = 0) (h2 : bitsN v.toNat 15 12 = 0)
    (h3 : bitsN v.toNat 7 2 = 0) :
    OnlyPart s (queueControlNow part q 0 v s) part P (P.withQueue q
      { P.queue q with en := bitN v.toNat 0, dev := bitN v.toNat 1, log2n := max 2 (min 12 (bitsN v.toNat 11 8)), set := bitsN v.toNat 18 16 }) := by
  unfold queueControlNow
  simp only [hP, if_neg (Nat.not_le.2 hq), h1, h2, h3, hen, bne_self_eq_false, Bool.or_self, Bool.false_eq_true, if_false, if_true]
  exact State.updQueue_only s part q _ hP

end

/-! ### A queue disabled (16 R362) -/

/-- A task that has ended without running, its charge returned. -/
def Task.ended (status : Nat) (u : Task) : Task := { u with charged := 0, fin := some (statusWord status 0 0 0) }

/-- Tasks of some numbers ended: the others, the appended records and whether a queue is enabled stay. -/
theorem endTasks_rest (p st : Nat) (ks : List Nat) {s : State} {P : Part} (hP : s.parts.look p = some P) :
    let t := ks.foldl (fun s k => endTask s p k st) s
    t = { s with parts := t.parts } ∧ ∃ P', t.parts.look p = some P' ∧ P'.appended = P.appended ∧
      (∀ k, (P'.queue k).en = (P.queue k).en) ∧
      ∀ k u, P.tasks.look k = some u → P'.tasks.look k = some (if k ∈ ks then u.ended st else u) := by
  induction ks generalizing s P with
  | nil => exact ⟨rfl, P, hP, rfl, fun _ => rfl, fun k u hu => by simpa using hu⟩
  | cons j ks ih =>
    have hstep : endTask s p j st = { s with parts := (endTask s p j st).parts } ∧ ∃ P1, (endTask s p j st).parts.look p = some P1 ∧
        P1.appended = P.appended ∧ (∀ k, (P1.queue k).en = (P.queue k).en) ∧
        ∀ k u, P.tasks.look k = some u → P1.tasks.look k = some (if k = j then u.ended st else u) := by
      unfold endTask
      simp only [hP]
      cases hj : P.tasks.look j with
      | none =>
        refine ⟨rfl, P, hP, rfl, fun _ => rfl, fun k u hu => ?_⟩
        rw [if_neg (fun hk => by rw [hk, hj] at hu; cases hu), hu]
      | some t =>
        have honly := State.updPart_updPart_only s p
          (fun P => { P with queues := P.queues.setAt t.q { P.queue t.q with budget := budgetAdd (P.queue t.q).budget (t.charged : Int) } })
          (fun P => { P with tasks := P.tasks.setAt j { t with charged := 0, fin := some (statusWord st 0 0 0) } }) hP
        refine ⟨honly.rest, _, honly.after, rfl, fun k => ?_, fun k u hu => ?_⟩
        · refine (congrArg Queue.en (Part.queue_withQueue t.q _ P k)).trans ?_
          split
          · rename_i hk
            rw [hk]
          · rfl
        · refine (FMap.look_setAt _ _ _ _).trans ?_
          split
          · rename_i hk
            rw [hk, hj] at hu
            rw [← Option.some.inj hu]
            rfl
          · exact hu
    obtain ⟨hrest, P1, h1, happ, hen, htasks⟩ := hstep
    obtain ⟨hrest', P2, h2, happ', hen', htasks'⟩ := ih h1
    refine ⟨?_, P2, h2, happ'.trans happ, fun k => (hen' k).trans (hen k), fun k u hu => ?_⟩
    · rw [List.foldl_cons, hrest', hrest]
    · rw [htasks' k _ (htasks k u hu)]
      by_cases hj : k = j
      · simp only [hj, List.mem_cons, true_or, if_true]
        split <;> rfl
      · simp only [hj, List.mem_cons, false_or, if_false]

/-- The numbers of a queue's tasks that have neither started nor ended. -/
def waitingOf (P : Part) (q : Nat) : List Nat := (P.tasks.filter (fun e => e.2.q == q && e.2.launch.isNone && e.2.fin.isNone)).map Prod.fst

theorem mem_waitingOf {P : Part} {q k : Nat} {u : Task} (hu : P.tasks.look k = some u) (hq : u.q = q) (hl : u.launch = none)
    (hf : u.fin = none) : k ∈ waitingOf P q := by
  refine List.mem_map.2 ⟨(k, u), ?_, rfl⟩
  simp only [List.mem_filter, FMap.mem_of_look hu, hq, hl, hf, beq_self_eq_true, Option.isNone_none, Bool.and_self, and_self]

theorem disableQueue_cancels {s : State} {part q : Nat} {P : Part} (hP : s.parts.look part = some P) (hen : (P.queue q).en = true) :
    let t := disableQueue s part q
    ∃ P', t.parts.look part = some P' ∧ (P'.queue q).en = false ∧
      P'.appended = P.appended.map (fun a => if a.q = q then { a with cancelled := true } else a) ∧ t = { s with parts := t.parts } ∧
      ∀ k u, P.tasks.look k = some u → u.q = q → u.launch = none → u.fin = none → P'.tasks.look k = some (u.ended 9) := by
  have hoff := State.updQueue_only s part q (fun Q => { Q with en := false }) hP
  obtain ⟨hrest, P1, h1, happ, hen1, htasks⟩ := endTasks_rest part 9 (waitingOf P q) hoff.after
  have hdisable : disableQueue s part q = State.updPart ((waitingOf P q).foldl (fun s k => endTask s part k 9)
      (s.updQueue part q (fun Q => { Q with en := false }))) part
      (fun P => { P with appended := P.appended.map (fun a => if a.q = q then { a with cancelled := true } else a) }) := by
    unfold disableQueue cancelQueue waitingOf
    simp only [hP, hen, if_true, hoff.after, List.foldl_map]
    rfl
  rw [hdisable]
  refine ⟨_, State.look_updPart_self h1 _, ?_, ?_, ?_, fun k u hu hq hl hf => ?_⟩
  · refine (hen1 q).trans ?_
    rw [Part.queue_withQueue_self]
  · show P1.appended.map _ = _
    rw [happ]
    rfl
  · rw [State.updPart_rest, hrest, hoff.rest]
  · exact (htasks k u hu).trans (congrArg some (if_pos (mem_waitingOf hu hq hl hf)))

/-! ### An ENQ answered (08 R184, R198) -/

theorem enqDone_answered (s : State) (g : Nat) (e : EnqReq) (st : Nat) : EnqAnswered s (enqDone s g e st) g e st := by
  intro G hG
  refine ⟨_, by rw [enqDone, State.look_updGroup, if_pos rfl, hG, Option.map_some], ?_, fun hnw hsd => ?_, fun i l hl => ?_⟩
  · cases e.nw
    · exact congrArg Group.enq (setS_stays _ _ _ _)
    · rfl
  · have h0 : e.sd.toNat ≠ 0 := fun h => hsd (BitVec.eq_of_toNat_eq h)
    rw [sreg_updLanes, hnw, if_neg (by decide), sreg_setS, if_pos ⟨rfl, h0⟩]
  · have hlane : (if e.nw then { G with enq := none } else
        Group.setS { G with enq := none } e.sd.toNat (BitVec.ofNat 64 st) false).lane? i = some l := by
      cases e.nw
      · exact (setS_lane? _ _ _ _ _).trans hl
      · exact hl
    rw [Group.lane?_updLanes, hlane, Option.map_some]
    refine ⟨_, rfl, ?_, fun hi => if_neg (fun h => hi (List.contains_iff_mem.1 h)), fun hi => ?_⟩
    · split
      · rw [setPred_stays]; rfl
      · rfl
    · rw [if_pos (List.contains_iff_mem.2 hi), setPred_stays]
      refine ⟨rfl, fun hpd => ?_⟩
      have h15 : e.pd.toNat ≠ 15 := fun h => hpd (BitVec.eq_of_toNat_eq h)
      show (l.setPred e.pd.toNat (st == 0)).pred e.pd.toNat = (st == 0)
      rw [Lane.pred_setPred _ _ _ _ e.pd.isLt, if_pos ⟨rfl, h15⟩]

@[simp] theorem enqDone_mem (s : State) (g : Nat) (e : EnqReq) (st : Nat) : (enqDone s g e st).mem = s.mem := State.updGroup_mem _ _ _
@[simp] theorem enqDone_parts (s : State) (g : Nat) (e : EnqReq) (st : Nat) : (enqDone s g e st).parts = s.parts :=
  State.updGroup_parts _ _ _

theorem EnqAnswered.of_groups {s s' t : State} {g st : Nat} {e : EnqReq} (h : s'.groups = s.groups) (ha : EnqAnswered s' t g e st) :
    EnqAnswered s t g e st := by
  unfold EnqAnswered at ha ⊢
  rwa [h] at ha

/-! ### An ENQ at the dispatcher (08 R198, R199) -/

/-- The state in which an ENQ that has passed its checks is charged. -/
def enqCharge (s : State) (p g : Nat) (e : EnqReq) : State :=
  (s.updQueue p e.q.toNat (fun Q => { Q with budget := Q.budget - ((recOf e.bytes).cost : Int) })).updGroup g
    (fun G => { G with enq := some { e with charged := true } })

/-- The write of an ENQ's record depends on the queue's level and whether it is enabled, not on its budget. -/
theorem enqAppend_of_budget {s : State} {g p : Nat} {G G' : Group} {P P' : Part} {e : EnqReq} {b : Int} (hG : G'.launch = G.launch)
    (hQ : P'.queue e.q.toNat = { P.queue e.q.toNat with budget := b }) : enqAppend s g p G' P' e = enqAppend s g p G P e := by
  unfold enqAppend
  dsimp only
  rw [hQ, hG]
  rfl

section
variable {s : State} {g : Nat} {G : Group} {e : EnqReq} {P : Part}
variable (hG : s.groups.look g = some G) (he : G.enq = some e) (hP : s.partOf G = some P)
include hG he hP

theorem exec_enq_charged (hc : e.charged = true) :
    exec (.enqAtDispatcher g) s = .next (enqAppend s g (s.partNo G) G P e) := by
  show execEnqAtDispatcher g s = _
  unfold execEnqAtDispatcher
  simp only [hG, he, hP, hc, if_true]

section
variable (hc : e.charged = false) (hgo : P.stopped = false) (hheld : enqHeld s (s.partNo G) g e = false) (hend : G.ending = false)
variable (hslg : (G.lanes.all Lane.exited && slgHolds s g G (List.range G.lanes.length)) = false)
include hc hgo hheld hend hslg

theorem exec_enq_reread (hagain : e.again = true) {s1 : State} {e1 : EnqReq} (hread : enqReread s g G e = (s1, some e1)) :
    exec (.enqAtDispatcher g) s = .next (s1.updGroup g (fun G => { G with enq := some e1 })) := by
  show execEnqAtDispatcher g s = _
  unfold execEnqAtDispatcher
  simp only [hG, he, hP, hc, hgo, hheld, hend, hslg, hagain, hread, Bool.or_self, Bool.false_eq_true, if_false, if_true]

theorem exec_enq_refused (hagain : e.again = false) {st : Nat} (hst : enqStatus P e (recOf e.bytes) = some st) :
    exec (.enqAtDispatcher g) s = .next (enqDone
      (if st = 2 then s.updQueue (s.partNo G) e.q.toNat (fun Q => { Q with fulldrop := true }) else s) g e st) := by
  show execEnqAtDispatcher g s = _
  unfold execEnqAtDispatcher
  simp only [hG, he, hP, hc, hgo, hheld, hend, hslg, hagain, hst, Bool.or_self, Bool.false_eq_true, if_false]

theorem exec_enq_passes (hagain : e.again = false) (hst : enqStatus P e (recOf e.bytes) = none) :
    exec (.enqAtDispatcher g) s = .next (enqAppend (enqCharge s (s.partNo G) g e) g (s.partNo G) G P { e with charged := true }) := by
  show execEnqAtDispatcher g s = _
  unfold execEnqAtDispatcher enqCharge
  simp only [hG, he, hP, hc, hgo, hheld, hend, hslg, hagain, hst, Bool.or_self, Bool.false_eq_true, if_false]

/-- An ENQ that passes is charged at once, and goes on as one charged before. -/
theorem exec_enq_charges (hagain : e.again = false) (hst : enqStatus P e (recOf e.bytes) = none) :
    exec (.enqAtDispatcher g) s = exec (.enqAtDispatcher g) (enqCharge s (s.partNo G) g e) := by
  have hgroup : (enqCharge s (s.partNo G) g e).groups.look g = some { G with enq := some { e with charged := true } } := by
    rw [enqCharge, State.look_updGroup, if_pos rfl, State.updQueue_groups, hG, Option.map_some]
  have hno : (enqCharge s (s.partNo G) g e).partNo { G with enq := some { e with charged := true } } = s.partNo G := by
    unfold State.partNo State.launchOf enqCharge
    rw [State.updGroup_launches, State.updQueue_launches]
  have hpart : (enqCharge s (s.partNo G) g e).partOf { G with enq := some { e with charged := true } } =
      some (P.withQueue e.q.toNat { P.queue e.q.toNat with budget := (P.queue e.q.toNat).budget - ((recOf e.bytes).cost : Int) }) := by
    unfold State.partOf
    rw [hno, enqCharge, State.updGroup_parts]
    exact (State.updQueue_only s (s.partNo G) e.q.toNat _ hP).after
  rw [exec_enq_passes hG he hP hc hgo hheld hend hslg hagain hst, exec_enq_charged hgroup rfl hpart rfl, hno]
  exact congrArg _ (enqAppend_of_budget rfl (Part.queue_withQueue_self _ _ _)).symm

end
end

section
variable {s s1 : State} {g p : Nat} {G : Group} {P P1 : Part} {e : EnqReq}

/-- Where the record of an ENQ goes: the index and the address of the ring slot at TAIL. -/
def enqIdx (P : Part) (e : EnqReq) : Nat := ((P.queue e.q.toNat).lvl e.level).tail
def enqSlot (P : Part) (e : EnqReq) : Nat := (P.queue e.q.toNat).slotVa e.level (enqIdx P e)

/-- A record's write whose fault is answered later leaves the ENQ as it is. -/
theorem enqAppend_held (hw : dispWrite s p (enqSlot P e) e.bytes = (s1, .error .wait)) : enqAppend s g p G P e = s1 := by
  unfold enqSlot enqIdx at hw
  unfold enqAppend
  simp only [hw]

/-- A record's write that is refused returns the charge. -/
theorem enqAppend_refused (hw : dispWrite s p (enqSlot P e) e.bytes = (s1, .error .fail)) (h1 : s1.parts.look p = some P1) :
    let t := enqAppend s g p G P e
    EnqAnswered s1 t g e 5 ∧ t.mem = s1.mem ∧ ∃ P', t.parts.look p = some P' ∧ P'.appended = P1.appended ∧
      (P'.queue e.q.toNat).budget = budgetAdd (P1.queue e.q.toNat).budget ((recOf e.bytes).cost : Int) := by
  have happend : enqAppend s g p G P e = enqDone (s1.updQueue p e.q.toNat
      (fun Q => { Q with budget := budgetAdd Q.budget ((recOf e.bytes).cost : Int) })) g e 5 := by
    unfold enqSlot enqIdx at hw
    unfold enqAppend
    simp only [hw]
  rw [happend]
  refine ⟨EnqAnswered.of_groups (State.updQueue_groups _ _ _ _) (enqDone_answered _ g e 5), ?_,
    P1.withQueue e.q.toNat { P1.queue e.q.toNat with budget := budgetAdd (P1.queue e.q.toNat).budget ((recOf e.bytes).cost : Int) }, ?_, rfl, ?_⟩
  · rw [enqDone_mem, State.updQueue_mem]
  · rw [enqDone_parts]
    exact (State.updQueue_only s1 p _ _ h1).after
  · rw [Part.queue_withQueue_self]

/-- The appended record of an ENQ. -/
def enqRecord (G : Group) (P : Part) (e : EnqReq) : Append :=
  { q := e.q.toNat, level := e.level, idx := enqIdx P e, va := enqSlot P e, parent := some G.launch, cost := (recOf e.bytes).cost,
    cancelled := !(P.queue e.q.toNat).en, passed := false }

/-- A record written is appended, TAIL rises, and its charge counts. -/
theorem enqAppend_written (hw : dispWrite s p (enqSlot P e) e.bytes = (s1, .ok ())) (h1 : s1.parts.look p = some P1) :
    let t := enqAppend s g p G P e
    EnqAnswered s1 t g e 0 ∧ t.mem = s1.mem ∧ ∃ P', t.parts.look p = some P' ∧
      P'.queue e.q.toNat = (P1.queue e.q.toNat).setLvl e.level { (P1.queue e.q.toNat).lvl e.level with tail := (enqIdx P e + 1) % 2 ^ 32 } ∧
      P'.enqc = P1.enqc + (recOf e.bytes).cost ∧ P'.appended = P1.appended ++ [enqRecord G P e] := by
  have happend : enqAppend s g p G P e = enqDone (State.updPart
      (s1.updQueue p e.q.toNat (fun Q => Q.setLvl e.level { (Q.lvl e.level) with tail := (enqIdx P e + 1) % 2 ^ 32 })) p
      (fun P' => { P' with appended := P'.appended ++ [enqRecord G P e], enqc := P'.enqc + (recOf e.bytes).cost })) g e 0 := by
    unfold enqRecord enqSlot enqIdx at *
    unfold enqAppend
    simp only [hw]
  rw [happend]
  refine ⟨EnqAnswered.of_groups ?_ (enqDone_answered _ g e 0), ?_, ?part, ?after, ?holds⟩
  case after =>
    rw [enqDone_parts]
    exact State.look_updPart_self (State.updQueue_only s1 p _ _ h1).after _
  case holds => exact ⟨Part.queue_withQueue_self _ _ P1, rfl, rfl⟩
  · rw [State.updPart_groups, State.updQueue_groups]
  · rw [enqDone_mem, State.updPart_mem, State.updQueue_mem]

end

/-- Settles O39: the host's writes to a queue, and an ENQ at the dispatcher by its checks and by how its write ends. -/
theorem queuesTakeRecords : Obligations.QueuesTakeRecords := by
  unfold Obligations.QueuesTakeRecords
  refine ⟨?_, ?_⟩
  · intro s part q P hP hq Q
    refine ⟨fun lv v hlv => ⟨_, rfl, tailNow_only hP hq v hlv⟩, fun v => ⟨_, rfl, _, qbaddNow_only hP hq v, rfl, ?_, ?_, fun k hk => ?_⟩,
      fun v hen h1 h2 h3 => ⟨_, rfl, _, queueControlNow_only hP hq hen h1 h2 h3, rfl, Part.queue_withQueue_self _ _ _⟩, fun hen => ?_⟩
    · rw [Part.queue_withQueue_self]
      rfl
    · rw [Part.queue_withQueue_self]
    · rw [Part.queue_withQueue, if_neg hk]
    · obtain ⟨P', hP', hoff, happ, hrest, htasks⟩ := disableQueue_cancels hP hen
      exact ⟨_, rfl, P', hP', hoff, happ, hrest, fun k u hu hq hl hf => ⟨_, htasks k u hu hq hl hf, rfl⟩⟩
  · intro s g G e P hG he hP p q r idx turn
    refine ⟨fun hc hturn hagain s1 e1 hread => ?_, fun hc hturn hagain st hst => ?_, fun hc hturn hagain hst => ?_,
      fun hc s1 P1 h1 => ⟨fun hw => ?_, fun hw => ?_, fun hw => ?_⟩⟩
    · obtain ⟨hgo, hheld, hend, hslg⟩ := hturn
      exact ⟨_, exec_enq_reread hG he hP hc hgo hheld hend hslg hagain hread, rfl⟩
    · obtain ⟨hgo, hheld, hend, hslg⟩ := hturn
      refine ⟨_, exec_enq_refused hG he hP hc hgo hheld hend hslg hagain hst, EnqAnswered.of_groups ?_ (enqDone_answered _ g e st),
        ?_, fun hne => ?_, fun heq => ?_⟩
      · split
        · exact State.updQueue_groups _ _ _ _
        · rfl
      · rw [enqDone_mem]
        split
        · exact State.updQueue_mem _ _ _ _
        · rfl
      · rw [enqDone_parts, if_neg hne]
      · rw [enqDone_parts, if_pos heq]
        refine ⟨_, (State.updQueue_only s p q _ hP).after, ?_, rfl⟩
        rw [Part.queue_withQueue_self]
    · obtain ⟨hgo, hheld, hend, hslg⟩ := hturn
      exact exec_enq_charges hG he hP hc hgo hheld hend hslg hagain hst
    · exact ⟨_, exec_enq_charged hG he hP hc, enqAppend_held hw⟩
    · exact ⟨_, exec_enq_charged hG he hP hc, enqAppend_refused hw h1⟩
    · obtain ⟨hans, hmem, P', hP', hqueue, henqc, happ⟩ := enqAppend_written (G := G) hw h1
      refine ⟨_, exec_enq_charged hG he hP hc, hans, hmem, P', hP', henqc, ?_, happ⟩
      rw [hqueue]
      rfl

end Sys2Proof.Machine
end

section
/-!
PROOF that RegionsTrackAndCommit fails (14 R307, R320, R321; 09 R217, R218): the commit that must wait for one line may by then have
marked another input of its own region.

A region has two inputs, whose lines fall in one set of the L2 of their home. The L2 holds the second line in the only way that is
not gated, and the tile's write queue holds a reduction to it. ARE claims the first line, which takes the way: the second leaves the L2,
its reduction is applied, and that write by no region marks the second input. The second line's granule is being flushed, so ARE waits
there. The inputs are then not those that the region had, as the statement's clause on a commit that waits says.
-/

namespace Sys2Proof.Machine

/-- The two inputs' addresses: HBM, in granules of their own and in one set of an L2 of 12,288 sets. -/
def firstPa : Nat := 0x40000000
def secondPa : Nat := 0x400C0000

/-- An open region with the two inputs, not conflicted. -/
def twoInputs : Region :=
  { fb := 0x2000, ser := false, lanes := List.range 8, snapS := [], snapSPsn := [], snapP := [], cnt := 0, tags := [], ltags := [],
    inputs := [⟨firstPa, 2, 0, false, false, false⟩, ⟨secondPa, 2, 0, false, false, false⟩], stores := [], cons := [], start := 0,
    commit := false }

def waitingLaunch : Launch :=
  { part := 0, q := 0, level := 0, seq := 0, rc := placedRec 0x1000, args := [], tm := [], scr := [], slots := [(0, 0, 0)],
    cbars := [], tbars := [], phase := [], halt := none, engErr := none, times := [], fabric := none, calls := [],
    reserve := false, startSeq := 0, starting := false, ended := [] }
def waitingGroup : Group :=
  { Group.start 0 0 (placedRec 0x1000) { lin := 0, tile := 0, core := 0, slot := 0, pos := 0, win := 0 } with region := some twoInputs }

/-- The home of both lines: one way of its L2 is not gated and holds the second line, to which a reduction is pending. -/
def fullTile : Tile :=
  { Tile.reset with l2 := [(lineOf secondPa, 0)], wq := [⟨lineOf secondPa, 0, .n32, 0, [(0, 1)]⟩],
                    gated := (List.range 15).map (fun w => .l2Way (w + 1)) }

/-- The group's lanes at a word of the core. -/
def areCur : Cur :=
  { tile := 0, core := 0, slot := 0, pc := 0x1000, word := 0, g := 1, todo := [], lanes := [(1, List.range 8)], anyAct := true,
    second := false, waiting := false, next := none, trapped := [], yields := [] }

def waitingState : State :=
  { State.reset with
    parts := [(0, { Part.fresh 1 [0] 0 0 with homes := [(0, 0)] })], launches := [(0, waitingLaunch)], groups := [(1, waitingGroup)],
    tiles := [(0, fullTile)], classes := [(granOf secondPa, ⟨.sh, true, some (.sh, true)⟩)], cur := some areCur }


def plainCtl : Ctl := ⟨15, 0, false, 0, 0, false⟩
def plainOp : OpE := ⟨.vec false 0, .vreg 0, .vreg 0, 0⟩

/-- What ARE sees, and the state that it acts on. -/
def areCtx : Ctx :=
  { u := areCur, g := 1, G := countRegion (beginLanes waitingGroup (List.range 8)), iss := List.range 8, act := List.range 8 }
def areState : State := waitingState.setGroup 1 areCtx.G

theorem waitingState_ready : ready plainCtl { chnOk := false, allow := .yes } waitingState = some (areCtx, areState) := by decide

theorem areClaims_wait : (commitClaims areCtx twoInputs areState).2 = some (.flush (granOf secondPa)) := by decide

/-- ARE in an open region none of whose lanes has an entry in the side log goes on to the region's commit (09 R218). -/
theorem exec_are_commits {c : Ctl} {o : OpE} {s s1 : State} {x : Ctx} {r : Region}
    (hr : ready c { chnOk := false, allow := .yes } s = some (x, s1)) (hreg : x.G.region = some r)
    (hslg : slgHolds s1 x.g x.G r.lanes = false) : exec (.are c o) s = .next (settle x c s1 (commitRegion x s1 r)) := by
  show execAre c o s = _
  unfold execAre
  refine (issueWord_ready hr _).trans ?_
  simp only [hreg, relStop_near hslg]

/-- The state in which ARE waits. -/
def pausedState : State := settle areCtx plainCtl areState (commitRegion areCtx areState twoInputs)

theorem exec_are_waits : exec (.are plainCtl plainOp) waitingState = .next pausedState :=
  exec_are_commits waitingState_ready rfl rfl

/-- Is an input of a region conflicted (09 R217)? -/
def Region.marked (r : Region) : Bool := r.inputs.any RInput.conflicted

theorem pausedState_marked : (pausedState.groups.look 1).any (fun G => G.region.any Region.marked) = true := by decide

/-- Refutes O31: a commit that waits for one line has marked an input on another, so the inputs are not those that the region had. -/
theorem not_regionsTrackAndCommit : ¬ Obligations.RegionsTrackAndCommit := by
  unfold Obligations.RegionsTrackAndCommit
  rintro ⟨-, h⟩
  obtain ⟨-, hcommit⟩ := h plainCtl plainOp waitingState areState areCtx waitingState_ready
  obtain ⟨hwaits, -⟩ := hcommit twoInputs rfl rfl
  obtain ⟨t, G, q, ht, -, hG, hq, -, hinputs, -⟩ := hwaits _ _ (Prod.ext rfl areClaims_wait)
  obtain rfl : pausedState = t := Host.Outcome.next.inj (exec_are_waits.symm.trans ht)
  have hmarked : q.inputs.any RInput.conflicted = true := by
    have hp := pausedState_marked
    rwa [show pausedState.groups.look 1 = some G from hG, Option.any_some, hq] at hp
  rw [hinputs] at hmarked
  exact absurd hmarked (by decide)

end Sys2Proof.Machine
end

section
/-!
PROOF of RegionsOpenAndAbort (09 R205, R207 to R210, R220, R222, R223): ARB, ARX and ARST.
-/

namespace Sys2Proof.Machine

/-! ### Fields of sr.arstat (09 R209) -/

section
variable (cnt icnt idx code : Nat) (ser act : Bool) {cause : Nat} (hcause : cause < 128)
include hcause

theorem bitN_arstatOf_act : bitN (arstatOf cnt icnt idx code ser act cause).toNat 7 = act := by
  rw [bitN, arstatOf, BitVec.toNat_ofNat, Nat.testBit_mod_two_pow, Nat.testBit_eq_decide_div_mod_eq]
  cases ser <;> cases act <;> simp <;> omega

theorem bitN_arstatOf_ser : bitN (arstatOf cnt icnt idx code ser act cause).toNat 8 = ser := by
  rw [bitN, arstatOf, BitVec.toNat_ofNat, Nat.testBit_mod_two_pow, Nat.testBit_eq_decide_div_mod_eq]
  cases ser <;> cases act <;> simp <;> omega

theorem arIcnt_arstatOf (hicnt : icnt < 512) (hidx : idx < 128) (hcode : code < 65536) :
    arIcnt (arstatOf cnt icnt idx code ser act cause) = icnt := by
  rw [arIcnt, bitsN, arstatOf, BitVec.toNat_ofNat, Nat.shiftRight_eq_div_pow]
  cases ser <;> cases act <;> simp <;> omega

end

theorem bitsN_lt (x hi lo : Nat) : bitsN x hi lo < 2 ^ (hi + 1 - lo) := Nat.mod_lt _ (by positivity)

/-! ### ARB (09 R207, R208, R223) -/

def growPending (G : Group) : Bool := G.lanes.any (fun l => match l.block with | .grow _ => true | _ => false)

def isSerial (o : OpE) : Bool := o.imm.toNat.testBit 0

/-- May a serialised region take its partition's token at once (09 R223)? -/
def tokenFree (P : Part) : Bool := P.token.isNone && P.tokenQ.isEmpty
def mayTake (s : State) (G : Group) : Bool := match s.partOf G with | some P => tokenFree P | none => true

/-- The region that ARB opens. -/
def openedRegion (x : Ctx) (o : OpE) (clock : Nat) : Region :=
  { fb := arbFallback x.u.pc o.imm, ser := isSerial o, lanes := x.act, snapS := x.G.s, snapSPsn := x.G.sPsn,
    snapP := x.act.map (fun i => (i, match x.G.lane? i with | some l => l.p | none => 0)), cnt := arCnt x.G.arstat, tags := [],
    ltags := [none, none, none, none], inputs := [], stores := [], cons := [], start := clock, commit := false }

def openedStat (x : Ctx) (o : OpE) : DWord :=
  arstatOf (arCnt x.G.arstat) 1 (bitsN x.G.arstat.toNat 35 32) (bitsN x.G.arstat.toNat 23 16) (isSerial o) true (bitsN x.G.arstat.toNat 3 0)

/-- The group x.G with region r open and status st; its active lanes may have to wait for the token. -/
def openedGroup (x : Ctx) (r : Region) (st : DWord) (waits : Bool) : Group :=
  let G1 := { x.G with region := some r, arstat := st }
  if waits then G1.updLanes x.act (fun _ l => { l with block := .token }) else G1

/-- The token taken by a group, or the group queued for it. -/
def askToken (free : Bool) (g : Nat) (P : Part) : Part :=
  if free then { P with token := some g } else { P with tokenQ := P.tokenQ ++ [g] }

/-- The state after ARB's own part. -/
def openedState (s : State) (x : Ctx) (o : OpE) : State :=
  let s1 := s.setGroup x.g (openedGroup x (openedRegion x o s.clock) (openedStat x o) (isSerial o && !mayTake s x.G))
  if !isSerial o then s1 else s1.updPart (s.partNo x.G) (askToken (mayTake s x.G) x.g)

def arbBody (o : OpE) (x : Ctx) (s : State) : Res :=
  if x.iss.length != x.act.length || growPending x.G then .trap { code := 0x12 } else .done (openedState s x o) []

theorem exec_arb (c : Ctl) (o : OpE) (s : State) : exec (.arb c o) s = issueWord c { chnOk := false } s (arbBody o) := rfl

section
variable (x : Ctx) (r : Region) (st : DWord) (waits : Bool)

theorem openedGroup_lane? (i : Nat) : (openedGroup x r st waits).lane? i =
    (x.G.lane? i).map (fun l => if waits && x.act.contains i then { l with block := .token } else l) := by
  unfold openedGroup
  cases waits
  · simp [Group.lane?]
  · simp only [if_true, Bool.true_and]
    exact Group.lane?_updLanes _ _ _ _

theorem openedGroup_rest : openedGroup x r st waits =
    { x.G with region := some r, arstat := st, lanes := (openedGroup x r st waits).lanes } := by
  unfold openedGroup
  cases waits <;> rfl

end

theorem openedRegion_snapP (x : Ctx) (o : OpE) (clock : Nat) {i : Nat} {l : Lane} (hi : i ∈ x.act) (hl : x.G.lane? i = some l) :
    (openedRegion x o clock).snapP.look i = some l.p := by
  show FMap.look (x.act.map (fun i => (i, match x.G.lane? i with | some l => l.p | none => 0))) i = _
  rw [look_mapped, if_pos hi, hl]

theorem openedStat_fields (x : Ctx) (o : OpE) : bitN (openedStat x o).toNat 7 = true ∧ bitN (openedStat x o).toNat 8 = isSerial o ∧
    arIcnt (openedStat x o) = 1 := by
  have hcause : bitsN x.G.arstat.toNat 3 0 < 128 := (bitsN_lt _ _ _).trans (by decide)
  exact ⟨bitN_arstatOf_act _ _ _ _ _ _ hcause, bitN_arstatOf_ser _ _ _ _ _ _ hcause,
    arIcnt_arstatOf _ _ _ _ _ _ hcause (by decide) ((bitsN_lt _ _ _).trans (by decide)) ((bitsN_lt _ _ _).trans (by decide))⟩

theorem openedState_rest (s : State) (x : Ctx) (o : OpE) :
    openedState s x o = { s with groups := (openedState s x o).groups, parts := (openedState s x o).parts } := by
  unfold openedState
  dsimp only
  split
  · rfl
  · rw [State.updPart_rest]
    rfl

theorem openedState_groups (s : State) (x : Ctx) (o : OpE) :
    (openedState s x o).groups = s.groups.setAt x.g (openedGroup x (openedRegion x o s.clock) (openedStat x o) (isSerial o && !mayTake s x.G)) := by
  unfold openedState
  dsimp only
  split
  · rfl
  · exact State.updPart_groups _ _ _

/-- Of the partitions, only the token of a serialised region's own changes. -/
theorem openedState_parts {s : State} {x : Ctx} {P : Part} (o : OpE) (hP : s.partOf x.G = some P) :
    (isSerial o = false → (openedState s x o).parts = s.parts) ∧
    (isSerial o = true → (openedState s x o).parts.look (s.partNo x.G) = some (askToken (tokenFree P) x.g P)) := by
  unfold openedState
  refine ⟨fun hs => ?_, fun hs => ?_⟩
  · simp only [hs, Bool.not_false, if_true]
    rfl
  · simp only [hs, Bool.not_true, Bool.false_eq_true, if_false]
    rw [State.look_updPart_self (by exact hP)]
    simp only [mayTake, hP]

theorem LaneRegsStay.trans {a b d : Lane} (h : LaneRegsStay a b) (k : LaneRegsStay b d) : LaneRegsStay a d := by
  obtain ⟨h1, h2, h3, h4, h5⟩ := h
  obtain ⟨k1, k2, k3, k4, k5⟩ := k
  exact ⟨k1.trans h1, k2.trans h2, k3.trans h3, k4.trans h4, k5.trans h5⟩

section
variable {c : Ctl} {o : OpE} {s s1 : State} {x : Ctx}

theorem exec_arb_refused (hr : ready c { chnOk := false } s = some (x, s1))
    (h : x.iss.length ≠ x.act.length ∨ growPending x.G = true) : exec (.arb c o) s = .next (trapIssue s1 x { code := 0x12 }) := by
  rw [exec_arb, issueWord_ready hr, arbBody, if_pos (by simpa using h)]
  rfl

theorem exec_arb_opens (hr : ready c { chnOk := false } s = some (x, s1)) (hlen : x.iss.length = x.act.length)
    (hgrow : growPending x.G = false) : exec (.arb c o) s = .next (settle x c s1 (.done (openedState s1 x o) [])) := by
  rw [exec_arb, issueWord_ready hr, arbBody, if_neg (by simp [hlen, hgrow])]

theorem openedState_look (s : State) (x : Ctx) (o : OpE) (g : Nat) : (openedState s x o).groups.look g =
    if g = x.g then some (openedGroup x (openedRegion x o s.clock) (openedStat x o) (isSerial o && !mayTake s x.G))
    else s.groups.look g := by
  rw [openedState_groups, FMap.look_setAt]

/-- The group after an ARB that has opened region r. -/
def arbGroup (c : Ctl) (x : Ctx) (clock : Nat) (r : Region) (st : DWord) (waits : Bool) : Group :=
  hints ((openedGroup x r st waits).updLanes x.iss (fun _ l => retired (x.u.pc + 12) c.chn l)) clock c

theorem arbGroup_rest (c : Ctl) (x : Ctx) (clock : Nat) (r : Region) (st : DWord) (waits : Bool) :
    arbGroup c x clock r st waits = { x.G with
      region := some r, arstat := (arbGroup c x clock r st waits).arstat, lanes := (arbGroup c x clock r st waits).lanes,
      stall := (arbGroup c x clock r st waits).stall, sb := (arbGroup c x clock r st waits).sb } ∧
    (arbGroup c x clock r st waits).arstat = st := by
  unfold arbGroup
  rw [openedGroup_rest]
  exact ⟨rfl, rfl⟩

/-- The lanes after an ARB: past the word, and waiting for the token where it is not free. -/
theorem arbGroup_lane {G0 : Group} (hs : Seen c s x s1 G0) (clock : Nat) (r : Region) (st : DWord) (waits : Bool) {i : Nat} {l : Lane}
    (hl : x.G.lane? i = some l) :
    ∃ l', (arbGroup c x clock r st waits).lane? i = some l' ∧ LaneRegsStay l l' ∧ (i ∈ x.iss → l'.pc = x.u.pc + 12) ∧
      (i ∈ x.act → l'.block = if waits then .token else .free) := by
  have hlane : (arbGroup c x clock r st waits).lane? i = some (if x.iss.contains i then
      retired (x.u.pc + 12) c.chn (if waits && x.act.contains i then { l with block := .token } else l)
      else if waits && x.act.contains i then { l with block := .token } else l) := by
    unfold arbGroup
    rw [hints_lane?, Group.lane?_updLanes, openedGroup_lane?, hl]
    rfl
  refine ⟨_, hlane, ?_, fun hi => ?_, fun ha => ?_⟩
  · have hwait : LaneRegsStay l (if waits && x.act.contains i then { l with block := .token } else l) := by
      split <;> exact ⟨rfl, rfl, rfl, rfl, rfl⟩
    split
    · exact hwait.trans (LaneRegsStay.retired _ _ _)
    · exact hwait
  · rw [if_pos (List.contains_iff_mem.2 hi), retired_pc]
  · have hi := hs.act_sub ha
    rw [if_pos (List.contains_iff_mem.2 hi), retired_block]
    obtain ⟨l0, hl0, -, -⟩ := hs.lane hi
    obtain rfl : begun l0 = l := Option.some.inj ((hs.env hi hl0).symm.trans hl)
    cases waits
    · exact begun_block l0
    · simp [ha]

/-- An ARB that opens its region changes its group and, when serialised, its partition's token. -/
theorem settle_arb (o : OpE) : settle x c s1 (.done (openedState s1 x o) []) = (openedState s1 x o).setGroup x.g
    (arbGroup c x s1.clock (openedRegion x o s1.clock) (openedStat x o) (isSerial o && !mayTake s1 x.G)) := by
  rw [settle_done [] ((openedState_look s1 x o x.g).trans (if_pos rfl)), openedState_rest]
  rfl

end

/-! ### ARX and ARST (09 R210, R220, R222) -/

theorem exec_arx_none {c : Ctl} {o : OpE} {s s1 : State} {x : Ctx} (hr : ready c { chnOk := false, allow := .yes } s = some (x, s1))
    (hreg : x.G.region = none) : exec (.arx c o) s = .next (trapIssue s1 x { code := 0x12 }) := by
  show execArx c o s = _
  unfold execArx
  rw [issueWord_ready hr]
  simp only [hreg]
  rfl

theorem exec_arx_open {c : Ctl} {o : OpE} {s s1 : State} {x : Ctx} {r : Region}
    (hr : ready c { chnOk := false, allow := .yes } s = some (x, s1)) (hreg : x.G.region = some r) :
    exec (.arx c o) s = .next (abortRegion s1 x.g 7 0 (o.imm.toNat % 256)) := by
  show execArx c o s = _
  unfold execArx
  rw [issueWord_ready hr]
  simp only [hreg]
  rfl

/-- An abort gives the token up and leaves the group at its snapshots (09 R220). -/
theorem abortRegion_open {s : State} {g : Nat} {G : Group} {r : Region} (hG : s.groups.look g = some G) (hr : G.region = some r)
    (cause idx code : Nat) :
    abortRegion s g cause idx code = (dropToken s g G).setGroup g (abortGroup G r cause idx code).endWaits := by
  unfold abortRegion
  simp only [hG, hr]
  rfl

theorem dropToken_mem (s : State) (g : Nat) (G : Group) : (dropToken s g G).mem = s.mem := State.updPart_mem _ _ _
theorem dropToken_groups (s : State) (g : Nat) (G : Group) : (dropToken s g G).groups = s.groups := State.updPart_groups _ _ _

theorem abortGroup_lane {G : Group} (r : Region) (cause idx code : Nat) {i : Nat} {l : Lane} (hl : G.lane? i = some l) :
    ∃ l', (abortGroup G r cause idx code).lane? i = some l' ∧ l'.v = l.v ∧ l'.vPsn = l.vPsn ∧ l'.fflags = l.fflags ∧
      l'.srctr = l.srctr ∧ (i ∉ r.lanes → l' = l) ∧
      (i ∈ r.lanes → l'.p = r.snapP.lookD l.p i ∧ l'.pc = r.fb ∧ l'.block = .free ∧ l'.chain = 0) := by
  have hlane : (abortGroup G r cause idx code).lane? i = some (if r.lanes.contains i then abortLane r i l else l) := by
    rw [abortGroup_lane?, hl]
    rfl
  refine ⟨_, hlane, ?_⟩
  by_cases hi : i ∈ r.lanes
  · rw [if_pos (List.contains_iff_mem.2 hi)]
    exact ⟨rfl, rfl, rfl, rfl, fun h => absurd hi h, fun _ => ⟨rfl, rfl, rfl, rfl⟩⟩
  · rw [if_neg (by simpa using hi)]
    exact ⟨rfl, rfl, rfl, rfl, fun _ => rfl, fun h => absurd h hi⟩

theorem abortGroup_rest (G : Group) (r : Region) (cause idx code : Nat) : abortGroup G r cause idx code =
    { G with s := r.snapS, sPsn := r.snapSPsn, region := none, arstat := (abortGroup G r cause idx code).arstat,
             lanes := (abortGroup G r cause idx code).lanes } := rfl

/-- The status without its count. -/
def uncounted (st : DWord) : DWord := BitVec.ofNat 64 (st.toNat - bitsN st.toNat 55 48 * 2 ^ 48)

/-- ARST's second effect, with the status it leaves. -/
def restated (o : OpE) (st : DWord) (G : Group) : Group := if o.imm.toNat.testBit 0 then { G with arstat := st } else G

theorem exec_arst {c : Ctl} {o : OpE} {s s1 : State} {x : Ctx}
    (hr : ready c { (({} : Meta).write o.dst false) with allow := .yes } s = some (x, s1)) : exec (.arst c o) s = .next
      (settle x c s1 (.done (s1.setGroup x.g
        (restated o (uncounted x.G.arstat) (putPlain x x.G o.dst false (fun _ => x.G.arstat.toNat)))) [])) := by
  show execArst c o s = _
  unfold execArst
  rw [issueWord_ready hr]
  have harstat : (putPlain x x.G o.dst false (fun _ => x.G.arstat.toNat)).arstat = x.G.arstat := (putDst_same _ _ _ _ _ _ _).arstat
  simp only [harstat]
  rfl

/-- What a word leaves in its group does not depend on the status, which may so be set after it. -/
theorem settle_restated (x : Ctx) (c : Ctl) (s : State) (o : OpE) (st : DWord) (G : Group) :
    settle x c s (.done (s.setGroup x.g (restated o st G)) []) =
      (settle x c s (.done (s.setGroup x.g G) [])).updGroup x.g (restated o st) := by
  rw [settle_done [] (State.look_setGroup_self _ _ _), settle_done [] (State.look_setGroup_self _ _ _),
    State.updGroup_of_look (State.look_setGroup_self _ _ _)]
  simp only [State.setGroup_setGroup]
  unfold restated
  split <;> rfl

/-- Settles O30: ARB by its checks, ARX by the open region, and ARST's two effects. -/
theorem regionsOpenAndAbort : Obligations.RegionsOpenAndAbort := by
  unfold Obligations.RegionsOpenAndAbort
  refine ⟨?_, ?_, ?_, ?_⟩
  · intro c o s s1 x P hr hP
    refine ⟨fun h => exec_arb_refused hr h, fun hlen hgrow => ?_⟩
    obtain ⟨G0, hs⟩ := ready_seen hr
    obtain ⟨hrest, hstat⟩ := arbGroup_rest c x s1.clock (openedRegion x o s1.clock) (openedStat x o) (isSerial o && !mayTake s1 x.G)
    obtain ⟨hopen, hser, hicnt⟩ := openedStat_fields x o
    obtain ⟨hplain, hserial⟩ := openedState_parts o hP
    have hwait : (o.imm.toNat.testBit 0 && !(P.token.isNone && P.tokenQ.isEmpty)) = (isSerial o && !mayTake s1 x.G) := by
      simp only [mayTake, hP]
      rfl
    refine ⟨_, _, openedRegion x o s1.clock, (exec_arb_opens hr hlen hgrow).trans (congrArg _ (settle_arb o)), State.look_setGroup_self _ _ _,
      fun h hne => ?_, ?_, hrest, rfl, rfl, rfl, rfl, rfl, fun i hi l hl => openedRegion_snapP x o _ hi hl, rfl, rfl, rfl, rfl,
      ?_, ?_, ?_, fun i l hl => ?_, fun hplain' => ?_, fun hserial' => ?_⟩
    · rw [State.look_setGroup, if_neg hne, openedState_look, if_neg hne, hs.look, if_neg hne]
    · have hrest1 := openedState_rest s1 x o
      rw [State.setGroup, hrest1, hs.state]
      rfl
    · rw [hstat]; exact hopen
    · rw [hstat]; exact hser
    · rw [hstat]; exact hicnt
    · rw [hwait]
      exact arbGroup_lane hs _ _ _ _ hl
    · rw [State.setGroup_parts, hplain hplain', hs.state, State.setGroup_parts]
    · have hno : s1.partNo x.G = s.partNo x.G := by rw [hs.state]; rfl
      exact hno ▸ hserial hserial'
  · intro c o s s1 x hr
    refine ⟨fun hreg => exec_arx_none hr hreg, fun r hreg => ?_⟩
    obtain ⟨G0, hs⟩ := ready_seen hr
    have hG : s1.groups.look x.g = some x.G := ready_look hr rfl
    refine ⟨_, abortGroup x.G r 7 0 (o.imm.toNat % 256), (exec_arx_open hr hreg).trans (congrArg _ (abortRegion_open hG hreg 7 0 _)), ?_,
      State.look_setGroup_self _ _ _, fun h hne => ?_, abortGroup_rest _ _ _ _ _, rfl, fun i l hl => abortGroup_lane r 7 0 _ hl⟩
    · rw [State.setGroup_mem, dropToken_mem, hs.state, State.setGroup_mem]
    · rw [State.look_setGroup, if_neg hne, dropToken_groups, hs.look, if_neg hne]
  · exact fun G h => Group.endWaits_of_none h
  · intro c o s s1 x hr
    exact ⟨_, _, exec_arst hr, plain_wrote hr o.dst false x.G (Touched.refl _) rfl _ _ none, settle_restated _ _ _ _ _ _⟩

end Sys2Proof.Machine
end

section
/-!
SUPPORT. No access of the device takes a partition away: the claim of a line, a write, and the drains and write-backs that they bring
(14 R312 to R321).
-/

namespace Sys2Proof.Machine

/-- Does a table hold something under k? -/
def FMap.has {α : Type} (m : FMap α) (k : Nat) : Bool := (m.look k).isSome

theorem FMap.has_iff {α : Type} {m : FMap α} {k : Nat} : m.has k = true ↔ ∃ a, m.look k = some a := Option.isSome_iff_exists

theorem foldl_hasPart {β : Type} {k : Nat} {f : State → β → State} (hf : ∀ s b, (f s b).parts.has k = s.parts.has k) (l : List β) (s : State) :
    (l.foldl f s).parts.has k = s.parts.has k :=
  List.foldlRecOn l f (motive := fun t : State => t.parts.has k = s.parts.has k) rfl (fun t ht b _ => (hf t b).trans ht)

section
variable (k : Nat)

@[simp] theorem State.updPart_hasPart (s : State) (p : Nat) (f : Part → Part) : (s.updPart p f).parts.has k = s.parts.has k := by
  simp only [FMap.has, State.look_updPart]
  split <;> simp_all

@[simp] theorem State.updTile_hasPart (s : State) (t : Nat) (f : Tile → Tile) : (s.updTile t f).parts.has k = s.parts.has k := rfl
@[simp] theorem State.updCore_hasPart (s : State) (t c : Nat) (f : Core → Core) : (s.updCore t c f).parts.has k = s.parts.has k := rfl
@[simp] theorem State.zeroRange_hasPart (s : State) (l n : Nat) : (s.zeroRange l n).parts.has k = s.parts.has k := rfl
@[simp] theorem State.clearPoison_hasPart (s : State) (line : Nat) : (s.clearPoison line).parts.has k = s.parts.has k := rfl
@[simp] theorem poisonPa_hasPart (s : State) (a : Nat) : (poisonPa s a).parts.has k = s.parts.has k := rfl
@[simp] theorem madeClean_hasPart (s : State) (on sel : Nat → Bool) : (madeClean s on sel).parts.has k = s.parts.has k := rfl
@[simp] theorem State.tick_hasPart (s : State) : s.tick.parts.has k = s.parts.has k := rfl

@[simp] theorem State.writeN_hasPart (s : State) (l n v : Nat) : (s.writeN l n v).parts.has k = s.parts.has k := by rw [State.writeN_rest]
@[simp] theorem State.writeBytes_hasPart (s : State) (l : Nat) (bs : List Byte) : (s.writeBytes l bs).parts.has k = s.parts.has k := by
  rw [State.writeBytes_memOnly s l bs]

/-! ### Drains and write-backs (14 R321; 17 R371) -/

@[simp] theorem touchFrame_hasPart (s : State) (a : Nat) : (touchFrame s a).parts.has k = s.parts.has k := by rw [touchFrame_rest]
@[simp] theorem markLine_hasPart (s : State) (w : Option Nat) (line : Nat) : (markLine s w line).parts.has k = s.parts.has k := rfl

@[simp] theorem markDirty_hasPart (s : State) (p a : Nat) : (markDirty s p a).parts.has k = s.parts.has k := by
  unfold markDirty
  split
  · exact State.updPart_hasPart _ _ _ _
  · rfl

@[simp] theorem noteBack_hasPart (s : State) (ls : List (Nat × Nat)) : (noteBack s ls).parts.has k = s.parts.has k := by
  unfold noteBack
  split
  · exact foldl_hasPart (fun _ _ => markDirty_hasPart _ _ _ _) _ _
  · rfl

@[simp] theorem dropLines_hasPart (s : State) (on sel : Nat → Bool) : (dropLines s on sel).parts.has k = s.parts.has k := noteBack_hasPart _ _ _
@[simp] theorem cleanLines_hasPart (s : State) (on sel : Nat → Bool) : (cleanLines s on sel).parts.has k = s.parts.has k := noteBack_hasPart _ _ _

@[simp] theorem applyEnt_hasPart (tile : Nat) (s : State) (e : WqEnt) : (applyEnt tile s e).parts.has k = s.parts.has k := by
  unfold applyEnt
  refine (foldl_hasPart (fun s q => ?_) _ _).trans (by simp)
  dsimp only
  split
  · rfl
  · exact State.writeN_hasPart _ _ _ _ _

@[simp] theorem drainLine_hasPart (s : State) (line : Nat) : (drainLine s line).parts.has k = s.parts.has k := by
  refine foldl_hasPart (fun s t => foldl_hasPart (fun s e => ?_) _ _) _ _
  split
  · simp
  · rfl

@[simp] theorem drainTile_hasPart (s : State) (tile : Nat) : (drainTile s tile).parts.has k = s.parts.has k :=
  foldl_hasPart (fun s e => applyEnt_hasPart k tile s e) _ _

/-! ### The claim of a line (14 R312 to R317) -/

@[simp] theorem updDir_hasPart (s : State) (line : Nat) (f : DirEnt → DirEnt) : (updDir s line f).parts.has k = s.parts.has k := by
  unfold updDir
  dsimp only
  split <;> rfl

@[simp] theorem evictL2_hasPart (s : State) (line : Nat) : (evictL2 s line).parts.has k = s.parts.has k := by
  unfold evictL2
  split
  · rfl
  · dsimp only
    split
    · exact (updDir_hasPart _ _ _ _).trans ((dropLines_hasPart _ _ _ _).trans (drainLine_hasPart _ _ _))
    · exact drainLine_hasPart _ _ _

@[simp] theorem fillL2_hasPart (s : State) (home line : Nat) : (fillL2 s home line).parts.has k = s.parts.has k := by
  unfold fillL2
  dsimp only
  repeat' split
  all_goals simp

@[simp] theorem evictRdc_hasPart (s : State) (tile line : Nat) : (evictRdc s tile line).parts.has k = s.parts.has k := by simp [evictRdc]

@[simp] theorem fillRdc_hasPart (s : State) (tile line : Nat) (dirty : Bool) : (fillRdc s tile line dirty).parts.has k = s.parts.has k := by
  unfold fillRdc
  dsimp only
  repeat' split
  all_goals simp

@[simp] theorem evictL1_hasPart (s : State) (tile core line : Nat) : (evictL1 s tile core line).parts.has k = s.parts.has k := by
  unfold evictL1
  dsimp only
  repeat' split
  all_goals simp

@[simp] theorem fillL1_hasPart (s : State) (tile core line : Nat) (dirty : Bool) : (fillL1 s tile core line dirty).parts.has k = s.parts.has k := by
  unfold fillL1
  dsimp only
  repeat' split
  all_goals simp

@[simp] theorem fillLine_hasPart (s : State) (tile core pa : Nat) (write rmw : Bool) :
    (fillLine s tile core pa write rmw).parts.has k = s.parts.has k := by
  unfold fillLine
  dsimp only
  repeat' split
  all_goals simp

@[simp] theorem dirClaim_hasPart (s : State) (tile core pa : Nat) (write rmw : Bool) :
    (dirClaim s tile core pa write rmw).1.parts.has k = s.parts.has k := by
  unfold dirClaim
  dsimp only
  repeat' split
  all_goals simp

@[simp] theorem classClaim_hasPart (s : State) (tile core pa : Nat) (write rmw : Bool) :
    (classClaim s tile core pa write rmw).1.parts.has k = s.parts.has k := by
  unfold classClaim
  dsimp only
  repeat' split
  all_goals simp

@[simp] theorem gateHold_hasPart (s : State) (pa : Nat) : (gateHold s pa).1.parts.has k = s.parts.has k := by
  unfold gateHold
  dsimp only
  repeat' split
  all_goals rfl

@[simp] theorem State.queueUp_hasPart (s : State) (me : Asker) (b : Block) : (s.queueUp me b).parts.has k = s.parts.has k := by
  unfold State.queueUp
  split <;> rfl

@[simp] theorem State.served_hasPart (s : State) (me : Asker) (bs : List Block) : (s.served me bs).parts.has k = s.parts.has k := rfl

@[simp] theorem claim_hasPart (s : State) (me : Asker) (tile core pa : Nat) (write rmw : Bool) :
    (claim s me tile core pa write rmw).1.parts.has k = s.parts.has k := by
  unfold claim
  have hg := gateHold_hasPart k s pa
  have hc := classClaim_hasPart k (gateHold s pa).1 tile core pa write rmw
  repeat' split
  all_goals simp_all

@[simp] theorem claimRange_hasPart (s : State) (me : Asker) (tile pa n : Nat) (write rmw : Bool) :
    (claimRange s me tile pa n write rmw).1.parts.has k = s.parts.has k := by
  refine List.foldlRecOn (motive := fun r : State × Bool => r.1.parts.has k = s.parts.has k) _ _ rfl (fun r hr i _ => ?_)
  split
  · exact (claim_hasPart k r.1 me tile 4 _ write rmw).trans hr
  · exact hr

/-! ### Writes (07 R164) -/

@[simp] theorem noteWrite_hasPart (s : State) (p a : Nat) : (noteWrite s p a).parts.has k = s.parts.has k := by
  unfold noteWrite
  split
  · rfl
  · exact markDirty_hasPart _ _ _ _

@[simp] theorem countTx_hasPart (s : State) (p a n : Nat) : (countTx s p a n).parts.has k = s.parts.has k := by
  unfold countTx
  split
  · exact State.updPart_hasPart _ _ _ _
  · rfl

@[simp] theorem sendFlits_hasPart (s : State) (a n : Nat) : (sendFlits s a n).parts.has k = s.parts.has k := by rw [sendFlits_rest]

@[simp] theorem writePa_hasPart (s : State) (w : Option Nat) (p a n v : Nat) : (writePa s w p a n v).parts.has k = s.parts.has k := by
  unfold writePa
  dsimp only
  split <;> simp

@[simp] theorem writePaBytes_hasPart (s : State) (w : Option Nat) (p a : Nat) (bs : List Byte) :
    (writePaBytes s w p a bs).parts.has k = s.parts.has k := by
  induction bs generalizing s a with
  | nil => rfl
  | cons b bs ih => exact (ih _ _).trans (writePa_hasPart _ _ _ _ _ _ _)

end

end Sys2Proof.Machine
end

section
/-!
SUPPORT. Commands of the context registers (17 R370 to R373): what one does while another is in progress, what a check refuses, and
what the dirty log, the harvest and the frames leave of their partition.
-/

namespace Sys2Proof.Machine

section
variable {s : State} {p : Nat} {P : Part}

/-! ### Dropped, refused, or begun (17 R370) -/

theorem ctxCommand_busy (c : Cmd) (bad : Part → Option Nat) (h : s.parts.look p = some P) (hb : P.ctxBusy = true) :
    OnlyPart s (ctxCommand s p c bad) p P { P with ctxDrop := true } := by
  unfold ctxCommand
  simp only [h]
  rw [if_pos hb]
  exact State.updPart_only _ _ _ h

theorem ctxCommand_refused (c : Cmd) (bad : Part → Option Nat) (h : s.parts.look p = some P) (hb : P.ctxBusy = false) {st : Nat}
    (hbad : bad P = some st) : OnlyPart s (ctxCommand s p c bad) p P { P with ctxStatus := st } := by
  unfold ctxCommand
  simp only [h]
  rw [if_neg (by simp [hb])]
  simp only [hbad]
  exact State.updPart_only _ _ _ h

theorem ctxCommand_begins (c : Cmd) (bad : Part → Option Nat) (h : s.parts.look p = some P) (hb : P.ctxBusy = false) (hbad : bad P = none) :
    ctxCommand s p c bad =
      askDrain (({ s with keySlots := s.keySlots + 1 } : State).updPart p (fun P => { P with ctxBusy := true })) p c := by
  unfold ctxCommand
  simp only [h]
  rw [if_neg (by simp [hb])]
  simp only [hbad]

/-! ### Commands that complete at once (17 R371) -/

theorem atOnce_busy (f : Part → State × Nat) (h : s.parts.look p = some P) (hb : P.ctxBusy = true) :
    OnlyPart s (atOnce s p f) p P { P with ctxDrop := true } := by
  unfold atOnce
  simp only [h]
  rw [if_pos hb]
  exact State.updPart_only _ _ _ h

theorem atOnce_free (f : Part → State × Nat) (h : s.parts.look p = some P) (hb : P.ctxBusy = false) :
    atOnce s p f = (f P).1.updPart p (fun Q => { Q with ctxStatus := (f P).2 }) := by
  unfold atOnce
  simp only [h]
  rw [if_neg (by simp [hb])]

/-! ### The dirty log (17 R371) -/

theorem dirtyLogOn_part (h : s.parts.look p = some P) (hb : P.ctxBusy = false) :
    (dirtyLogOn p s).parts.look p = some { P with dirtyOn := true, dirty := [], ctxStatus := 0 } := by
  unfold dirtyLogOn
  rw [atOnce_free _ h hb]
  exact State.look_updPart_self (State.look_updPart_self h _) _

theorem dirtyLogOff_part (h : s.parts.look p = some P) (hb : P.ctxBusy = false) :
    (dirtyLogOff p s).parts.look p = some { P with dirtyOn := false, ctxStatus := 0 } := by
  unfold dirtyLogOff
  rw [atOnce_free _ h hb]
  exact State.look_updPart_self (State.look_updPart_self h _) _

/-- What HARVEST gives: dirty lines written back, and the bitmap in host memory, before the log is cut. -/
def harvested (s : State) (p : Nat) (P : Part) (area : BitVec 64) : State :=
  let s1 := P.tiles.foldl drainTile (cleanLines s P.tiles.contains (fun l => spaceOf (l * lineBytes) == 0))
  let fs := match s1.parts.look p with | some P => P.dirty | none => []
  let a := hostLoc (areaOf12 area)
  ((fs.map (· / 8)).dedup).foldl (fun (s : State) i => s.setByte (a + i) (BitVec.ofNat 8 (dirtyByte fs i))) (s1.zeroRange a (2 ^ 22))

theorem harvested_has (s : State) (p : Nat) (P : Part) (area : BitVec 64) : (harvested s p P area).parts.has p = s.parts.has p := by
  unfold harvested
  dsimp only
  refine (foldl_hasPart (fun _ _ => ?_) _ _).trans ?_
  · rfl
  rw [State.zeroRange_hasPart]
  exact (foldl_hasPart (fun _ _ => drainTile_hasPart _ _ _) _ _).trans (cleanLines_hasPart _ _ _ _)

theorem harvestNow_part (area : BitVec 64) (h : s.parts.look p = some P) (hb : P.ctxBusy = false) (hd : P.dirtyOn = true) :
    ∃ Q, (harvestNow p area s).parts.look p = some Q ∧ Q.dirty = [] ∧ Q.ctxStatus = 0 := by
  have hhas : (harvested s p P area).parts.has p = true := (harvested_has s p P area).trans (FMap.has_iff.2 ⟨P, h⟩)
  obtain ⟨Q, hQ⟩ := FMap.has_iff.1 hhas
  have hgive : harvestNow p area s = atOnce s p (fun P =>
      if !P.dirtyOn then (s, 1) else ((harvested s p P area).updPart p (fun P => { P with dirty := [] }), 0)) := rfl
  rw [hgive, atOnce_free _ h hb]
  simp only [hd, Bool.not_true, Bool.false_eq_true, if_false]
  exact ⟨_, State.look_updPart_self (State.look_updPart_self hQ _) _, rfl, rfl⟩

/-! ### Frames (17 R372, R373) -/

/-- The frame at f with no copy of it dirty and nothing queued for it. -/
def frameStill (s : State) (f : Nat) : State :=
  (s.tiles.flatMap (fun t => (t.2.wq.filter (fun e => e.line / 1024 == granOf f)).map WqEnt.line)).foldl drainLine
    (madeClean s (fun _ => true) (fun l => l / 1024 == granOf f))

theorem frameStill_has (s : State) (f : Nat) : (frameStill s f).parts.has p = s.parts.has p :=
  foldl_hasPart (fun _ _ => drainLine_hasPart _ _ _) _ _

/-- A frame sealed for another module is noted with its area and its key. -/
theorem exportNow_eq {k f : Nat} (area : BitVec 64) (h : s.parts.look p = some P) (hb : P.ctxBusy = false)
    (hk : P.migKey = some k) (hf : frameAt s P P.fipa = some f) : ∃ c bs ps, exportNow p area s =
      ({ (frameStill s f).writeBytes (hostLoc (areaOf12 area)) c with
         exportsOut := (areaOf12 area, k, bs, ps, c) :: (frameStill s f).exportsOut } : State).tick.updPart p (fun Q => { Q with ctxStatus := 0 }) := by
  unfold exportNow
  rw [atOnce_free _ h hb]
  simp only [hk, hf]
  exact ⟨_, _, _, rfl⟩

theorem exportNow_part {k f : Nat} (area : BitVec 64) (h : s.parts.look p = some P) (hb : P.ctxBusy = false)
    (hk : P.migKey = some k) (hf : frameAt s P P.fipa = some f) :
    (∃ Q, (exportNow p area s).parts.look p = some Q ∧ Q.ctxStatus = 0) ∧
    (exportNow p area s).exportsOut.any (fun e => e.1 == areaOf12 area && e.2.1 == k) = true := by
  obtain ⟨c, bs, ps, he⟩ := exportNow_eq area h hb hk hf
  have hhas : ((frameStill s f).writeBytes (hostLoc (areaOf12 area)) c).parts.has p = true := by
    rw [State.writeBytes_hasPart, frameStill_has, FMap.has_iff]
    exact ⟨P, h⟩
  obtain ⟨Q, hQ⟩ := FMap.has_iff.1 hhas
  rw [he]
  refine ⟨⟨_, State.look_updPart_self (by exact hQ) _, rfl⟩, ?_⟩
  rw [State.updPart_rest]
  show List.any (_ :: _) _ = true
  simp

/-! ### A frame imported (17 R372; 09 R223) -/

theorem importNow_free (area : BitVec 64) (h : s.parts.look p = some P) (hb : P.ctxBusy = false) :
    importNow p area s = importTry s p (areaOf12 area) := by
  unfold importNow
  simp only [h]
  rw [if_neg (by simp [hb])]

/-- Bytes and poison of a frame as an import leaves them. -/
def imported (s : State) (p f : Nat) (e : List Byte × List Nat) : State :=
  (List.range 1024).foldl (fun (s : State) j =>
    let l := f / 64 + j
    let s2 := writePaBytes s none p (64 * l) ((padTo granBytes e.1).drop (64 * j) |>.take 64)
    if e.2.contains j then poisonPa s2 (64 * l) else s2.clearPoison (lineOf (locOf s2 (64 * l)))) s

theorem imported_has (s : State) (f : Nat) (e : List Byte × List Nat) : (imported s p f e).parts.has p = s.parts.has p := by
  refine foldl_hasPart (fun s j => ?_) _ _
  dsimp only
  split
  · rw [poisonPa_hasPart, writePaBytes_hasPart]
  · rw [State.clearPoison_hasPart, writePaBytes_hasPart]

section
variable {k f a : Nat} {e : List Byte × List Nat} {s1 : State} (h : s.parts.look p = some P) (hk : P.migKey = some k)
  (hf : frameAt s P P.fipa = some f) (hkey : s.readBytes (hostLoc (a + 65552)) 48 = padTo 48 (ckey s)) (he : sealedFrame s k a = some e)
include h hk hf hkey he

/-- A command whose access is held stays BUSY, and holds its place. -/
theorem importTry_held (hc : claimRange s (.req (.frame a)) 1024 f granBytes true false = (s1, false)) :
    importTry s p a = s1.updPart p (fun P => { P with
      ctxBusy := true, heldReqs := if P.heldReqs.contains (.frame a) then P.heldReqs else P.heldReqs ++ [.frame a] }) := by
  unfold importTry
  simp only [h, hk, hf, hkey, he, hc, bne_self_eq_false, Bool.false_eq_true, if_false]

theorem importTry_done (hc : claimRange s (.req (.frame a)) 1024 f granBytes true false = (s1, true)) :
    importTry s p a = ctxDone { imported s1 p f e with tiles := (imported s1 p f e).tiles.mapV (fun _ t =>
      { t with stable := t.stable.keep (fun l _ => l / 1024 != granOf f) }) } p 0 (.frame a) := by
  unfold importTry
  simp only [h, hk, hf, hkey, he, hc, bne_self_eq_false, Bool.false_eq_true, if_false]
  rfl

theorem importTry_part {go : Bool} (hc : claimRange s (.req (.frame a)) 1024 f granBytes true false = (s1, go)) :
    ∃ Q, (importTry s p a).parts.look p = some Q ∧ Q.ctxBusy = !go ∧
      if go then Q.ctxStatus = 0 else .frame a ∈ Q.heldReqs ∧ (importTry s p a).mem = s1.mem := by
  have hhas : s1.parts.has p = true := by
    have hclaim := claimRange_hasPart p s (.req (.frame a)) 1024 f granBytes true false
    rw [hc] at hclaim
    exact hclaim.trans (FMap.has_iff.2 ⟨P, h⟩)
  cases go with
  | false =>
    obtain ⟨Q, hQ⟩ := FMap.has_iff.1 hhas
    rw [importTry_held h hk hf hkey he hc]
    refine ⟨_, State.look_updPart_self hQ _, rfl, ?_, State.updPart_mem _ _ _⟩
    dsimp only
    split
    · rename_i hin
      exact List.contains_iff_mem.1 hin
    · simp
  | true =>
    obtain ⟨Q, hQ⟩ := FMap.has_iff.1 ((imported_has s1 f e).trans hhas)
    rw [importTry_done h hk hf hkey he hc]
    generalize imported s1 p f e = t at hQ
    exact ⟨_, State.look_updPart_self (by exact hQ) _, rfl, rfl⟩

end

end

end Sys2Proof.Machine
end

section
/-!
SUPPORT. Issue stops for a command that drains (17 R366 step 1, R370): what each group of the partition is left with, and what stays.
-/

namespace Sys2Proof.Machine

/-! ### A group stops -/

/-- A group as its issue stops: its open region aborted, its pending requests given up. -/
def stoppedGroup (G : Group) : Group :=
  stopGroupState (match G.region with | some r => (abortGroup G r 6 0 0).endWaits | none => G)

theorem Group.endWaits_region (G : Group) : G.endWaits.region = G.region := by
  show (List.foldl _ G _).region = G.region
  refine List.foldlRecOn (motive := fun H : Group => H.region = G.region) _ _ rfl (fun H hH b _ => ?_)
  split
  · split
    · exact hH
    · unfold Group.setS
      split <;> exact hH
  · exact hH

theorem shrinkGroup_keeps (G : Group) (n : Nat) : (shrinkGroup G n).region = G.region ∧ (shrinkGroup G n).s = G.s := by
  unfold shrinkGroup
  split <;> exact ⟨rfl, rfl⟩

theorem stopGroupState_keeps (G : Group) : (stopGroupState G).region = G.region ∧ (stopGroupState G).s = G.s := by
  unfold stopGroupState
  split
  · exact shrinkGroup_keeps G _
  · exact ⟨rfl, rfl⟩

/-- G has no region open and nothing pending, and the scalar registers of G0 when that had no region to abort. -/
structure Calm (G0 G : Group) : Prop where
  region : G.region = none
  grow : G.grow = none
  stall : G.stall = none
  scalars : G0.region = none → G.s = G0.s

theorem stoppedGroup_calm (G : Group) : Calm G (stoppedGroup G) := by
  unfold stoppedGroup
  refine ⟨?_, rfl, rfl, fun h => ?_⟩
  · rw [(stopGroupState_keeps _).1]
    split
    · rw [Group.endWaits_region]
      rfl
    · assumption
  · rw [h, (stopGroupState_keeps _).2]

theorem Calm.stopped {G0 G : Group} (h : Calm G0 G) : Calm G0 (stoppedGroup G) := by
  obtain ⟨hregion, hgrow, hstall, hs⟩ := stoppedGroup_calm G
  exact ⟨hregion, hgrow, hstall, fun h0 => (hs h.region).trans (h.scalars h0)⟩

/-! ### The groups of a partition stop -/

/-- Of the machine only groups, waiters in tiles and the tokens of partitions change. -/
structure QuietOnly (s t : State) : Prop where
  rest : t = { s with groups := t.groups, tiles := t.tiles, parts := t.parts }
  parts : ∀ k P, s.parts.look k = some P → ∃ P', t.parts.look k = some P' ∧ P' = { P with token := P'.token, tokenQ := P'.tokenQ }

theorem QuietOnly.refl (s : State) : QuietOnly s s := ⟨rfl, fun _ P h => ⟨P, h, rfl⟩⟩

theorem QuietOnly.trans {s t u : State} (h : QuietOnly s t) (h' : QuietOnly t u) : QuietOnly s u := by
  refine ⟨?_, fun k P hP => ?_⟩
  · have := h'.rest
    rw [h.rest] at this
    exact this
  · obtain ⟨P1, h1, e1⟩ := h.parts k P hP
    obtain ⟨P2, h2, e2⟩ := h'.parts k P1 h1
    exact ⟨P2, h2, by rw [e2, e1]⟩

theorem dropToken_quietOnly (s : State) (g : Nat) (G : Group) : QuietOnly s (dropToken s g G) := by
  unfold dropToken
  refine ⟨by rw [State.updPart_rest], fun k P hP => ?_⟩
  rw [State.look_updPart]
  split
  · rename_i hk
    subst hk
    exact ⟨_, congrArg _ hP, rfl⟩
  · exact ⟨P, hP, rfl⟩

theorem abortRegion_quietOnly (s : State) (g cause idx code : Nat) : QuietOnly s (abortRegion s g cause idx code) := by
  unfold abortRegion
  split
  · exact .refl s
  · split
    · exact .refl s
    · exact (dropToken_quietOnly s g _).trans ⟨rfl, fun _ P h => ⟨P, h, rfl⟩⟩

theorem quietGroup_quietOnly (s : State) (g : Nat) : QuietOnly s (quietGroup s g) :=
  (abortRegion_quietOnly s g 6 0 0).trans ⟨rfl, fun _ P h => ⟨P, h, rfl⟩⟩

theorem quietGroup_look (s : State) (g h : Nat) :
    (quietGroup s g).groups.look h = if h = g then (s.groups.look g).map stoppedGroup else s.groups.look h := by
  show ((abortRegion s g 6 0 0).updGroup g stopGroupState).groups.look h = _
  rw [State.look_updGroup]
  cases hG : s.groups.look g with
  | none =>
    have habort : abortRegion s g 6 0 0 = s := by unfold abortRegion; rw [hG]
    rw [habort, hG]
    rfl
  | some G =>
    cases hr : G.region with
    | none =>
      have habort : abortRegion s g 6 0 0 = s := by unfold abortRegion; simp only [hG, hr]
      have hstop : stoppedGroup G = stopGroupState G := by unfold stoppedGroup; rw [hr]
      rw [habort, hG, Option.map_some, Option.map_some, hstop]
    | some r =>
      have hstop : stoppedGroup G = stopGroupState (abortGroup G r 6 0 0).endWaits := by unfold stoppedGroup; rw [hr]
      rw [abortRegion_open hG hr, State.look_setGroup_self, State.look_setGroup, dropToken_groups, Option.map_some, Option.map_some, hstop]
      split <;> rfl

/-- A group that issue stops for: one whose commit is past its first step goes on. -/
def quietUnless (s : State) (g : Nat) : State := if commits s g then s else quietGroup s g

theorem quietUnless_look (s : State) (g h : Nat) : (quietUnless s g).groups.look h =
    (s.groups.look h).map (fun G => if h = g ∧ G.commits = false then stoppedGroup G else G) := by
  unfold quietUnless commits
  by_cases hh : h = g
  · subst hh
    cases hG : s.groups.look h with
    | none => simp [hG, quietGroup_look]
    | some G => cases hc : G.commits <;> simp [hG, hc, quietGroup_look]
  · have hid : (fun G : Group => if h = g ∧ G.commits = false then stoppedGroup G else G) = id := by
      funext G
      exact if_neg (fun hx => hh hx.1)
    rw [hid, Option.map_id, id]
    split
    · rfl
    · rw [quietGroup_look, if_neg hh]

section
variable (gs : List Nat) {s : State} {h : Nat} {G : Group}

theorem quietAll_quietOnly (s : State) : QuietOnly s (gs.foldl quietUnless s) := by
  refine List.foldlRecOn gs _ (QuietOnly.refl s) (fun t ht g _ => ht.trans ?_)
  unfold quietUnless
  split
  · exact .refl t
  · exact quietGroup_quietOnly t g

theorem quietAll_look_others (s : State) (hh : h ∉ gs) : (gs.foldl quietUnless s).groups.look h = s.groups.look h := by
  refine List.foldlRecOn (motive := fun t : State => t.groups.look h = s.groups.look h) gs _ rfl (fun t ht g hg => ?_)
  rw [quietUnless_look, ← ht]
  cases t.groups.look h with
  | none => rfl
  | some G => exact congrArg some (if_neg (fun hx : h = g ∧ _ => hh (hx.1 ▸ hg)))

theorem quietAll_commits (hG : s.groups.look h = some G) (hc : G.commits = true) : (gs.foldl quietUnless s).groups.look h = some G := by
  refine List.foldlRecOn (motive := fun t : State => t.groups.look h = some G) gs _ hG (fun t ht g _ => ?_)
  rw [quietUnless_look, ht, Option.map_some, if_neg (by simp [hc])]

/-- A group that is calm already stays so, however often issue stops for it. -/
theorem quietAll_calm {G0 : Group} (hG : s.groups.look h = some G) (hc : Calm G0 G) :
    ∃ G', (gs.foldl quietUnless s).groups.look h = some G' ∧ Calm G0 G' := by
  refine List.foldlRecOn (motive := fun t : State => ∃ G', t.groups.look h = some G' ∧ Calm G0 G') gs _ ⟨G, hG, hc⟩ (fun t ht g _ => ?_)
  obtain ⟨G', hG', hc'⟩ := ht
  refine ⟨_, by rw [quietUnless_look, hG', Option.map_some], ?_⟩
  split
  · exact hc'.stopped
  · exact hc'

theorem quietAll_stops (hG : s.groups.look h = some G) (hc : G.commits = false) (hh : h ∈ gs) :
    ∃ G', (gs.foldl quietUnless s).groups.look h = some G' ∧ Calm G G' := by
  induction gs generalizing s with
  | nil => cases hh
  | cons g gs ih =>
    rw [List.foldl_cons]
    have hlook := quietUnless_look s g h
    rw [hG, Option.map_some] at hlook
    by_cases hg : h = g
    · rw [if_pos ⟨hg, hc⟩] at hlook
      exact quietAll_calm gs hlook (stoppedGroup_calm G)
    · rw [if_neg (fun hx => hg hx.1)] at hlook
      exact ih hlook ((List.mem_cons.1 hh).resolve_left hg)

end

/-! ### The groups of a partition -/

theorem FMap.look_keep_of_look {α : Type} {m : FMap α} {f : Nat → α → Bool} {k : Nat} {a : α} (h : m.look k = some a) (hf : f k a = true) :
    (m.keep f).look k = some a := by
  induction m with
  | nil => cases h
  | cons e m ih =>
    rw [FMap.look_cons] at h
    unfold FMap.keep at ih ⊢
    rw [List.filter_cons]
    by_cases he : e.1 = k
    · rw [if_pos he] at h
      cases h
      rw [← he] at hf
      rw [if_pos hf, FMap.look_cons, if_pos he]
    · rw [if_neg he] at h
      split
      · rw [FMap.look_cons, if_neg he]
        exact ih h
      · exact ih h

theorem mem_partGroups {s : State} {p g : Nat} {G : Group} {L : Launch} (hG : s.groups.look g = some G)
    (hL : s.launches.look G.launch = some L) (hp : L.part = p) : g ∈ partGroups s p := by
  have hl : G.launch ∈ partLaunches s p := FMap.mem_keys_of_look (FMap.look_keep_of_look hL (by simp [hp]))
  exact FMap.mem_keys_of_look (FMap.look_keep_of_look hG (List.contains_iff_mem.2 hl))

/-! ### A command that drains (17 R366, R370) -/

/-- Issue of a partition stopped: its groups stop, and nothing of memory or of the launches changes. -/
structure Stopped (s t : State) (p : Nat) (P' : Part) : Prop where
  mem : t.mem = s.mem
  launches : t.launches = s.launches
  keySlots : t.keySlots = s.keySlots
  part : t.parts.look p = some P'
  others : ∀ g, g ∉ partGroups s p → t.groups.look g = s.groups.look g
  commits : ∀ g G, s.groups.look g = some G → G.commits = true → t.groups.look g = some G
  calm : ∀ g G L, s.groups.look g = some G → s.launches.look G.launch = some L → L.part = p → G.commits = false →
    ∃ G', t.groups.look g = some G' ∧ Calm G G'

theorem stopIssue_stops {s : State} {p : Nat} {P : Part} (h : s.parts.look p = some P) :
    ∃ P', Stopped s (stopIssue s p) p P' ∧
      P' = { P with token := P'.token, tokenQ := P'.tokenQ, stopAt := P'.stopAt, stopped := true } := by
  have hq := quietAll_quietOnly (partGroups s p) s
  obtain ⟨P1, h1, e1⟩ := hq.parts p P h
  have hlook : (stopIssue s p).groups = ((partGroups s p).foldl quietUnless s).groups := State.updPart_groups _ _ _
  refine ⟨_, ⟨?_, ?_, ?_, State.look_updPart_self (by exact h1) _, fun g hg => ?_, fun g G hG hc => ?_, fun g G L hG hL hp hc => ?_⟩, ?_⟩
  · refine (State.updPart_mem _ _ _).trans ?_
    show ((partGroups s p).foldl quietUnless s).mem = _
    rw [hq.rest]
  · refine (State.updPart_launches _ _ _).trans ?_
    show ((partGroups s p).foldl quietUnless s).launches = _
    rw [hq.rest]
  · refine (State.updPart_keySlots _ _ _).trans ?_
    show ((partGroups s p).foldl quietUnless s).keySlots = _
    rw [hq.rest]
  · rw [hlook, quietAll_look_others _ _ hg]
  · rw [hlook, quietAll_commits _ hG hc]
  · rw [hlook]
    exact quietAll_stops _ hG hc (mem_partGroups hG hL hp)
  · rw [e1]

/-- A key slot held for a context command, which waits for its drain. -/
def slotHeld (s : State) (p : Nat) (c : Cmd) : State :=
  (({ s with keySlots := s.keySlots + 1 } : State).updPart p (fun P => { P with ctxBusy := true })).updPart p (fun P => { P with pend := P.pend ++ [c] })

theorem slotHeld_part {s : State} {p : Nat} {P : Part} (c : Cmd) (h : s.parts.look p = some P) :
    (slotHeld s p c).parts.look p = some { P with ctxBusy := true, pend := P.pend ++ [c] } :=
  State.look_updPart_self (State.look_updPart_self (by exact h) _) _

theorem slotHeld_rest (s : State) (p : Nat) (c : Cmd) :
    slotHeld s p c = { s with keySlots := s.keySlots + 1, parts := (slotHeld s p c).parts } := by
  unfold slotHeld
  rw [State.updPart_rest, State.updPart_rest { s with keySlots := s.keySlots + 1 }]

/-- A context command that begins holds a key slot, and its drain (17 R370). -/
theorem ctxCommand_saves {s : State} {p : Nat} {P : Part} (c : Cmd) (bad : Part → Option Nat) (h : s.parts.look p = some P)
    (hb : P.ctxBusy = false) (hbad : bad P = none) :
    let t := ctxCommand s p c bad
    t.keySlots = s.keySlots + 1 ∧ t.mem = s.mem ∧ t.launches = s.launches ∧
    (∃ P', t.parts.look p = some P' ∧ P'.ctxBusy = true ∧ P'.stopped = true ∧ P'.pend = P.pend ++ [c] ∧ P'.ctxStatus = P.ctxStatus) ∧
    (∀ g, g ∉ partGroups s p → t.groups.look g = s.groups.look g) ∧
    (∀ g G, s.groups.look g = some G → G.commits = true → t.groups.look g = some G) ∧
    ∀ g G L, s.groups.look g = some G → s.launches.look G.launch = some L → L.part = p → G.commits = false →
      ∃ G', t.groups.look g = some G' ∧ G'.region = none ∧ G'.grow = none ∧ G'.stall = none ∧ (G.region = none → G'.s = G.s) := by
  intro t
  have ht : t = stopIssue (slotHeld s p c) p := ctxCommand_begins c bad h hb hbad
  have hrest := slotHeld_rest s p c
  obtain ⟨P', hstop, hP'⟩ := stopIssue_stops (slotHeld_part c h)
  rw [ht]
  generalize slotHeld s p c = u at hrest hstop
  have hgroups : partGroups u p = partGroups s p := by rw [hrest]; rfl
  refine ⟨?_, ?_, ?_, ⟨P', hstop.part, ?_, ?_, ?_, ?_⟩, fun g hg => ?_, fun g G hG => ?_, fun g G L hG hL hp hc => ?_⟩
  · rw [hstop.keySlots, hrest]
  · rw [hstop.mem, hrest]
  · rw [hstop.launches, hrest]
  · rw [hP']
  · rw [hP']
  · rw [hP']
  · rw [hP']
  · rw [hstop.others g (hgroups ▸ hg), hrest]
  · exact hstop.commits g G (by rw [hrest]; exact hG)
  · obtain ⟨G', hG', hcalm⟩ := hstop.calm g G L (by rw [hrest]; exact hG) (by rw [hrest]; exact hL) hp hc
    exact ⟨G', hG', hcalm.region, hcalm.grow, hcalm.stall, hcalm.scalars⟩

end Sys2Proof.Machine
end

section
/-!
SUPPORT. A restore (17 R370): the checks in their order, and the image's groups and registers put back.
-/

namespace Sys2Proof.Machine

/-! ### Tables put together -/

theorem FMap.look_append {α : Type} (m n : FMap α) (k : Nat) : FMap.look (m ++ n) k = (m.look k).or (n.look k) := by
  induction m with
  | nil => simp
  | cons e m ih =>
    rw [List.cons_append, FMap.look_cons, FMap.look_cons, ih]
    split
    · rfl
    · rfl

theorem look_shiftKeys {α β : Type} (m : FMap α) (up : Nat) (f : α → β) (k : Nat) :
    FMap.look (shiftKeys m up f) (k + up) = (m.look k).map f := by
  induction m with
  | nil => rfl
  | cons e m ih =>
    have hcons : shiftKeys (e :: m) up f = (e.1 + up, f e.2) :: shiftKeys m up f := rfl
    rw [hcons, FMap.look_cons, FMap.look_cons, ih]
    simp only [Nat.add_right_cancel_iff]
    split <;> rfl

theorem foldl_keeps {β γ : Type} (v : State → γ) {f : State → β → State} (hf : ∀ s b, v (f s b) = v s) (l : List β) (s : State) :
    v (l.foldl f s) = v s :=
  List.foldlRecOn l f (motive := fun t : State => v t = v s) rfl (fun t ht b _ => (hf t b).trans ht)

/-! ### A usage record (20 R422) -/

/-- A usage record is bytes of host memory, fields of its partition, and what the host is told. -/
theorem postUsage_only {s : State} {p : Nat} (kind : Nat) (pfOnly : Bool) : postUsage s p kind pfOnly =
    { s with mem := (postUsage s p kind pfOnly).mem, parts := (postUsage s p kind pfOnly).parts, out := (postUsage s p kind pfOnly).out } := by
  unfold postUsage
  split
  · rfl
  · rename_i P h
    have ha := Ring.give_memOnly (putUsage_memOnly P.attKey) s P.usagePf (usageHead s p P kind 0)
    have hb : MemOnly s (if pfOnly then ((Ring.give (putUsage P.attKey) s P.usagePf (usageHead s p P kind 0)).1, P.usageVf)
        else Ring.give (putUsage P.attKey) (Ring.give (putUsage P.attKey) s P.usagePf (usageHead s p P kind 0)).1 P.usageVf
          (usageHead s p P kind 0)).1 := by
      split
      · exact ha
      · exact ha.trans (Ring.give_memOnly (putUsage_memOnly P.attKey) _ _ _)
    dsimp only
    generalize (if pfOnly then _ else _ : State × Ring) = b at hb ⊢
    rw [signalVf_rest, State.updPart_rest, hb]

/-! ### An image loaded -/

/-- How the image m is put back as partition p: its numbers follow those that s has given out. -/
def restoreMap (s : State) (p : Nat) (P : Part) (m : Image) : Remap :=
  ⟨s.nextId, p, m.tiles.zip P.tiles, s.clock, if m.kind = 2 then m.clock else s.clock⟩

theorem dropStable_keeps (s : State) (tiles : List Nat) : dropStable s tiles = { s with tiles := (dropStable s tiles).tiles } := by
  unfold dropStable
  exact List.foldlRecOn (motive := fun t : State => t = { s with tiles := t.tiles }) tiles _ rfl (fun t ht k _ => by rw [ht]; rfl)

/-- Memory, poison and the tables of cores and tiles as the image has them; its groups stand behind those that were there. -/
def loadStore (s0 : State) (p : Nat) (P : Part) (m : Image) : State :=
  let s := dropStable s0 P.tiles
  let r := restoreMap s p P m
  let key := fun (k : Nat) => (r.tile (k / 4), k % 4)
  let s1 := { s with
    groups := s.groups ++ shiftKeys m.groups r.up r.group, launches := s.launches ++ shiftKeys m.launches r.up r.launch,
    ops := s.ops ++ shiftKeys m.ops r.up r.op, calls := s.calls ++ shiftKeys m.calls r.up r.call, nextId := 2 * s.nextId }
  let s2 := m.mem.foldl (fun (s : State) e => s.setByte (r.loc e.1) e.2) s1
  let s3 := m.poison.foldl (fun (s : State) l => s.setPoison (lineOf (r.loc (l * lineBytes)))) s2
  let s4 := m.slog.foldl (fun (s : State) e => s.updCore (key e.1).1 (key e.1).2 (fun c => { c with slog := c.slog ++ [r.slg e.2] })) s3
  let s5 := m.reserves.foldl (fun (s : State) e => s.updCore (r.tile e.1) e.2.1 (fun c => { c with reserve := some (e.2.2 + r.up) })) s4
  m.cbufs.foldl (putCbufs r) s5

/-- The groups and the partitions of a state. -/
def workOf (s : State) : FMap Group × FMap Part := (s.groups, s.parts)

theorem loadStore_keeps (s : State) (p : Nat) (P : Part) (m : Image) :
    workOf (loadStore s p P m) = (s.groups ++ shiftKeys m.groups s.nextId (restoreMap s p P m).group, s.parts) := by
  have hmap : restoreMap (dropStable s P.tiles) p P m = restoreMap s p P m := by rw [dropStable_keeps]; rfl
  unfold loadStore
  dsimp only
  rw [hmap]
  refine (foldl_keeps workOf (fun _ _ => ?_) _ _).trans <| (foldl_keeps workOf (fun _ _ => ?_) _ _).trans <|
    (foldl_keeps workOf (fun _ _ => ?_) _ _).trans <| (foldl_keeps workOf (fun _ _ => ?_) _ _).trans <|
    (foldl_keeps workOf (fun _ _ => ?_) _ _).trans ?_
  case refine_6 => rw [dropStable_keeps]; rfl
  all_goals rfl

/-- An image without MAPS entries is loaded as its store, and the registers of its partition. -/
theorem loadImage_eq {s : State} {p : Nat} {P : Part} {m : Image} (hm : m.maps = []) : ∃ f : Part → Part,
    loadImage s p P m = (loadStore s p P m).updPart p f ∧ ∀ Q, (f Q).queues = m.queues ∧ (f Q).seq = m.nextSeq ∧ (f Q).tvec = m.tvec ∧
      (f Q).s1root = m.s1root ∧ (f Q).s1ctl = m.s1ctl ∧ (f Q).wdlog = m.wdlog ∧ (f Q).tiles = Q.tiles := by
  unfold loadImage
  rw [hm]
  exact ⟨_, rfl, fun Q => ⟨rfl, rfl, rfl, rfl, rfl, rfl, rfl⟩⟩

/-! ### The restore -/

section
variable {s : State} {p ctx : Nat} {area : BitVec 64} {P : Part} (h : s.parts.look p = some P)
include h

theorem restoreNow_busy (hb : P.ctxBusy = true) : OnlyPart s (restoreNow p ctx area s) p P { P with ctxDrop := true } := by
  unfold restoreNow
  simp only [h]
  rw [if_pos hb]
  exact State.updPart_only _ _ _ h

variable (hb : P.ctxBusy = false)
include hb

theorem restoreNow_occupied (ho : P.stopped5 = true ∨ partLaunches s p ≠ []) :
    OnlyPart s (restoreNow p ctx area s) p P { P with ctxStatus := 1 } := by
  unfold restoreNow
  simp only [h]
  rw [if_neg (by simp [hb]), if_pos (by simpa [Bool.or_eq_true] using ho)]
  exact State.updPart_only _ _ _ h

variable (h5 : P.stopped5 = false) (hl : partLaunches s p = [])
include h5 hl

theorem restoreNow_noSlot (hk : 256 ≤ s.keySlots) : OnlyPart s (restoreNow p ctx area s) p P { P with ctxStatus := 7 } := by
  unfold restoreNow
  simp only [h]
  rw [if_neg (by simp [hb]), if_neg (by simp [h5, hl]), if_pos hk]
  exact State.updPart_only _ _ _ h

variable (hk : s.keySlots < 256)
include hk

theorem restoreNow_otherKey (hkey : s.readBytes (hostLoc (areaOf12 area + 0x10)) 48 ≠ ckey s) :
    OnlyPart s (restoreNow p ctx area s) p P { P with ctxStatus := 3 } := by
  unfold restoreNow
  simp only [h]
  rw [if_neg (by simp [hb]), if_neg (by simp [h5, hl]), if_neg (by omega), if_pos (by simpa using hkey)]
  exact State.updPart_only _ _ _ h

variable (hkey : s.readBytes (hostLoc (areaOf12 area + 0x10)) 48 = ckey s)
include hkey

theorem restoreNow_noImage (hi : (imageAt s (areaOf12 area)).or (importedImage s P (areaOf12 area)) = none) :
    OnlyPart s (restoreNow p ctx area s) p P { P with ctxStatus := 4 } := by
  unfold restoreNow
  simp only [h]
  rw [if_neg (by simp [hb]), if_neg (by simp [h5, hl]), if_neg (by omega), if_neg (by simp [hkey])]
  simp only [hi]
  exact State.updPart_only _ _ _ h

variable {m : Image} (hi : (imageAt s (areaOf12 area)).or (importedImage s P (areaOf12 area)) = some m)
include hi

theorem restoreNow_badImage (hok : imageOk P (ctx % 4) m = false) : OnlyPart s (restoreNow p ctx area s) p P { P with ctxStatus := 4 } := by
  unfold restoreNow
  simp only [h]
  rw [if_neg (by simp [hb]), if_neg (by simp [h5, hl]), if_neg (by omega), if_neg (by simp [hkey])]
  simp only [hi]
  rw [if_pos (by simp [hok])]
  exact State.updPart_only _ _ _ h

theorem restoreNow_loads (hok : imageOk P (ctx % 4) m = true) : restoreNow p ctx area s =
    postUsage ((loadImage s p P m).updPart p (fun P => { P with ctxStatus := 0 })) p 6 false := by
  unfold restoreNow
  simp only [h]
  rw [if_neg (by simp [hb]), if_neg (by simp [h5, hl]), if_neg (by omega), if_neg (by simp [hkey])]
  simp only [hi]
  rw [if_neg (by simp [hok])]

/-- A restore puts the image's groups back under new numbers, and the partition's registers (17 R370; log 9). -/
theorem restoreNow_restores (hok : imageOk P (ctx % 4) m = true) (hm : m.maps = []) :
    let t := restoreNow p ctx area s
    (∃ P', t.parts.look p = some P' ∧ P'.ctxStatus = 0 ∧ P'.queues = m.queues ∧ P'.seq = m.nextSeq ∧ P'.tvec = m.tvec ∧
      P'.s1root = m.s1root ∧ P'.s1ctl = m.s1ctl ∧ P'.wdlog = m.wdlog ∧ P'.tiles = P.tiles) ∧
    t.groups = s.groups ++ shiftKeys m.groups s.nextId (restoreMap s p P m).group := by
  obtain ⟨f, hload, hf⟩ := loadImage_eq (s := s) (p := p) (P := P) hm
  have hwork := loadStore_keeps s p P m
  have hpart : ((loadImage s p P m).updPart p (fun P => { P with ctxStatus := 0 })).parts.look p = some { (f P) with ctxStatus := 0 } := by
    rw [hload]
    refine State.look_updPart_self (State.look_updPart_self ?_ _) _
    rw [← h]
    exact congrArg (fun w => w.2.look p) hwork
  have hgroups : ((loadImage s p P m).updPart p (fun P => { P with ctxStatus := 0 })).groups =
      s.groups ++ shiftKeys m.groups s.nextId (restoreMap s p P m).group := by
    rw [hload, State.updPart_groups, State.updPart_groups]
    exact congrArg Prod.fst hwork
  intro t
  have ht : t = _ := restoreNow_loads h hb h5 hl hk hkey hi hok
  obtain ⟨-, Q, hQ, eQ⟩ := postUsage_rest 6 false hpart
  obtain ⟨hqueues, hseq, htvec, hroot, hctl, hwdlog, htiles⟩ := hf P
  rw [ht]
  refine ⟨⟨Q, hQ, ?_⟩, ?_⟩
  · rw [eQ]
    exact ⟨rfl, hqueues, hseq, htvec, hroot, hctl, hwdlog, htiles⟩
  · rw [postUsage_only]
    exact hgroups

end

end Sys2Proof.Machine
end

section
/-!
SUPPORT. A function level reset (17 R374; 18 R392; 20 R411): behind a change of shape, and at once, when it leaves no work, no byte of
SRAM or of the frames, and a partition as it was made.
-/

namespace Sys2Proof.Machine

/-! ### Bytes zeroed (14 R308) -/

theorem State.byteAt_zeroRange (s : State) (a n l : Nat) :
    (s.zeroRange a n).byteAt l = if a ≤ l ∧ l < a + n then 0 else s.byteAt l := by
  have hk := FMap.look_keep_keys s.mem (fun j => !(decide (a ≤ j) && decide (j < a + n))) l
  have hmem : (s.zeroRange a n).mem = FMap.keep s.mem (fun j _ => !(decide (a ≤ j) && decide (j < a + n))) := rfl
  rw [State.byteAt, FMap.lookD, hmem, hk, State.byteAt, FMap.lookD]
  by_cases hin : a ≤ l ∧ l < a + n
  · simp [hin]
  · rw [if_neg hin, if_pos (by simp; omega)]

section
variable {β : Type} {f : State → β → State} {l : Nat}

/-- A byte that every step leaves zero stays zero. -/
theorem foldl_byteAt_zero (hf : ∀ s b, s.byteAt l = 0 → (f s b).byteAt l = 0) (bs : List β) {s : State} (h : s.byteAt l = 0) :
    (bs.foldl f s).byteAt l = 0 :=
  List.foldlRecOn bs f (motive := fun t : State => t.byteAt l = 0) h (fun t ht b _ => hf t b ht)

/-- A byte that some step zeroes, and that every step leaves zero, is zero in the end. -/
theorem foldl_zeroes_byteAt (hf : ∀ s b, s.byteAt l = 0 → (f s b).byteAt l = 0) {bs : List β} {b : β} (hb : b ∈ bs)
    (hz : ∀ s, (f s b).byteAt l = 0) (s : State) : (bs.foldl f s).byteAt l = 0 := by
  induction bs generalizing s with
  | nil => cases hb
  | cons d bs ih =>
    rw [List.foldl_cons]
    rcases List.mem_cons.1 hb with rfl | hb
    · exact foldl_byteAt_zero hf bs (hz s)
    · exact ih hb _

end

theorem zeroRange_zero (s : State) (a n l : Nat) (h : s.byteAt l = 0) : (s.zeroRange a n).byteAt l = 0 := by
  rw [State.byteAt_zeroRange, h, ite_self]

theorem zeroRange_inside (s : State) {a n l : Nat} (h : a ≤ l ∧ l < a + n) : (s.zeroRange a n).byteAt l = 0 := by
  rw [State.byteAt_zeroRange, if_pos h]

/-- SRAM of one tile zeroed. -/
def wipeTile (s : State) (t : Nat) : State :=
  (List.range 4).foldl (fun s k => s.zeroRange (storeLoc t k 0) (2 ^ 24)) (s.zeroTm t 0 (24 * 2 ^ 20))

theorem zeroTm_zero (s : State) (t off n l : Nat) (h : s.byteAt l = 0) : (s.zeroTm t off n).byteAt l = 0 :=
  foldl_byteAt_zero (fun s (q : Nat × Nat) => zeroRange_zero s q.1 q.2 l) _ h

theorem wipeTile_zero (s : State) (t l : Nat) (h : s.byteAt l = 0) : (wipeTile s t).byteAt l = 0 :=
  foldl_byteAt_zero (fun s k => zeroRange_zero s (storeLoc t k 0) (2 ^ 24) l) _ (zeroTm_zero s t _ _ l h)

theorem zeroTm_inside (s : State) (t : Nat) {off : Nat} (h : off < 24 * 2 ^ 20) : (s.zeroTm t 0 (24 * 2 ^ 20)).byteAt (tmPa t off) = 0 := by
  have hpieces : tmPieces t 0 (24 * 2 ^ 20) = [(tmPa t 0, 2 ^ 24), (tmPa t (2 ^ 24), 24 * 2 ^ 20 - 2 ^ 24)] := rfl
  unfold State.zeroTm
  rw [hpieces]
  by_cases hlow : off < 2 ^ 24
  · exact foldl_zeroes_byteAt (fun s (q : Nat × Nat) => zeroRange_zero s q.1 q.2 _) (b := (tmPa t 0, 2 ^ 24)) (by simp)
      (fun s => zeroRange_inside s (by dsimp only [tmPa]; omega)) s
  · exact foldl_zeroes_byteAt (fun s (q : Nat × Nat) => zeroRange_zero s q.1 q.2 _) (b := (tmPa t (2 ^ 24), 24 * 2 ^ 20 - 2 ^ 24)) (by simp)
      (fun s => zeroRange_inside s (by dsimp only [tmPa]; omega)) s

theorem wipeTile_tm (s : State) (t : Nat) {off : Nat} (h : off < 24 * 2 ^ 20) : (wipeTile s t).byteAt (tmPa t off) = 0 :=
  foldl_byteAt_zero (fun s k => zeroRange_zero s (storeLoc t k 0) (2 ^ 24) _) _ (zeroTm_inside s t h)

theorem wipeTile_store (s : State) (t : Nat) {c off : Nat} (hc : c < 4) (h : off < 2 ^ 24) : (wipeTile s t).byteAt (storeLoc t c off) = 0 :=
  foldl_zeroes_byteAt (fun s k => zeroRange_zero s (storeLoc t k 0) (2 ^ 24) _) (List.mem_range.2 hc)
    (fun s => zeroRange_inside s (by dsimp only [storeLoc]; omega)) _

/-- What a tile's wipe zeroes, the wipe of its partition does. -/
theorem wipePart_sram {s : State} {p : Nat} {P : Part} (h : s.parts.look p = some P) {k l : Nat} (hk : k ∈ P.tiles)
    (hz : ∀ u, (wipeTile u k).byteAt l = 0) : (wipePart s p).byteAt l = 0 := by
  unfold wipePart
  simp only [h]
  exact foldl_byteAt_zero (fun s (r : Nat × Nat) => zeroRange_zero s r.1 r.2 l) _
    (foldl_zeroes_byteAt (f := wipeTile) (fun s t => wipeTile_zero s t l) hk hz _)

theorem wipePart_hbm {s : State} {p : Nat} {P : Part} (h : s.parts.look p = some P) {r : Nat × Nat} (hr : r ∈ hbmRanges s P) {j : Nat}
    (hj : j < r.2) : (wipePart s p).byteAt (r.1 + j) = 0 := by
  unfold wipePart
  simp only [h]
  exact foldl_zeroes_byteAt (fun s (r : Nat × Nat) => zeroRange_zero s r.1 r.2 _) hr (fun s => zeroRange_inside s ⟨Nat.le_add_right _ _, Nat.add_lt_add_left hj _⟩) _

/-! ### The ranges that stage 2 maps (15 R328) -/

/-- The tables are read where they stand, so the same bytes in the same places map the same leaves. -/
theorem leavesFrom_congr {s t : State} (hm : t.mem = s.mem) (hl : ∀ a, locOf t a = locOf s a) (tbl ipa k : Nat) :
    leavesFrom t tbl ipa k = leavesFrom s tbl ipa k := by
  induction k generalizing tbl ipa with
  | zero => rfl
  | succ k ih =>
    have he : ∀ tbl n, tableEntries t tbl n = tableEntries s tbl n := fun tbl n => by unfold tableEntries; rw [hm]
    unfold leavesFrom
    simp only [he, hl, State.readN_of_mem hm, ih]

theorem hbmRanges_congr {s t : State} {P Q : Part} (hm : t.mem = s.mem) (hl : ∀ a, locOf t a = locOf s a) (hr : Q.s2root = P.s2root) :
    hbmRanges t Q = hbmRanges s P := by
  unfold hbmRanges s2Leaves
  rw [hr, leavesFrom_congr hm hl]

/-- With no line in a MAPS entry, where a byte stands follows from its address. -/
theorem locOf_of_unmapped {s t : State} (hd : t.dir = s.dir) (hu : ∀ pa, mapped s pa = false) (a : Nat) : locOf t a = locOf s a := by
  have ha := hu a
  unfold mapped at ha
  unfold locOf
  rw [hd]
  split
  · rfl
  · cases hlook : s.dir.look (lineOf a) with
    | none => rfl
    | some d =>
      rw [hlook] at ha
      cases hst : d.st <;> simp [hst] at ha ⊢

/-! ### A usage record stands in host memory (20 R422) -/

theorem Ring.flush_keeps {γ : Type} (v : State → γ) {post : State → Ring → List Byte → State × Ring} (hp : ∀ s r b, v (post s r b).1 = v s)
    (l : List (List Byte)) (s : State) (r : Ring) : v (Ring.flush post l s r).1 = v s := by
  induction l generalizing s r with
  | nil => rfl
  | cons b l ih =>
    unfold Ring.flush
    split
    · exact (ih _ _).trans (hp s r b)
    · rfl

theorem Ring.give_keeps {γ : Type} (v : State → γ) {post : State → Ring → List Byte → State × Ring} (hp : ∀ s r b, v (post s r b).1 = v s)
    (s : State) (r : Ring) (b : List Byte) : v (Ring.give post s r b).1 = v s := by
  unfold Ring.give
  split
  · rfl
  · exact Ring.flush_keeps v hp _ _ _

theorem putUsage_byteAt (key : Nat) (s : State) (r : Ring) (b : List Byte) {l : Nat} (hl : l < 2 ^ 64) :
    (putUsage key s r b).1.byteAt l = s.byteAt l :=
  State.byteAt_writeBytes_of_outside _ _ _ _ (.inl (by dsimp only [hostLoc]; omega))

theorem postUsage_byteAt (s : State) (p kind : Nat) (pfOnly : Bool) {l : Nat} (hl : l < 2 ^ 64) :
    (postUsage s p kind pfOnly).byteAt l = s.byteAt l := by
  have hgive := fun key s r b => Ring.give_keeps (fun s : State => s.byteAt l) (fun s r b => putUsage_byteAt key s r b hl) s r b
  unfold postUsage
  split
  · rfl
  · rename_i P h
    dsimp only
    rw [signalVf_rest]
    show State.byteAt (State.updPart _ _ _) l = _
    rw [State.byteAt, State.updPart_mem, ← State.byteAt]
    split
    · exact hgive _ _ _ _
    · exact (hgive _ _ _ _).trans (hgive _ _ _ _)

/-! ### Saves given up, and the work removed (17 R374; 18 R392) -/

/-- A partition whose saves and key change are given up. -/
def saveAborted (P : Part) : Part :=
  { P with heldReqs := P.heldReqs.filter (fun h => match h with | .frame _ => false | _ => true),
           pend := P.pend.filter (fun c => !c.isSave && c != .flr && c != .rekey), rekeyBusy := false, ctxBusy := false,
           ctxStatus := if P.ctxBusy then 5 else P.ctxStatus }

section
variable {s : State} {p : Nat} {P : Part} (h : s.parts.look p = some P)
include h

theorem abortSave_eq : ∃ n, abortSave s p = ({ s with keySlots := n } : State).updPart p saveAborted := by
  unfold abortSave
  simp only [h]
  split
  · exact ⟨s.keySlots - 1, rfl⟩
  · exact ⟨s.keySlots, rfl⟩

/-- Behind a change of shape that drains, a reset comes next, and nothing of the work changes yet. -/
theorem startFlr_behind {c : Cmd} {cs : List Cmd} (t : Tdi) (hp : P.pend = c :: cs) (hc : c.isReshape = true) :
    let u := startFlr s p t
    u.mem = s.mem ∧ u.groups = s.groups ∧ u.launches = s.launches ∧
    ∃ P', u.parts.look p = some P' ∧ P'.pend = c :: .flr :: cs.filter (fun d => !d.isSave && d != .flr && d != .rekey) ∧
      P'.ctxBusy = false ∧ P'.ctxStatus = if P.ctxBusy then 5 else P.ctxStatus := by
  obtain ⟨n, habort⟩ := abortSave_eq h
  have hkeep : (!c.isSave && c != .flr && c != .rekey) = true := by
    cases c <;> simp_all [Cmd.isReshape, Cmd.isSave]
  have hpend : (saveAborted P).pend = c :: cs.filter (fun d => !d.isSave && d != .flr && d != .rekey) := by
    show P.pend.filter _ = _
    rw [hp, List.filter_cons, if_pos hkeep]
  unfold startFlr
  simp only [h, Option.map_some, hp, hc, if_true]
  rw [habort]
  refine ⟨?_, ?_, ?_, _, State.look_updPart_self (State.look_updPart_self (by exact h) _) _, ?_, rfl, rfl⟩
  · rw [State.updPart_mem, State.updPart_mem]
  · rw [State.updPart_groups, State.updPart_groups]
  · rw [State.updPart_launches, State.updPart_launches]
  · dsimp only
    rw [hpend]
    rfl

/-- Before its work is removed, a partition's saves and its migration key are given up. -/
theorem givenUp_part :
    (dropMigKey (abortSave s p) p).parts.look p = some { (saveAborted P) with migKey := none, migWait := none } := by
  obtain ⟨n, habort⟩ := abortSave_eq h
  have h0 : (abortSave s p).parts.look p = some (saveAborted P) := by
    rw [habort]
    exact State.look_updPart_self (by exact h) _
  rw [dropMigKey_eq h0]
  exact State.look_updPart_self (by exact h0) _

end

theorem dropMigKey_rest (s : State) (p : Nat) : dropMigKey s p =
    { s with keySlots := (dropMigKey s p).keySlots, km := (dropMigKey s p).km, parts := (dropMigKey s p).parts } := by
  unfold dropMigKey
  split
  · dsimp only
    rw [State.updPart_rest]
  · rfl

theorem abortSave_rest (s : State) (p : Nat) :
    abortSave s p = { s with keySlots := (abortSave s p).keySlots, parts := (abortSave s p).parts } := by
  unfold abortSave
  split
  · rfl
  · dsimp only
    rw [State.updPart_rest]
    split <;> rfl

theorem givenUp_rest (s : State) (p : Nat) : ∃ n km ps, dropMigKey (abortSave s p) p = { s with keySlots := n, km := km, parts := ps } := by
  rw [dropMigKey_rest, abortSave_rest]
  exact ⟨_, _, _, rfl⟩

/-- Groups, memory, directory and the next key number. -/
def storeOf (s : State) : FMap Group × List Host.Cell × FMap DirEnt × Nat := (s.groups, s.mem, s.dir, s.nextKey)

theorem removeWork_store {s : State} {p : Nat} {P : Part} (h : s.parts.look p = some P) :
    storeOf (removeWork s p) = (s.groups.keep (fun g _ => !(partGroups s p).contains g), s.mem, s.dir, s.nextKey) := by
  unfold removeWork
  simp only [h]
  refine (foldl_keeps storeOf (fun s t => ?_) _ _).trans ?_
  · refine (foldl_keeps storeOf (fun _ _ => ?_) _ _).trans ?_
    · rfl
    · rfl
  · rfl

/-- Groups and the next key number. -/
def keyedOf (s : State) : FMap Group × Nat := (s.groups, s.nextKey)

theorem wipeTile_keyed (s : State) (t : Nat) : keyedOf (wipeTile s t) = keyedOf s := by
  refine (foldl_keeps keyedOf (fun _ _ => ?_) _ _).trans (foldl_keeps keyedOf (fun _ _ => ?_) _ _)
  · rfl
  · rfl

theorem wipePart_keyed (s : State) (p : Nat) : keyedOf (wipePart s p) = keyedOf s := by
  unfold wipePart
  split
  · rfl
  · refine (foldl_keeps keyedOf (fun _ _ => ?_) _ _).trans ((foldl_keeps (f := wipeTile) keyedOf wipeTile_keyed _ _).trans ?_)
    · rfl
    · show ((noteBack s _).groups, (noteBack s _).nextKey) = _
      rw [noteBack_rest]
      rfl

/-- What a reset at once leaves: the partition's work gone, its memory wiped, and its own state as it was made. -/
structure Reset (s t : State) (p : Nat) (P P' : Part) : Prop where
  launches : t.launches = s.launches.keep (fun l _ => !(partLaunches s p).contains l)
  groups : t.groups = s.groups.keep (fun g _ => !(partGroups s p).contains g)
  part : t.parts.look p = some P'
  sram : ∀ k ∈ P.tiles, ∀ l, l < 2 ^ 64 → (∀ u, (wipeTile u k).byteAt l = 0) → t.byteAt l = 0
  hbm : (∀ pa, mapped s pa = false) → ∀ r ∈ hbmRanges s P, ∀ j, j < r.2 → r.1 + j < 2 ^ 64 → t.byteAt (r.1 + j) = 0

theorem resetFlows_rest (s : State) (tiles : List Nat) : resetFlows s tiles = { s with tiles := (resetFlows s tiles).tiles } := by
  unfold resetFlows
  exact List.foldlRecOn (motive := fun t : State => t = { s with tiles := t.tiles }) tiles _ rfl (fun t ht k _ => by rw [ht]; rfl)

theorem flrEffect_reset {s : State} {p : Nat} {P : Part} (t : Tdi) (h : s.parts.look p = some P) :
    ∃ P', Reset s (flrEffect s p t) p P P' ∧ P'.epoch = 0 ∧ P'.tasks = [] ∧ P'.appended = [] ∧ P'.migKey = none ∧ P'.world = s.nextKey ∧
      P'.traffic = s.nextKey + 1 ∧ P'.tdi = t ∧ P'.meas5 = none ∧ P'.tiles = P.tiles ∧ P'.tag = P.tag ∧
      ∀ q, P'.queues.look q = (P.queues.look q).map (fun Q => { Q with en := false }) := by
  obtain ⟨n, km, ps, hgive⟩ := givenUp_rest s p
  have h1 := givenUp_part h
  have hlaunches := (flrEffect_part t h).1
  unfold flrEffect at hlaunches ⊢
  dsimp only at hlaunches ⊢
  generalize dropMigKey (abortSave s p) p = s1 at hgive h1 hlaunches ⊢
  obtain ⟨P2, h2, e2⟩ := (removeWork_dirtyOnly h1).parts p _ h1
  have hstore := removeWork_store h1
  have hgs : partGroups s1 p = partGroups s p := by rw [hgive]; rfl
  have hsram := fun k hk l => wipePart_sram h2 (k := k) (l := l) hk
  have hhbm := fun r hr j => wipePart_hbm h2 (r := r) hr (j := j)
  have hkeyed := wipePart_keyed (removeWork s1 p) p
  obtain ⟨P3, h3, e3⟩ := (wipePart_dirtyOnly (removeWork s1 p) p).parts p _ h2
  generalize removeWork s1 p = s2 at hstore h2 hsram hhbm hkeyed h3 hlaunches ⊢
  generalize wipePart s2 p = s3 at hsram hhbm hkeyed h3 hlaunches ⊢
  rw [h3] at hlaunches ⊢
  dsimp only at hlaunches ⊢
  have hflows := resetFlows_rest { s3 with nextKey := s3.nextKey + 2 } P3.tiles
  generalize resetFlows { s3 with nextKey := s3.nextKey + 2 } P3.tiles = s4 at hflows hlaunches ⊢
  have h4 : s4.parts.look p = some P3 := by rw [hflows]; exact h3
  have h5 := fun f => State.look_updPart_self h4 f
  have hgroups : s4.groups = s.groups.keep (fun g _ => !(partGroups s p).contains g) := by
    rw [hflows]
    refine (congrArg Prod.fst hkeyed).trans ((congrArg Prod.fst hstore).trans ?_)
    rw [hgs, hgive]
  have hkey : s3.nextKey = s.nextKey := by
    refine (congrArg Prod.snd hkeyed).trans ((congrArg (fun v => v.2.2.2) hstore).trans ?_)
    rw [hgive]
  have hmem : ∀ f l, l < 2 ^ 64 → (postUsage (s4.updPart p f) p 7 false).byteAt l = s3.byteAt l := fun f l hl => by
    rw [postUsage_byteAt _ _ _ _ hl, State.byteAt, State.updPart_mem, hflows]
    rfl
  obtain ⟨-, Q, hQ, eQ⟩ := postUsage_rest 7 false (h5 _)
  refine ⟨Q, ⟨hlaunches, ?_, hQ, fun k hk l hl hz => ?_, fun hu r hr j hj hl => ?_⟩, ?_⟩
  · rw [postUsage_only]
    exact (State.updPart_groups _ _ _).trans hgroups
  · rw [hmem _ _ hl]
    refine hsram k ?_ l hz
    rw [e2]
    exact hk
  · rw [hmem _ _ hl]
    refine hhbm r ?_ j hj
    rw [hbmRanges_congr (s := s) (P := P)]
    · exact hr
    · refine (congrArg (fun v => v.2.1) hstore).trans ?_
      rw [hgive]
    · refine locOf_of_unmapped ((congrArg (fun v => v.2.2.1) hstore).trans ?_) hu
      rw [hgive]
    · rw [e2]
      rfl
  · rw [eQ, e3, e2]
    refine ⟨rfl, rfl, rfl, rfl, hkey, congrArg (· + 1) hkey, rfl, rfl, rfl, rfl, fun q => ?_⟩
    exact FMap.look_mapV P.queues (fun _ Q => { Q with en := false }) q

end Sys2Proof.Machine
end

section
/-!
PROOF of ContextsAndReset (09 R222; 17 R366, R370 to R374; 18 R392; 20 R411): the context commands, and the function level reset.
-/

namespace Sys2Proof.Machine

section
variable {s : State} {part ctx : Nat} {area : BitVec 64} {P : Part} (h : s.parts.look part = some P)
include h

/-- While a context command is in progress another is dropped (17 R370). -/
theorem contextCommand_dropped (hb : P.ctxBusy = true) {i : Instr} (hi : i = .ctxSave part ctx area ∨ i = .migrationStop part ctx area ∨
    i = .ctxRestore part ctx area ∨ i = .dirtyLogOn part ∨ i = .dirtyLogOff part ∨ i = .harvest part area ∨ i = .exportFrame part area ∨
    i = .importFrame part area) : Does i s (fun t => OnlyPart s t part P { P with ctxDrop := true }) := by
  rcases hi with rfl | rfl | rfl | rfl | rfl | rfl | rfl | rfl
  · exact ⟨_, rfl, ctxCommand_busy _ _ h hb⟩
  · exact ⟨_, rfl, ctxCommand_busy _ _ h hb⟩
  · exact ⟨_, rfl, restoreNow_busy h hb⟩
  · exact ⟨_, rfl, atOnce_busy _ h hb⟩
  · exact ⟨_, rfl, atOnce_busy _ h hb⟩
  · exact ⟨_, rfl, atOnce_busy _ h hb⟩
  · exact ⟨_, rfl, atOnce_busy _ h hb⟩
  · refine ⟨_, rfl, ?_⟩
    unfold importNow
    simp only [h]
    rw [if_pos hb]
    exact State.updPart_only _ _ _ h

variable (hb : P.ctxBusy = false)
include hb

/-- A save or a migration stop that its checks refuse completes with their status. -/
theorem save_refused {st : Nat} (hbad : (if P.stopped5 then some 1 else if 256 ≤ s.keySlots then some 7 else none) = some st) :
    Does (.ctxSave part ctx area) s (fun t => OnlyPart s t part P { P with ctxStatus := st }) :=
  ⟨_, rfl, ctxCommand_refused _ _ h hb hbad⟩

theorem migrationStop_refused {st : Nat} (hbad : (if P.stopped5 then some 1 else if P.migKey.isNone then some 6
      else if 256 ≤ s.keySlots then some 7 else none) = some st) :
    Does (.migrationStop part ctx area) s (fun t => OnlyPart s t part P { P with ctxStatus := st }) :=
  ⟨_, rfl, ctxCommand_refused _ _ h hb hbad⟩

end

/-- A reset not behind a change of shape that drains (17 R374). -/
theorem flrNow_at_once {s : State} {p : Nat} {P : Part} (h : s.parts.look p = some P) (hr : P.pend.head?.any Cmd.isReshape = false) :
    flrNow p s = flrEffect s p (flrAfter P) := by
  unfold flrNow
  simp only [h]
  exact startFlr_at_once _ h hr

theorem flrNow_behind {s : State} {p : Nat} {P : Part} (h : s.parts.look p = some P) : flrNow p s = startFlr s p (flrAfter P) := by
  unfold flrNow
  simp only [h]

/-- Work is gone from a table that keeps what is not listed. -/
theorem look_keep_unlisted {α : Type} (m : FMap α) (ks : List Nat) (k : Nat) :
    (m.keep (fun j _ => !ks.contains j)).look k = if k ∈ ks then none else m.look k := by
  rw [FMap.look_keep_keys m (fun j => !ks.contains j)]
  by_cases hk : k ∈ ks <;> simp [hk]

/-- Settles O48: each context command by its checks, and a reset by whether a change of shape drains before it. -/
theorem contextsAndReset : Obligations.ContextsAndReset := by
  unfold Obligations.ContextsAndReset
  constructor
  · intro s part ctx area P h
    refine ⟨fun hb i hi => contextCommand_dropped h hb hi, fun hb => ⟨?_, ?_, fun hd => ⟨_, rfl, harvestNow_part area h hb hd⟩,
      fun k f hk hf => ⟨⟨_, rfl, exportNow_part area h hb hk hf⟩, fun hkey e s1 go he hc => ?_⟩, fun h5 => ⟨?_, ?_⟩, fun h5 hk => ?_,
      fun h5 hk => ⟨?_, fun hm => ?_⟩, fun h5 hk => ⟨⟨_, rfl, ctxCommand_saves _ _ h hb ?_⟩, fun hm => ⟨_, rfl, ctxCommand_saves _ _ h hb ?_⟩⟩,
      fun ho => ⟨_, rfl, restoreNow_occupied h hb ho⟩, fun h5 hl => ⟨fun hk => ⟨_, rfl, restoreNow_noSlot h hb h5 hl hk⟩,
        fun hk hkey => ⟨_, rfl, restoreNow_otherKey h hb h5 hl hk hkey⟩,
        fun hk hkey => ⟨fun hi => ⟨_, rfl, restoreNow_noImage h hb h5 hl hk hkey hi⟩, fun m hi =>
          ⟨fun hok => ⟨_, rfl, restoreNow_badImage h hb h5 hl hk hkey hi hok⟩, fun hok hm => ?_⟩⟩⟩⟩⟩
    · exact ⟨_, rfl, _, dirtyLogOn_part h hb, rfl, rfl, rfl⟩
    · exact ⟨_, rfl, _, dirtyLogOff_part h hb, rfl, rfl⟩
    · refine ⟨_, rfl, ?_⟩
      rw [importNow_free area h hb]
      exact importTry_part h hk hf hkey he hc
    · exact save_refused h hb (by simp [h5])
    · exact migrationStop_refused h hb (by simp [h5])
    · exact migrationStop_refused h hb (by simp [h5, hk])
    · exact save_refused h hb (by simp [h5, hk])
    · exact migrationStop_refused h hb (by simp [h5, hk, hm])
    · simp [h5, hk]
    · simp [h5, hk, hm]
    · obtain ⟨hpart, hgroups⟩ := restoreNow_restores h hb h5 hl hk hkey hi hok hm
      refine ⟨_, rfl, hpart, fun g G hG => ?_, fun g G hG hnew => ?_⟩
      · rw [hgroups, FMap.look_append, hG]
        rfl
      · rw [hgroups, FMap.look_append, hnew, look_shiftKeys, hG]
        rfl
  · intro s part P h
    refine ⟨fun c cs hp hc => ⟨_, rfl, ?_⟩, fun hr => ⟨_, rfl, ?_⟩⟩
    · rw [flrNow_behind h]
      exact startFlr_behind h _ hp hc
    · rw [flrNow_at_once h hr]
      obtain ⟨P', hreset, hP'⟩ := flrEffect_reset (flrAfter P) h
      refine ⟨fun l => ?_, fun g => ?_, fun k hk hlow => ⟨fun off hoff => ?_, fun c off hc hoff => ?_⟩, fun _ hu => hreset.hbm hu,
        P', hreset.part, hP'⟩
      · rw [hreset.launches, look_keep_unlisted]
      · rw [hreset.groups, look_keep_unlisted]
      · exact hreset.sram k hk _ (by dsimp only [tmPa]; omega) (fun u => wipeTile_tm u k hoff)
      · exact hreset.sram k hk _ (by dsimp only [storeLoc]; omega) (fun u => wipeTile_store u k hc hoff)

end Sys2Proof.Machine
end
